-- ==== Sys2Proof/Word.lean ====
section
/-!
DEFINITION. Plain arithmetic on the words the IX9 reads and writes: bit ranges, bytes and little-endian values (R10).
-/

namespace Sys2Proof

/-- A byte. -/
abbrev Byte := BitVec 8

/-- A packet sequence number (R179): 24 bits, which wrap. -/
abbrev Psn := BitVec 24

/-- Bits [msb:lsb] of `v`, both ends included (R10). -/
def bits (v msb lsb : Nat) : Nat := (v >>> lsb) % 2 ^ (msb + 1 - lsb)

/-- Bit `i` of `v` as a number. -/
def bit (v i : Nat) : Nat := (v >>> i) % 2

/-- Bit `i` of `v`. -/
def flag (v i : Nat) : Bool := (v >>> i) % 2 == 1

/-- `v` with bits [msb:lsb] replaced by `x`. -/
def setBits (v msb lsb x : Nat) : Nat :=
  let w := msb + 1 - lsb
  (v >>> (msb + 1)) <<< (msb + 1) + (x % 2 ^ w) <<< lsb + v % 2 ^ lsb

/-- A `Bool` as a bit. -/
def b2n (b : Bool) : Nat := if b then 1 else 0

/-- The little-endian value of a list of bytes (R10). -/
def leNat : List Byte → Nat
  | [] => 0
  | b :: l => b.toNat + 256 * leNat l

/-- The `n` low bytes of `v`, least significant first (R10). -/
def leBytes : Nat → Nat → List Byte
  | 0, _ => []
  | n + 1, v => BitVec.ofNat 8 v :: leBytes n (v / 256)

/-- The big-endian value of a list of bytes: packet headers are sent most significant byte first (R10). -/
def beNat (l : List Byte) : Nat := l.foldl (fun a b => a * 256 + b.toNat) 0

/-- The `n` low bytes of `v`, most significant first. -/
def beBytes (n v : Nat) : List Byte := (leBytes n v).reverse

/-- The least multiple of `a` that is not below `n`. -/
def roundUp (n a : Nat) : Nat := (n + a - 1) / a * a

/-- Quotient rounded up. -/
def ceilDiv (n d : Nat) : Nat := (n + d - 1) / d

/-- The number of one bits among the low `w` bits of `v`. -/
def popcount : Nat → Nat → Nat
  | 0, _ => 0
  | w + 1, v => v % 2 + popcount w (v / 2)

/-- The position of the `j`-th one bit of `v`, counted from bit 0; `none` where there is no such bit below `w`. -/
def nthSetBit : (w v j : Nat) → Option Nat
  | 0, _, _ => none
  | w + 1, v, j =>
    if v % 2 = 1 then
      (if j = 0 then some 0 else (nthSetBit w (v / 2) (j - 1)).map (· + 1))
    else (nthSetBit w (v / 2) j).map (· + 1)

/-- `x` as a signed number of `w` bits. -/
def signed (w x : Nat) : Int := if x % 2 ^ w < 2 ^ (w - 1) then (x % 2 ^ w : Nat) else (x % 2 ^ w : Nat) - (2 ^ w : Nat)

/-- A signed number as `w` bits in two's complement. -/
def unsigned (w : Nat) (x : Int) : Nat := (x % (2 ^ w : Nat)).toNat

end Sys2Proof
end

