-- ==== Sys2Proof/Syntax.lean ====
section
/-!
DEFINITION. The commands the IX9 takes: `Instr` has one constructor per row of spec/opcode_table.json, with the row's
operands, and the types those operands are made of.
-/

namespace Sys2Proof

/-- How a bus request can fail (R43, R372): unsupported request, completer abort, completion timeout, other error. -/
inductive BusFail where
  | ur | ca | timeout | other
  deriving DecidableEq, Repr

/-- What a memory read brings back. Host and accelerator memory lie outside the IX9, so their bytes come with the
command; `own` says that the bytes are the block's own landing memory. -/
inductive ReadData where
  | own
  | ok (data : List Byte)
  | poisoned (data : List Byte)
  | fail (why : BusFail)
  /-- R19: the island that should have carried the read is in reset or powered down. -/
  | domainDown
  deriving DecidableEq, Repr

/-- A path to memory (R38, R535): the landing controllers, the host port, or a sublink of an accelerator port. -/
inductive Path where
  | landing
  | host
  | accel (port sub : Nat)
  deriving DecidableEq, Repr

/-- The protection envelope of R412: the sender's key epoch, the transmission counter and the tag. -/
structure Envelope where
  epoch : Nat
  txc : Nat
  tag : Nat
  deriving DecidableEq, Repr

/-- A native packet with the link envelope fields that travel with it (R228, R234, R235). `payload` is the payload as
sent: with an `Envelope` it is the ciphertext, without the prefix and the tag. `len` is the LEN field. -/
structure Packet where
  dst : Nat
  src : Nat
  intm : Nat
  lane : Nat
  typ : Nat
  ecn : Nat
  epoch : Nat
  conn : Nat
  psn : Nat
  len : Nat
  mc : Bool
  last : Bool
  ackreq : Bool
  imm : Bool
  prot : Option Envelope
  payload : List Byte
  hops : Nat
  hopdone : Bool
  birth : Nat
  srcConn : Nat
  crc : Nat
  deriving DecidableEq, Repr

/-- A RoCEv2-compatible packet (R260, R261): the fields of IP, UDP and BTH the transport looks at, and the bytes after
the BTH, extension headers first. -/
structure Roce where
  port : Nat
  lane : Nat
  srcIp : Nat
  /-- The version of its IP header. -/
  ipv6 : Bool := false
  ecn : Nat
  op : Nat
  se : Bool
  flags : Nat
  destQp : Nat
  ackreq : Bool
  psn : Nat
  prot : Option Envelope
  body : List Byte
  /-- Bytes of its frame, which it holds in the receive buffer of its lane. -/
  wire : Nat
  deriving DecidableEq, Repr

/-- A packet as it reaches the transport. -/
inductive Pkt where
  | native (p : Packet)
  | roce (r : Roce)
  deriving DecidableEq, Repr

/-- What arrives on an Ethernet port (R257, R269): a frame from destination address to FCS, whether the PCS found a code
error or an uncorrectable codeword in it; a verify or respond mPacket; fragments that do not assemble. -/
inductive RxFrame where
  | frame (codeErr : Bool) (bytes : List Byte)
  | verify
  | respond
  | badFragments
  deriving DecidableEq, Repr

/-- What can be declared hung (R480): a submission queue, an engine of a tile (R483), an island outside the tiles. -/
inductive HangUnit where
  | queue (sq : Nat)
  | engine (tile engine : Nat)
  | island (i : Nat)
  deriving DecidableEq, Repr

/-- What a read finds in a codeword of landing memory that does not hold the poison marker (R369). -/
inductive Ecc where
  | clean
  /-- One symbol in error: its number. -/
  | corrected (symbol : Nat)
  /-- Uncorrectable: the symbol number recorded, 0xFF for two symbols. -/
  | uncorrectable (symbol : Nat)
  deriving DecidableEq, Repr

/-- The end of a connection's fill read (R172): `good` unless it ended with poison, a bus error or a completion timeout. -/
structure FillEnd where
  conn : Nat
  good : Bool
  deriving DecidableEq, Repr

/-- What an ATS Translation Completion says (R127, R129). -/
inductive AtsRes where
  | ok (addr size : Nat) (r w noSnoop : Bool)
  | denied
  deriving DecidableEq, Repr

/-- What a fetcher read brings back (R77, R87): ring slots; a scatter-gather list of an entry, by slot and buffer; the
counts table of OP_ALL_TO_ALLV. -/
inductive FetchRead where
  | ring (r : ReadData)
  | list (slot buf : Nat) (r : ReadData)
  | table (slot : Nat) (r : ReadData)
  deriving DecidableEq, Repr

/-- A memory read of the block: source data of a connection's message at an offset (R27), the engine's read of a staged
chunk or of a multicast slot (R295), a Heat's source, a Stride channel's next piece, a peer's read or atomic (R33), a
prefetch's next piece (R137). `org` names the message: 0 an entry (queue, slot), 1 a Heat (key, send), 2 a channel,
3 what a reset has left on a connection (its first PSN still out). -/
inductive SourceReq where
  | message (conn org a b off : Nat)
  | stage (window slot : Nat)
  | heat (key : Nat)
  | stride (chan : Nat)
  | peer (conn psn : Nat)
  | prefetch (sq slot : Nat)
  deriving DecidableEq, Repr

/-- A PCIe request that cannot be served: the acknowledging requests and unacknowledged writes of a path, a memory read,
or another read, whose own command brings its failure. -/
inductive PcieReq where
  | path (p : Path)
  | read (r : SourceReq)
  | other
  deriving DecidableEq, Repr

/-- Fields of PCIe capabilities whose values the spec gives (R536, R543). -/
inductive CfgField where
  | maxPasidWidth
  | atsQueueDepth
  | atsPageAligned
  | priCapacity
  | vfStride
  | firstVfOffset
  | totalVfs
  | other (addr : Nat)
  deriving DecidableEq, Repr

/-- A Configuration Request of the host for a function (R522, R536, R543): a read of a field, or a write that changes ATS
Enable, MSI-X Enable and Function Mask, VF Enable or nothing the block acts on. -/
inductive CfgReq where
  | read (f : CfgField)
  | atsEnable (on : Bool)
  | msix (enable mask : Bool)
  | vfEnable (on : Bool)
  | other
  deriving DecidableEq, Repr

/-- An instruction of the test access port (R578). -/
inductive Jtag where
  | bypass | idcode | sample | extest | extestPulse | extestTrain | clamp | highz
  | other (code : Nat)
  deriving DecidableEq, Repr

/-- What the wake detector sees on port 0 (R275): a frame from destination address to FCS, or a loss or gain of link. -/
inductive WakeEv where
  | frame (bytes : List Byte)
  | linkChange
  deriving DecidableEq, Repr

/-- What the monitor's RESET resets (R467): Q queue, F id, E tile engine, T tile, W, C. -/
inductive SbReset where
  | queue (sq : Nat)
  | func (id : Nat)
  | engine (tile engine : Nat)
  | tile (tile : Nat)
  | warm
  | cold
  deriving DecidableEq, Repr


/-- The commands: one constructor per row of spec/opcode_table.json, in its order. -/
inductive Instr where
  /-- SQ_DOORBELL_WRITE (R85). A write to a submission queue's doorbell word is accepted, ignored or puts the queue in error, and otherwise raises L. -/
  | sqDoorbellWrite (f db : Nat) (whole : Bool) (v : Nat)
  /-- CQ_DOORBELL_WRITE (R97). A write of a completion queue's consumer count is accepted or discarded, which frees completion slots. -/
  | cqDoorbellWrite (f db : Nat) (whole : Bool) (v : Nat)
  /-- EQ_DOORBELL_WRITE (R101). A write of an event queue's consumer count and ARM bit frees space, writes waiting events and may send one MSI-X message. -/
  | eqDoorbellWrite (f db : Nat) (whole : Bool) (v : Nat)
  /-- FQ_DOORBELL_WRITE (R141). A write to a fault queue's consumer doorbell frees fault ring space. -/
  | fqDoorbellWrite (f db : Nat) (whole : Bool) (v : Nat)
  /-- FETCH_READ_RETURN (R87). A fetcher read of ring slots returns, and the fetcher checks phases and accepts the entry or schedules re-reads. -/
  | fetchReadReturn (sq : Nat) (r : FetchRead)
  /-- PHASE_REREAD (R87). DB_RETRY_INTERVAL expires after a phase mismatch and the fetcher issues the next re-read of the entry. -/
  | phaseReread (sq : Nat)
  /-- QUEUE_ERROR_COMPLETION (R91). Once no accepted entry remains and a slot is free, the queue-error completion is written and a type 0x02 event raised. -/
  | queueErrorCompletion (sq : Nat)
  /-- ARBITRATE (R94). A tile that can start an entry picks a lane, function and queue and starts up to burst entries. -/
  | arbitrate (tile : Nat)
  /-- MOD_TIME_EXPIRY (R99). MOD_TIME µs pass since the first uncovered completion and the completion queue raises a type 0x01 event. -/
  | modTimeExpiry (cq : Nat)
  /-- ADMIN_ENABLE (R103). A write of ADMIN_CTRL.ENABLE = 1 checks the admin configuration, locks it and starts the three admin rings at count 0. -/
  | adminEnable (f : Nat)
  /-- ADMIN_DISABLE (R103). A write of ADMIN_CTRL.ENABLE = 0 stops the admin queue under R91 and unlocks its fields. -/
  | adminDisable (f : Nat)
  /-- OP_SEND (R166). A send entry transmits its message to the peer, which consumes the head receive entry. -/
  | opSend (sq slot : Nat)
  /-- OP_WRITE (R164). A write entry places LENGTH bytes at the far window offset. -/
  | opWrite (sq slot : Nat)
  /-- OP_WRITE_IMM (R167). A write with immediate writes data and makes the far device write a REMOTE completion carrying the immediate. -/
  | opWriteImm (sq slot : Nat)
  /-- OP_READ (R164). A read entry fetches LENGTH bytes from the far window into the local target. -/
  | opRead (sq slot : Nat)
  /-- OP_FETCH_ADD (R168). An atomic fetch-and-add on the far window returns the old value. -/
  | opFetchAdd (sq slot : Nat)
  /-- OP_CMP_SWAP (R168). An atomic compare-and-swap on the far window returns the old value. -/
  | opCmpSwap (sq slot : Nat)
  /-- OP_NOP (R81). A no-operation entry moves no data and completes with ST_OK. -/
  | opNop (sq slot : Nat)
  /-- OP_SQ_CREATE (R104). An admin entry creates a submission queue for the PF or one of its VFs. -/
  | opSqCreate (sq slot : Nat)
  /-- OP_CQ_CREATE (R104). An admin entry creates a completion queue. -/
  | opCqCreate (sq slot : Nat)
  /-- OP_EQ_CREATE (R104). An admin entry creates an event queue bound to an MSI-X vector. -/
  | opEqCreate (sq slot : Nat)
  /-- OP_QUEUE_DESTROY (R105). An admin entry destroys a queue after checks, putting a submission queue through R91. -/
  | opQueueDestroy (sq slot : Nat)
  /-- OP_QUEUE_MODIFY (R93). An admin entry changes RESTART, WEIGHT, BURST, MOD_COUNT or MOD_TIME of a queue. -/
  | opQueueModify (sq slot : Nat)
  /-- QUEUE_RESTART (R92). A waiting RESTART finds its queue with no entry in flight and sets SQ_CONSUMED and L to V. -/
  | queueRestart (sq slot : Nat)
  /-- OP_CONN_CREATE (R154). An entry creates a connection in INIT from an attribute block. -/
  | opConnCreate (sq slot : Nat) (r : ReadData)
  /-- OP_CONN_MODIFY (R155). An entry changes a connection's state or attributes as a whole, optionally querying it. -/
  | opConnModify (sq slot : Nat) (r : ReadData)
  /-- OP_CONN_DESTROY (R156). An entry moves a connection to QUARANTINE once its entries and receives have ended. -/
  | opConnDestroy (sq slot : Nat)
  /-- OP_PD_CREATE (R160). An admin entry creates or destroys a protection domain. -/
  | opPdCreate (sq slot : Nat)
  /-- OP_PREFETCH (R137). An entry invalidates a range, copies its pages to DEST and rewrites the leaves. -/
  | opPrefetch (sq slot : Nat)
  /-- OP_ADVISE (R139). An entry records a translation hint for a range of an ASID. -/
  | opAdvise (sq slot : Nat)
  /-- OP_INVALIDATE (R123). An entry raises XGEN, logs a range and removes cached translations, then drains older entries. -/
  | opInvalidate (sq slot : Nat)
  /-- INVALIDATION_DONE (R123). Every older entry has drained or stopped and its writes are acknowledged, so paused queues resume or fail and the completion is written. -/
  | invalidationDone (id : Nat) (r : ReadData)
  /-- INV_DRAIN_LIMIT_EXPIRY (R62). INV_DRAIN_LIMIT runs out and a started entry under the old generation is stopped and ends ST_XLATE_WITHDRAWN. -/
  | invDrainLimitExpiry (id : Nat)
  /-- OP_WINDOW_SET (R131). An entry creates, modifies or destroys a remote window. -/
  | opWindowSet (sq slot : Nat)
  /-- WINDOW_QUARANTINE_END (R132). CONN_QUARANTINE elapses for a destroyed window number, which may be created again. -/
  | windowQuarantineEnd (win : Nat)
  /-- WALK_DONE (R117). A table walk's reads return and the translation is cached or faults. -/
  | walkDone (island asid page : Nat) (reads : List (Nat × ReadData))
  /-- ATS_TRANSLATION_COMPLETION (R127). An ATS Translation Completion returns and is cached or leads to a Page Request. -/
  | atsTranslationCompletion (island asid page : Nat) (r : AtsRes)
  /-- ATS_INVALIDATE_REQUEST (R128). An ATS Invalidate Request from the host runs as a range invalidation on every ASID with that PASID. -/
  | atsInvalidateRequest (id pasid va pages : Nat)
  /-- PAGE_REQUEST_GROUP_RESPONSE (R129). A Page Request Group Response arrives and re-sends the translation request or faults with cause 0x07. -/
  | pageRequestGroupResponse (island asid page : Nat) (ok : Bool)
  /-- PRI_TIMEOUT (R129). XLATE_PRI_CFG.TIMEOUT passes without a response and the waiting entry faults with cause 0x07. -/
  | priTimeout (island asid page : Nat)
  /-- XLATE_LOCK (R133). A write of XLATE_CTRL.LOCK locks the translation fields and starts zeroing the window table. -/
  | xlateLock
  /-- WINDOW_TABLE_INIT_DONE (R133). The window table's zero writes are acknowledged and waiting OP_WINDOW_SET entries may start. -/
  | windowTableInitDone
  /-- REQUEST_PACKET_RECEIVED (R162). A request packet for a local connection is checked in order and executed, parked, answered or discarded. -/
  | requestPacketReceived (p : Pkt)
  /-- CONN_FILL_DONE (R172). A connection fill completes, parked packets execute in arrival order and waiting modifies proceed. -/
  | connFillDone (e : FillEnd)
  /-- CONN_SPILL_DONE (R172). A spill write is accepted, freeing the way and letting a waiting fill of that connection start. -/
  | connSpillDone (conn : Nat)
  /-- CONN_QUARANTINE_END (R150). CONN_QUARANTINE elapses and a connection number returns to RESET. -/
  | connQuarantineEnd (conn : Nat)
  /-- ACK_RECEIVED (R187). An ACK moves TX_UNA forward, resets retry counts and lets covered entries complete. -/
  | ackReceived (p : Pkt)
  /-- ATOMIC_ACK_RECEIVED (R187). An ATOMIC_ACK delivers the old value and acknowledges the atomic and earlier PSNs. -/
  | atomicAckReceived (p : Pkt)
  /-- READ_RESP_RECEIVED (R185). A READ_RESP delivers data for its PSN once and acknowledges earlier PSNs. -/
  | readRespReceived (p : Pkt)
  /-- NAK_SEQ_RECEIVED (R187). A NAK_SEQ makes the sender go back and send again from the named PSN. -/
  | nakSeqReceived (p : Pkt)
  /-- BUSY_RECEIVED (R187). A BUSY answer stops sending and pauses the timer for the hint. -/
  | busyReceived (p : Pkt)
  /-- BUSY_HOLD_END (R187). The busy hold ends and every PSN from the named one is sent again. -/
  | busyHoldEnd (conn : Nat)
  /-- RESETTING_RECEIVED (R187). A RESETTING answer starts a reset back-off, raising RESET_CNT or ending the connection beyond RESET_LIMIT. -/
  | resettingReceived (p : Pkt)
  /-- RESET_BACKOFF_END (R187). RD_RESET.BACKOFF elapses and the sender sends one probe at TX_UNA with ACKREQ. -/
  | resetBackoffEnd (conn : Nat)
  /-- NAK_FATAL_RECEIVED (R150). A NAK_FATAL moves the connection to ERROR and ends the causing entry with its status. -/
  | nakFatalReceived (p : Pkt)
  /-- ABORT_RECEIVED (R150). An authenticated ABORT moves the connection to ERROR with ERR_CAUSE 0x04 and no ABORT back. -/
  | abortReceived (p : Pkt)
  /-- RETRANSMISSION_TIMER_EXPIRY (R188). The retransmission deadline passes and the sender retries from TX_UNA or ends the connection at RETRY_LIMIT. -/
  | retransmissionTimerExpiry (conn : Nat)
  /-- ACK_DELAY_EXPIRY (R182). RD_ACK.DELAY passes since a PSN became complete unacknowledged and an ACK carrying C is sent. -/
  | ackDelayExpiry (conn : Nat)
  /-- PACKET_SEND (R192). The transport emits a connection's next packet once the Pacer, the end-to-end window and R56 allow it. -/
  | packetSend (conn : Nat)
  /-- CNP_RECEIVED (R265). A received CNP passes checks 1 to 4 and is applied as a Pacer notification. -/
  | cnpReceived (p : Pkt)
  /-- PACER_PERIOD (R207). A Pacer period elapses, decaying α and raising RC additively or by hyper-increase. -/
  | pacerPeriod (conn : Nat)
  /-- PORT_PICK (R202). A network port that can begin a packet chooses L0 within its cap or a lane by deficit round robin. -/
  | portPick (port : Nat)
  /-- GATE_ENTRY_BEGIN (R215). A gate control list entry's interval ends, or a cycle boundary arrives, and the next entry sets the lane gates. -/
  | gateEntryBegin (port : Nat)
  /-- GATE_ENABLE (R215). A write of GATE_CTRL.EN = 1 makes gates follow the active list. -/
  | gateEnable (port : Nat)
  /-- GATE_DISABLE (R218). A write of GATE_CTRL.EN = 0 opens every gate, releases hold and cancels a pending swap. -/
  | gateDisable (port : Nat)
  /-- SWAP_REQ (R218). A write of GATE_CTRL.SWAP_REQ fixes the swap time S for the idle list. -/
  | swapReq (port : Nat)
  /-- GATE_SWAP (R218). At S the idle list becomes active from entry 0. -/
  | gateSwap (port : Nat)
  /-- PTP_TIME_STEP (R219). PTP time is stepped and each port realigns its gate list at the next boundary. -/
  | ptpTimeStep (ns : Nat)
  /-- LINK_TRAINING_DONE (R229). A native port's lanes finish training and the INIT exchange begins. -/
  | linkTrainingDone (port : Nat)
  /-- INIT_TIMER (R229). Every 1 µs during bring-up a side sends an INIT word. -/
  | initTimer (port : Nat)
  /-- INIT_RECEIVED (R229). An INIT word arrives, records the peer endpoint and leads to CREDIT words and UP, or restarts bring-up on a new generation. -/
  | initReceived (port word : Nat)
  /-- CREDIT_RECEIVED (R230). A CREDIT word updates the cumulative credit counts of four lanes. -/
  | creditReceived (port word : Nat)
  /-- CREDIT_TIMER (R230). 0.5 µs pass and the receiver sends a CREDIT word for each SET. -/
  | creditTimer (port : Nat)
  /-- LACK_RECEIVED (R231). A LACK frees replay buffer entries below its LSEQ. -/
  | lackReceived (port word : Nat)
  /-- LACK_TIMER (R231). 0.5 µs pass after the first unacknowledged packet and the receiver sends a LACK. -/
  | lackTimer (port : Nat)
  /-- LNAK_RECEIVED (R232). A LNAK makes the sender replay every packet from its LSEQ, or take the link down at RETRY_MAX. -/
  | lnakReceived (port word : Nat)
  /-- LINK_PACKET_RECEIVED (R232). A native packet arrives on a link and is checked by CRC, TYPE and LSEQ, drawing a LNAK on failure. -/
  | linkPacketReceived (port start : Nat) (k : Packet)
  /-- LINK_WORD_TIMEOUT (R233). No link word arrives for 20 µs and the native link goes down. -/
  | linkWordTimeout (port : Nat)
  /-- PCS_BLOCK_LOCK_LOSS (R233). The PCS loses block lock for 1 µs and the link goes down. -/
  | pcsBlockLockLoss (port : Nat)
  /-- LINK_CFG_NATIVE_WRITE (R233). A write that changes LINK_CFG.NATIVE takes the link down and switches the port's kind. -/
  | linkCfgNativeWrite (port : Nat) (native : Bool)
  /-- NATIVE_PACKET_ROUTE (R241). A device routes a unicast packet by its epoch's tables for the Hop, Step or Jump leg, or delivers it LOCAL. -/
  | nativePacketRoute (port lane : Nat)
  /-- PAIR_COUNT_TIMEOUT (R242). A pair entry's count has not changed for 1 s and is set to 0. -/
  | pairCountTimeout (pair : Nat)
  /-- FAB_EPOCH_COMMIT (R247). A write of FAB_EPOCH.COMMIT sets COMMITTED and clears the late records. -/
  | fabEpochCommit
  /-- FAB_EPOCH_FLIP (R247). A write of FAB_EPOCH.FLIP arms the epoch flip for FAB_FLIP_AT. -/
  | fabEpochFlip
  /-- FLIP_TIME (R247). FAB_FLIP_AT is reached and CUR changes, COMMITTED clears and SETTLING sets. -/
  | flipTime
  /-- FAB_EPOCH_FORCE_EXPIRY (R247). FAB_EPOCH_FORCE passes after the flip and every remaining pair entry moves to the new epoch. -/
  | fabEpochForceExpiry
  /-- FAB_EPOCH_SETTLE_EXPIRY (R247). FAB_EPOCH_SETTLE passes and SETTLING clears, making the old epoch idle. -/
  | fabEpochSettleExpiry
  /-- FAB_EPOCH_CUR_WRITE (R251). A write of FAB_EPOCH.CUR while FWD_EN is 0 moves every pair entry to that epoch. -/
  | fabEpochCurWrite (epoch : Nat)
  /-- ETH_FRAME_RECEIVED (R257). A received Ethernet frame passes the classification checks in order and goes to the transport or the exception path. -/
  | ethFrameReceived (port : Nat) (fr : RxFrame)
  /-- ETH_GRP_MODE_WRITE (R255). A write of ETH_GRP_CFG.MODE takes every port of the group down and brings up the ports of the new mode. -/
  | ethGrpModeWrite (group mode : Nat)
  /-- PFC_FRAME_RECEIVED (R268). A received PFC frame pauses the mapped lanes for the quanta given. -/
  | pfcFrameReceived (port prios : Nat) (quanta : List Nat)
  /-- PFC_PAUSE_EXPIRY (R268). A lane's pause time ends and it may begin frames again. -/
  | pfcPauseExpiry (port lane : Nat)
  /-- PFC_REPEAT_TIMER (R268). Every 10 µs while a lane's buffer is over its level the port repeats the PFC frame, or sends quanta 0 once it drains. -/
  | pfcRepeatTimer (port lane : Nat)
  /-- PREEMPT_VERIFY_TIMER (R269). VERIFY_TIME elapses and the verify exchange is retried or declared failed. -/
  | preemptVerifyTimer (port : Nat)
  /-- FEC_WINDOW_END (R272). A 1 ms FEC window ends and a lane over threshold for WINDOWS windows triggers sparing. -/
  | fecWindowEnd (group : Nat) (lanes : List (Nat × Nat × Nat))
  /-- LANE_LOCK_LOSS (R272). A lane's receiver loses lock and triggers sparing when AUTO is set. -/
  | laneLockLoss (group lane : Nat)
  /-- ETH_SPARE_REQ (R272). A write of ETH_SPARE_CTRL.REQ starts sparing of the named lane. -/
  | ethSpareReq (group lane : Nat)
  /-- SPARE_ADAPT_DONE (R272). The spare receiver has adapted, reception and transmission move to it and the failed lane powers down. -/
  | spareAdaptDone (group : Nat)
  /-- LANE_SHED_WINDOW (R273). A 100 µs load window ends and the port sheds or restores width. -/
  | laneShedWindow (port tx rx : Nat)
  /-- LS_RETRAIN_DONE (R274). A width-change retrain completes, RETRAINING clears and sending resumes. -/
  | lsRetrainDone (port : Nat)
  /-- WAKE_MATCH (R275). In standby a frame or link change matches a wake source and the wake sequence starts. -/
  | wakeMatch (ev : WakeEv)
  /-- ETH_TS_POP (R279). An 8-byte read of ETH_TS_SEC pops the head timestamp FIFO entry. -/
  | ethTsPop (port : Nat)
  /-- OP_ALL_REDUCE (R288). A Heat entry reduces every member's source into every member's destination. -/
  | opAllReduce (sq slot : Nat)
  /-- OP_REDUCE_SCATTER (R288). A Heat entry reduces block j of every member into Bib j. -/
  | opReduceScatter (sq slot : Nat)
  /-- OP_ALL_GATHER (R288). A Heat entry gathers every member's source into every destination. -/
  | opAllGather (sq slot : Nat)
  /-- OP_REDUCE (R288). A Heat entry reduces every source into ROOT's destination. -/
  | opReduce (sq slot : Nat)
  /-- OP_BROADCAST (R288). A Heat entry copies ROOT's source to every destination. -/
  | opBroadcast (sq slot : Nat)
  /-- OP_ALL_TO_ALL (R288). A Heat entry sends block j of each source to Bib j. -/
  | opAllToAll (sq slot : Nat)
  /-- OP_ALL_TO_ALLV (R289). A Heat entry exchanges variable blocks by a counts table. -/
  | opAllToAllv (sq slot : Nat)
  /-- OP_GROUP_BARRIER (R293). A Heat entry synchronises the group over tree 0. -/
  | opGroupBarrier (sq slot : Nat)
  /-- OP_GROUP_SET (R282). An entry creates a group, starts a new epoch or destroys the group. -/
  | opGroupSet (sq slot : Nat) (r : ReadData)
  /-- HEAT_CREDIT_RECEIVED (R296). A CREDIT message grants a slot and the sender sends, waits or aborts by epoch, HEAT_SEQ and DESC_HASH. -/
  | heatCreditReceived (k : Packet)
  /-- HEAT_ABORT_RECEIVED (R304). An ABORT for an unmarked Heat marks it aborted and forwards it to the algorithm's neighbours. -/
  | heatAbortReceived (k : Packet)
  /-- ABORT_REPEAT_TIMER (R304). COLL_ABORT.INTERVAL elapses and an ABORT is repeated on native connections. -/
  | abortRepeatTimer (group epoch seq : Nat)
  /-- FINISH_UP_RECEIVED (R301). A FINISH_UP from a child is recorded and passed up, or lets Bib 0 decide. -/
  | finishUpReceived (k : Packet)
  /-- RELEASE_RECEIVED (R301). A RELEASE carries the decision down tree 0 and the member completes. -/
  | releaseReceived (k : Packet)
  /-- QUERY_RECEIVED (R302). A QUERY is answered with RELEASE by a member holding the decision. -/
  | queryReceived (k : Packet)
  /-- QUERY_REPEAT_TIMER (R302). INTERVAL elapses and an undecided member repeats its QUERY, or completes with cause 0x09 after the last. -/
  | queryRepeatTimer (group epoch seq : Nat)
  /-- DECISION_HOLD_EXPIRY (R301). 2 × LAP_WINDOW after completing, a member stops holding the Heat decision. -/
  | decisionHoldExpiry (group epoch seq : Nat)
  /-- MARK_RECEIVED (R298). A MARK after multicast data is checked against the bytes received and may draw a REPAIR. -/
  | markReceived (k : Packet)
  /-- REPAIR_RECEIVED (R298). A REPAIR makes the root resend the chunk by unicast into the same slot. -/
  | repairReceived (k : Packet)
  /-- MC_REPAIR_TIMER (R298). COLL_MC.REPAIR µs pass without credit for a slot and the root sends the MARK again. -/
  | mcRepairTimer (group epoch seq slot : Nat)
  /-- LAP_WINDOW_EXPIRY (R299). LAP_WINDOW passes without a Lap's input and the member aborts with cause 0x01. -/
  | lapWindowExpiry (group epoch seq lap : Nat)
  /-- OP_ATT_BLOCK_TABLE (R343). An entry creates, modifies or destroys a sequence object. -/
  | opAttBlockTable (sq slot : Nat) (r : ReadData)
  /-- OP_ATT_DECODE (R344). An attention entry computes decode outputs locally or in scatter mode. -/
  | opAttDecode (sq slot : Nat)
  /-- OP_ATT_PREFILL (R356). An attention entry computes prefill outputs locally or in ring mode. -/
  | opAttPrefill (sq slot : Nat)
  /-- MARA_ISLAND_DONE (R337). A MARA island finishes its blocks and the coordinating tile merges the partial records. -/
  | maraIslandDone (key island : Nat)
  /-- SCATTER_HEADER_RECEIVED (R355). A holder receives a scatter request header and computes over its shard or aborts. -/
  | scatterHeaderReceived (group seq peer : Nat) (header : List Byte)
  /-- PATROL_SCRUB_TICK (R373). The patrol scrub reads its next codeword, spaced to cover every stack once per PERIOD. -/
  | patrolScrubTick (ecc : Ecc)
  /-- ROW_REQ (R374). A write of LM_REPAIR_CTRL.ROW_REQ starts sparing of a row. -/
  | rowReq (stack : Nat)
  /-- ROW_SPARE_COPY_DONE (R374). A spared row's copy completes and the remap switches. -/
  | rowSpareCopyDone (stack chan bank lmrow : Nat)
  /-- POST_PACKAGE_REPAIR_DONE (R374). HBM4 post-package repair completes and the row or pin repair becomes permanent. -/
  | postPackageRepairDone (stack chan : Nat) (lmrow : Option (Nat × Nat))
  /-- PIN_REQ (R375). A write of LM_REPAIR_CTRL.PIN_REQ starts steering a pin to its spare. -/
  | pinReq (stack : Nat)
  /-- PIN_THRESH_WINDOW (R375). A one-second window ends and a pin over PIN_THRESH starts steering. -/
  | pinThreshWindow
  /-- PIN_STEER_COPY_DONE (R375). The channel's rewrite completes and reads take the symbol from the spare pin. -/
  | pinSteerCopyDone (stack chan : Nat)
  /-- LM_ZERO_DONE (R367). Background zeroing of a unit or 64 KiB block completes and the unit returns to the pool. -/
  | lmZeroDone (block : Bool) (n : Nat)
  /-- OP_COPY (R387). A Stride entry copies a source range to a destination on a channel. -/
  | opCopy (sq slot : Nat)
  /-- OP_FILL (R387). A Stride entry fills a destination with an 8-byte pattern. -/
  | opFill (sq slot : Nat)
  /-- OP_CHAIN_START (R388). A Stride entry starts a channel walking a descriptor chain. -/
  | opChainStart (sq slot : Nat)
  /-- DESCRIPTOR_READ_RETURN (R391). A channel's descriptor read returns and the descriptor starts or the chain ends. -/
  | descriptorReadReturn (chan : Nat) (r : ReadData)
  /-- DESCRIPTOR_END (R394). A descriptor ends DONE or BAD and its write-back and optional completion are written. -/
  | descriptorEnd (chan : Nat)
  /-- REQUEST_LINE_PULSE (R398). A request line pulses and every channel listening to it counts it. -/
  | requestLinePulse (line : Nat)
  /-- DREQ_EDGE (R399). An edge of the selected polarity on a DREQ pin pulses its request line. -/
  | dreqEdge (pin : Nat) (rising : Bool)
  /-- PPS_IN_EDGE (R399). An accepted PPS_IN edge is timestamped and pulses request line 32. -/
  | ppsInEdge
  /-- TIME_SECOND_BOUNDARY (R399). The time base reaches a second boundary, drives PPS_OUT and pulses request line 33. -/
  | timeSecondBoundary
  /-- STRIDE_BURST_START (R398). A WAIT_REQ descriptor finds a pending request and starts one burst. -/
  | strideBurstStart (chan : Nat)
  /-- STRIDE_PAUSE (R400). A write of STRIDE_CH_CTRL.PAUSE moves a running channel to PAUSING. -/
  | stridePause (f chan : Nat) (setup : Bool)
  /-- STRIDE_RESUME (R400). A write of STRIDE_CH_CTRL.RESUME returns a paused channel to RUN. -/
  | strideResume (f chan : Nat) (setup : Bool)
  /-- STRIDE_STOP (R400). A write of STRIDE_CH_CTRL.STOP moves the channel to STOPPING or ends a paused chain. -/
  | strideStop (f chan : Nat) (setup : Bool)
  /-- PAUSING_DONE (R401). A pausing channel's outstanding reads and writes finish and it reaches PAUSED. -/
  | pausingDone (chan : Nat)
  /-- SEAL (R407). A secure mailbox SEAL command wraps a tenant root key into a blob under the sealing key. -/
  | sealCommand (chan : Nat)
  /-- OP_KEY_BIND (R422). An admin entry loads a tenant slot, binds a connection's peer incarnation or installs a MACsec SA. -/
  | opKeyBind (sq slot : Nat) (r : ReadData)
  /-- OP_KEY_ROTATE (R421). An admin entry raises a connection's key epoch or changes the MACsec transmit AN. -/
  | opKeyRotate (sq slot : Nat)
  /-- OP_KEY_RETIRE (R422). An admin entry erases a tenant slot or a MACsec SA. -/
  | opKeyRetire (sq slot : Nat)
  /-- VAULT_KEY_FETCH_DONE (R411). The Vault returns a derived working key to a cipher slice and the waiting packet proceeds. -/
  | vaultKeyFetchDone (tile conn dir epoch : Nat) (send : Bool)
  /-- TAG_FAIL_COUNT_EXPIRY (R418). 1 s passes since a connection's last tag failure and its count clears. -/
  | tagFailCountExpiry (conn : Nat)
  /-- DRBG_RESEED (R425). 1 s or 2^20 generate requests pass and the DRBG reseeds from the entropy source. -/
  | drbgReseed
  /-- HEALTH_TEST_FAIL (R426). An entropy health test fails and CIPHER and MACSEC leave readiness. -/
  | healthTestFail
  /-- VAULT_RETEST (R426). Every 1 s after a failure the Vault repeats its start-up tests and restores readiness once they pass. -/
  | vaultRetest (pass : Bool)
  /-- OP_QUOTA_SET (R434). PF0's admin entry sets a function's quota, allotment or weight for one resource. -/
  | opQuotaSet (sq slot : Nat)
  /-- OP_QUOTA_GET (R438). An admin entry writes a function's 16 quota records to a buffer. -/
  | opQuotaGet (sq slot : Nat)
  /-- FUNC_RESET_GO (R442). A write of FUNC_RESET.GO starts the function reset of the function named in ID. -/
  | funcResetGo (id : Nat)
  /-- PCIE_FLR (R442). A PCIe FLR of a PF or VF starts its function reset, VFs before the PF. -/
  | pcieFlr (f : Nat)
  /-- VF_ENABLE_CLEAR (R442). Clearing VF Enable in a PF's SR-IOV capability resets its VFs. -/
  | vfEnableClear (pf : Nat)
  /-- FUNC_RESET_DONE (R442). A function reset's writes are acknowledged, its objects are discarded and the reset reports done. -/
  | funcResetDone (f : Nat)
  /-- SVC_RESTART (R453). A write of SVC_CTRL.RESTART runs an engine reset of the named SVC islands, or a full IF0 restart for every bit. -/
  | svcRestart (islands : Nat)
  /-- SERVICE_IMAGE_READ_DONE (R452). The service image is read and verified and the harts leave reset, or stay in reset on failure. -/
  | serviceImageReadDone (image blob : List Byte)
  /-- HART_LANDING_ACCESS (R450). A hart access to the landing range is served or raises an access fault for quota, removal or poison. -/
  | hartLandingAccess (hart off n : Nat) (store : Option (List Byte)) (r : ReadData)
  /-- EXC_TX_PROD_WRITE (R456). A write of EXC_TX_PROD makes the IX9 send the new transmit records in ring order. -/
  | excTxProdWrite (v : Nat)
  /-- EXC_TX_RECORD_DONE (R456). A transmit record's frame is sent or refused, its header is rewritten and EXC_TX_CONS advances. -/
  | excTxRecordDone
  /-- MBOX_GO (R460). A write of MBOX_CTRL.GO sends the request to its target and sets BUSY, or sets DOMAIN_DOWN. -/
  | mboxGo (f chan target : Nat) (irq : Bool)
  /-- MBOX_RESPOND (R460). The target's write of MBOX_CTRL.RESPOND clears BUSY, sets DONE and may raise an event to the owner. -/
  | mboxRespond (who : Option Nat) (chan : Nat)
  /-- MBOX_RELEASE (R460). The owner's write of MBOX_CTRL.RELEASE clears DATA and STATUS and frees the channel. -/
  | mboxRelease (f chan : Nat)
  /-- MBOX_CLAIM (R459). A function's first write to a free channel claims it. -/
  | mboxClaim (f chan w v : Nat)
  /-- MBOX_TIMEOUT (R462). MBOX_CFG.TIMEOUT passes after GO and the request is abandoned with TIMEOUT. -/
  | mboxTimeout (chan : Nat)
  /-- VERSION (R463). The firmware command VERSION returns the image, ROM and behaviour-level versions. -/
  | version (chan : Nat)
  /-- IF0_CTX (R464). The firmware command IF0_CTX copies an ASID or function context entry for IF0 and reloads it. -/
  | if0Ctx (chan : Nat)
  /-- LOG_READ (R494). The firmware command LOG_READ returns one error-log entry and LOG_COUNT. -/
  | logRead (chan : Nat)
  /-- FW_STAGE (R494). The firmware command FW_STAGE verifies and writes an image into the slot not running. -/
  | fwStage (chan : Nat) (r : ReadData)
  /-- FW_ACTIVATE (R495). The firmware command FW_ACTIVATE starts activation of the staged image. -/
  | fwActivate (chan : Nat)
  /-- FW_COMMIT (R494). The firmware command FW_COMMIT makes the running slot the boot slot and raises the fuse SVN counter. -/
  | fwCommit (chan : Nat)
  /-- FW_ACTIVATION_DONE (R495). The new image reaches step 4, sets RUNNING and clears ACTIVATING. -/
  | fwActivationDone
  /-- FW_ACTIVATION_ROLLBACK (R496). 2 s pass without the new image ready and the ROM restarts the previous image with ROLLED_BACK set. -/
  | fwActivationRollback
  /-- LOCKSTEP_MISMATCH (R457). The management cores' checker finds a mismatch and the management island restarts alone. -/
  | lockstepMismatch
  /-- MGMT_WATCHDOG (R480). The management firmware's watchdog sees 1 s without progress and restarts the management island. -/
  | mgmtWatchdog
  /-- MGMT_RELOAD_DONE (R457). The restarted management island has reloaded its firmware and READY_MAP.MGMT sets. -/
  | mgmtReloadDone
  /-- SB_HELP (R467). The monitor command HELP lists the commands. -/
  | sbHelp
  /-- SB_VER (R467). The monitor command VER prints versions, ordering code and serial number. -/
  | sbVer
  /-- SB_RD (R467). The monitor command RD reads 1 to 256 words without clearing RC fields. -/
  | sbRd (off count : Nat)
  /-- SB_WR (R467). The gated monitor command WR writes one word as PF0. -/
  | sbWr (off v : Nat)
  /-- SB_MAP (R467). The monitor command MAP prints UNITS_PRESENT, READY_MAP and ISLAND_READY. -/
  | sbMap
  /-- SB_ERR (R467). The monitor command ERR prints error records and counts. -/
  | sbErr (unit : Option Nat)
  /-- SB_CNT (R467). The monitor command CNT prints a Photo finish bank with its flags. -/
  | sbCnt (bank : Nat)
  /-- SB_PHOTO (R467). The gated monitor command PHOTO arms a snapshot bank. -/
  | sbPhoto (bank : Nat) (after : Bool) (t : Nat)
  /-- SB_LOG (R467). The monitor command LOG prints the last error-log entries. -/
  | sbLog (n : Option Nat)
  /-- SB_CON (R467). The monitor command CON prints a tile's service console ring. -/
  | sbCon (tile : Nat)
  /-- SB_RESET (R467). The gated monitor command RESET resets a queue, function, engine, tile, or the device warm or cold. -/
  | sbReset (what : SbReset)
  /-- SB_BAUD (R465). The monitor command BAUD changes the UART rate after the OK line. -/
  | sbBaud (rate : Nat)
  /-- SB_UNLOCK (R468). The monitor command UNLOCK prints a nonce or checks a signed token to unlock gated commands. -/
  | sbUnlock (arg : Option (List Byte × Nat))
  /-- SB_LOCK (R468). The monitor command LOCK ends an unlock. -/
  | sbLock
  /-- UNLOCK_EXPIRY (R468). An unlock's minutes pass and it ends. -/
  | unlockExpiry
  /-- UNLOCK_LOCKOUT_END (R468). 60 s after three rejected tokens UNLOCK is accepted again. -/
  | unlockLockoutEnd
  /-- PROGRESS_WINDOW_EXPIRY (R480). A unit with pending work sees no progress for PROG_WINDOW and is declared hung and reset. -/
  | progressWindowExpiry (unit : HangUnit)
  /-- RESET_BOUND_EXPIRY (R478). A reset does not report done within its bound and escalates to the next wider level. -/
  | resetBoundExpiry (level tile engine target : Nat)
  /-- UNCORRECTABLE_RAM_ERROR (R474). An uncorrectable internal RAM error is recorded and starts a reset of its engine, tile or device. -/
  | uncorrectableRamError (island engine ram : Nat)
  /-- D2D_LINK_ERROR (R474). An uncorrectable die-to-die link error is recorded and starts a warm reset. -/
  | d2dLinkError (island : Nat)
  /-- ENG_RESET_GO (R484). A write of ENG_RESET.GO resets one engine of a tile, or the tile for ENGINE 7. -/
  | engResetGo (tile engine : Nat)
  /-- QUEUE_RESET_GO (R484). A write of QUEUE_RESET.GO starts a Q reset of the named queue. -/
  | queueResetGo (sq : Nat)
  /-- RESET_DONE (R485). A Q, E or T reset's writes are acknowledged, its entries complete and the domain is ready again. -/
  | resetDone (level tile engine target : Nat)
  /-- RESET_CTRL_WARM (R487). A write of RESET_CTRL.WARM with KEY 0xC0DE starts a warm reset. -/
  | resetCtrlWarm (key : Nat)
  /-- RESET_CTRL_COLD (R484). A write of RESET_CTRL.COLD with KEY 0xC0DE starts a cold reset. -/
  | resetCtrlCold (key : Nat)
  /-- PERST_N_ASSERT (R489). PERST_N is asserted and starts a warm reset or host link loss by PERST_WARM. -/
  | perstNAssert
  /-- PERST_N_DEASSERT (R487). PERST_N deasserts and the held warm reset proceeds from step 3. -/
  | perstNDeassert
  /-- HOST_HB (R489). A write of HOST_HB restarts the host heartbeat window. -/
  | hostHb
  /-- HB_WINDOW_EXPIRY (R489). HB_WINDOW ms pass without a HOST_HB write and host link loss occurs. -/
  | hbWindowExpiry
  /-- HOST_DL_DOWN (R489). The host port's data link layer stays down for 1 ms and host link loss occurs. -/
  | hostDlDown
  /-- HOST_HOT_RESET (R549). A Hot Reset or Link Disable on the host port causes host link loss at once. -/
  | hostHotReset
  /-- HOST_LINK_RETURN (R490). The host link returns, HOST_UP sets and IF0 gets a message. -/
  | hostLinkReturn (speed width : Nat) (flit : Bool)
  /-- PHOTO_ARM (R491). A write of PHOTO_CTRL.ARM0 or ARM1 arms that bank for its T and mask. -/
  | photoArm (bank : Nat)
  /-- PHOTO_TIME (R65). PTP time reaches T and each participating unit copies its counters into the bank. -/
  | photoTime (bank : Nat) (late : List Nat)
  /-- PHOTO_LATE_COPY (R68). A unit receives the arming after T, copies at once and sets its late flag. -/
  | photoLateCopy (bank unit : Nat)
  /-- EVAC_GO_EVACUATE (R497). A write of EVAC_CTRL.GO with MODE 0 starts evacuating tile SRC onto DST. -/
  | evacGoEvacuate (src dst : Nat)
  /-- EVAC_GO_RETURN (R499). A write of EVAC_CTRL.GO with MODE 1 returns an evacuated tile to service. -/
  | evacGoReturn (src dst : Nat)
  /-- EVAC_DRAIN_EXPIRY (R497). EVAC_DRAIN passes and work still running on the source tile is ended as by an engine reset. -/
  | evacDrainExpiry
  /-- EVAC_BLOCK_MOVED (R497). A block's connections are spilled and its steering entry rewritten, and the next block or step follows. -/
  | evacBlockMoved
  /-- BEHAV_LEVEL_NEXT_WRITE (R556). PF0's write of BEHAV_LEVEL.NEXT is stored in the board configuration in flash. -/
  | behavLevelNextWrite (f v : Nat)
  /-- BEHAV_LEVEL_STORE_DONE (R556). The flash store of the board configuration completes and BUSY clears. -/
  | behavLevelStoreDone
  /-- PWR_OK_ASSERT (R522). PWR_OK asserts, straps are sampled and the ROM bring-up begins. -/
  | pwrOkAssert (ep halves : Nat)
  /-- PWR_OK_DEASSERT (R510). PWR_OK deasserts and the device enters cold reset within 10 µs. -/
  | pwrOkDeassert
  /-- FIRMWARE_VERIFIED (R522). The boot firmware is verified and started and every present island is started. -/
  | firmwareVerified
  /-- UNIT_READY (R17). Every counted island of a unit becomes ready and its READY_MAP bit sets. -/
  | unitReady (unit : Nat) (ok : Bool)
  /-- CLOCK_LOST (R513). A reference clock stops for 2 µs, its LOST bits set and its loss takes effect. -/
  | clockLost (clock : Nat)
  /-- CLOCK_RESTORED (R513). A lost reference returns for 1 ms and normal operation resumes. -/
  | clockRestored (clock : Nat)
  /-- CAP_TICK (R516). Every 1 ms the power-cap controller lowers or raises one island class by 100 MHz. -/
  | capTick (avg : Nat)
  /-- THERMAL_STEP (R518). Every 100 µs thermal throttling steps tile clocks down or up by sensor reading. -/
  | thermalStep (temps : List Nat)
  /-- THERMAL_TRIP (R519). A sensor reaches TRIP and islands are held in reset and THERMTRIP_N goes low. -/
  | thermalTrip (reading : Nat)
  /-- PWR_CAP_MCTP_WRITE (R517). The board management controller's PWR_CAP write over MCTP applies at the next tick. -/
  | pwrCapMctpWrite (v : Nat)
  /-- PWR_CTRL_STANDBY (R526). A write of PWR_CTRL.STANDBY with KEY 0x57BD enters standby or is refused. -/
  | pwrCtrlStandby (key : Nat)
  /-- WAKE_RESTORE (R527). After a wake, PWR_OK with good rails runs bring-up from step 3 for every island. -/
  | wakeRestore
  /-- ACCEL_LINK_LOSS (R550). An accelerator port or sublink is lost and its outstanding requests and waiting work are failed. -/
  | accelLinkLoss (n sub : Nat)
  /-- ACCEL_LINK_UP (R539). A root port link comes up and discovery of DMWr and AtomicOp support runs. -/
  | accelLinkUp (n sub speed width : Nat) (flit : Bool)
  /-- DISCOVERY_DONE (R539). Root port discovery finishes and sets the USE bits. -/
  | discoveryDone (n sub : Nat) (cplDmwr routeDmwr cplAtomic routeAtomic : Bool)
  /-- ACC_PORT_RESCAN (R539). A write of ACC_PORT_CTRL.RESCAN reruns discovery on the root port. -/
  | accPortRescan (n : Nat)
  /-- DPC_RELEASE (R545). A write of ACC_PORT_CTRL.DPC_RELEASE releases DPC containment. -/
  | dpcRelease (n : Nat)
  /-- ERR_FATAL_RECEIVED (R545). An ERR_FATAL from below a root port triggers DPC and link loss. -/
  | errFatalReceived (n sub : Nat)
  /-- AER_MESSAGE_RECEIVED (R545). An uncorrectable error reported from below a root port is recorded and raises an event. -/
  | aerMessageReceived (n sub : Nat)
  /-- ACC_CFG_DATA_ACCESS (R533). A read or write of ACC_CFG_DATA issues one configuration request below the root port. -/
  | accCfgDataAccess (n : Nat) (write answer : Option Nat)
  /-- INBOUND_DOORBELL_WRITE (R533). An inbound write into ACC_DB acts as a doorbell write of ACC_DB.FUNC. -/
  | inboundDoorbellWrite (n sub addr : Nat) (whole dmwr : Bool) (v : Nat)
  /-- INBOUND_REQUEST_DISCARD (R533). Another inbound request on a root port completes with UR or is discarded and counted. -/
  | inboundRequestDiscard (n sub : Nat) (posted : Bool)
  /-- ACK_HOLD_EXPIRY (R541). PCIE_ACK_CFG.HOLD ns pass since an entry began to wait and one acknowledging request is issued. -/
  | ackHoldExpiry (p : Path)
  /-- DMWR_COMPLETION (R41). A DMWr completes successfully and acknowledges every earlier write on its path. -/
  | dmwrCompletion (p : Path)
  /-- DMWR_RETRY_STATUS (R42). A DMWr returns Memory Request Retry Status and is resent, or the fourth in a row falls back to read-back. -/
  | dmwrRetryStatus (p : Path)
  /-- READBACK_COMPLETION (R42). A read-back completes and serves as the destination acknowledgement. -/
  | readbackCompletion (p : Path)
  /-- ACK_REQUEST_FAILURE (R43). An acknowledging request fails and its entry ends ST_BUS_ERROR, clearing USE bits on UR. -/
  | ackRequestFailure (p : Path) (dmwr : Bool) (why : BusFail)
  /-- COMPLETION_TIMEOUT (R43). A PCIe non-posted request's completion timeout expires and the request fails. -/
  | completionTimeout (p : Path) (q : PcieReq)
  /-- SOURCE_READ_COMPLETION (R27). A memory read for an entry's source data returns, poisoned or not. -/
  | sourceReadCompletion (q : SourceReq) (ecc : List (Nat × Ecc)) (r : ReadData)
  /-- DOMAIN_DOWN_RESPONSE (R19). A transfer to an island in reset or powered down receives a domain-down response within 2 µs. -/
  | domainDownResponse (q : PcieReq)
  /-- SPDM_GET_VERSION (R546). The SPDM responder answers GET_VERSION. -/
  | spdmGetVersion (mailbox : Nat) (accepted : Bool) (body : List Byte)
  /-- SPDM_GET_CAPABILITIES (R546). The SPDM responder answers GET_CAPABILITIES. -/
  | spdmGetCapabilities (mailbox : Nat) (accepted : Bool) (body : List Byte)
  /-- SPDM_NEGOTIATE_ALGORITHMS (R546). The SPDM responder answers NEGOTIATE_ALGORITHMS. -/
  | spdmNegotiateAlgorithms (mailbox : Nat) (accepted : Bool) (body : List Byte)
  /-- SPDM_GET_DIGESTS (R546). The SPDM responder answers GET_DIGESTS. -/
  | spdmGetDigests (mailbox : Nat) (accepted : Bool) (body : List Byte)
  /-- SPDM_GET_CERTIFICATE (R546). The SPDM responder returns the slot 0 certificate chain. -/
  | spdmGetCertificate (mailbox : Nat) (accepted : Bool) (body : List Byte)
  /-- SPDM_CHALLENGE (R546). The SPDM responder answers CHALLENGE with a signature. -/
  | spdmChallenge (mailbox : Nat) (accepted : Bool) (body : List Byte)
  /-- SPDM_GET_MEASUREMENTS (R547). The SPDM responder returns the signed measurement blocks. -/
  | spdmGetMeasurements (mailbox : Nat) (accepted : Bool) (body : List Byte)
  /-- JTAG_INSTRUCTION_LOAD (R578). An instruction loaded into the test access port takes effect, taking links down for boundary-scan instructions. -/
  | jtagInstructionLoad (jtag : Jtag)
  /-- RC_COUNTER_READ (R12). A read of an RC field returns the value and clears it in the same access. -/
  | rcCounterRead (f : Nat) (bar2 : Bool) (addr size : Nat)
  /-- REGISTER_WRITE (R12). A write to a register field without a row of its own applies by its access code, range and lock. -/
  | registerWrite (f : Nat) (bar2 : Bool) (addr size v : Nat)
  /-- CONTROLLER_ACCEPTANCE (R38). The landing-memory controller accepts an entry's last write, which is both port and destination acknowledgement, and the entry may complete. -/
  | controllerAcceptance
  /-- PORT_ACKNOWLEDGEMENT (R38). An entry's last write has been transmitted on its PCIe path behind every earlier write, so a SCOPE 1 entry without BARRIER may complete. -/
  | portAcknowledgement (p : Path)
  /-- STANDBY_ENTRY_DONE (R526). Standby entry finishes its port-0 retrain and power-down, PWR_STBY_N goes low and PWR_STATUS.STANDBY sets, starting any wake recorded meanwhile. -/
  | standbyEntryDone
  /-- REGULATOR_STATUS (R509). The AVSBus regulator reports that a tile's voltage has reached the request, and the IX9 then raises that tile's clock. -/
  | regulatorStatus (tile : Nat)
  /-- ETH_LINK_UP (R255). An Ethernet port finishes auto-negotiation and training, and ETH_STATUS.UP and AN_DONE set. -/
  | ethLinkUp (port : Nat)
  /-- CONFIGURATION_REQUEST (R522). A PCIe Configuration Request from the host is answered with Request Retry Status until the host port is ready, and completed normally afterwards. -/
  | configurationRequest (f : Nat) (r : CfgReq)
  /-- DYNAMIC_ADDRESS_ASSIGNMENT (R577). An I3C ENTDAA or SETDASA command gives the I3C target its dynamic address. -/
  | dynamicAddressAssignment (static_ : Option Nat) (addr : Nat)
  deriving DecidableEq, Repr

end Sys2Proof
end

