-- ==== Sys2Proof/WellFormed.lean ====
section
/-!
DEFINITION. Well-formed commands: every operand lies in the range its field has on the hardware. The meanings are total and
do not ask for it; a command outside names no register, port, queue or packet that exists.
-/

namespace Sys2Proof

/-- A function id (R430): a PF, IF0 or a VF. -/
def funcIdOk (f : Nat) : Bool := f < 5 || (0x10 ≤ f && f < 0x400)

/-- A native packet as R234 lays it out. -/
def packetOk (k : Packet) : Bool :=
  k.dst < 2 ^ 17 && k.src < 2 ^ 17 && k.intm < 2 ^ 17 && k.lane < 8 && k.typ < 32 && k.ecn < 4 && k.epoch < 2
    && k.conn < 2 ^ 24 && k.psn < 2 ^ 24 && k.birth < 2 ^ 16 && k.srcConn < 2 ^ 24
    && k.payload.length ≤ 8192

/-- A RoCEv2-compatible packet as R260 and R261 lay it out. -/
def roceOk (r : Roce) : Bool := r.port < 16 && r.lane < 8 && r.ecn < 4 && r.op < 2 ^ 8 && r.destQp < 2 ^ 24 && r.psn < 2 ^ 24

def pktOk : Pkt → Bool
  | .native k => packetOk k
  | .roce r => roceOk r

/-- A path that a device can have (R38, R535). -/
def pathOk : Path → Bool
  | .accel n sub => n < 4 && sub < 2
  | _ => true

/-- The operands of a command that have a range, each with the first number beyond it (DESIGN CHOICE, log entry 56). -/
def Instr.ranges : Instr → List (Nat × Nat)
  | .sqDoorbellWrite f db _ v => [(f, 0x400), (db, 2 ^ 16), (v, 2 ^ 64)]
  | .cqDoorbellWrite f db _ v => [(f, 0x400), (db, 2 ^ 16), (v, 2 ^ 64)]
  | .eqDoorbellWrite f db _ v => [(f, 0x400), (db, 2 ^ 16), (v, 2 ^ 64)]
  | .fqDoorbellWrite f db _ v => [(f, 0x400), (db, 2 ^ 16), (v, 2 ^ 64)]
  | .fetchReadReturn sq _ => [(sq, 0x10400)]
  | .phaseReread sq => [(sq, 0x10400)]
  | .queueErrorCompletion sq => [(sq, 0x10400)]
  | .arbitrate tile => [(tile, 4)]
  | .modTimeExpiry cq => [(cq, 0x10400)]
  | .adminEnable f => [(f, 0x400)]
  | .adminDisable f => [(f, 0x400)]
  | .opSend sq _ => [(sq, 0x10400)]
  | .opWrite sq _ => [(sq, 0x10400)]
  | .opWriteImm sq _ => [(sq, 0x10400)]
  | .opRead sq _ => [(sq, 0x10400)]
  | .opFetchAdd sq _ => [(sq, 0x10400)]
  | .opCmpSwap sq _ => [(sq, 0x10400)]
  | .opNop sq _ => [(sq, 0x10400)]
  | .opSqCreate sq _ => [(sq, 0x10400)]
  | .opCqCreate sq _ => [(sq, 0x10400)]
  | .opEqCreate sq _ => [(sq, 0x10400)]
  | .opQueueDestroy sq _ => [(sq, 0x10400)]
  | .opQueueModify sq _ => [(sq, 0x10400)]
  | .queueRestart sq _ => [(sq, 0x10400)]
  | .opConnCreate sq _ _ => [(sq, 0x10400)]
  | .opConnModify sq _ _ => [(sq, 0x10400)]
  | .opConnDestroy sq _ => [(sq, 0x10400)]
  | .opPdCreate sq _ => [(sq, 0x10400)]
  | .opPrefetch sq _ => [(sq, 0x10400)]
  | .opAdvise sq _ => [(sq, 0x10400)]
  | .opInvalidate sq _ => [(sq, 0x10400)]
  | .opWindowSet sq _ => [(sq, 0x10400)]
  | .windowQuarantineEnd win => [(win, 2 ^ 24)]
  | .walkDone island asid page _ => [(island, 2), (asid, 2 ^ 20), (page, 2 ^ 64)]
  | .atsTranslationCompletion island asid page _ => [(island, 2), (asid, 2 ^ 20), (page, 2 ^ 64)]
  | .pageRequestGroupResponse island asid page _ => [(island, 2), (asid, 2 ^ 20), (page, 2 ^ 64)]
  | .priTimeout island asid page => [(island, 2), (asid, 2 ^ 20), (page, 2 ^ 64)]
  | .connFillDone e => [(e.conn, 2 ^ 24)]
  | .connSpillDone conn => [(conn, 2 ^ 24)]
  | .connQuarantineEnd conn => [(conn, 2 ^ 24)]
  | .busyHoldEnd conn => [(conn, 2 ^ 24)]
  | .resetBackoffEnd conn => [(conn, 2 ^ 24)]
  | .retransmissionTimerExpiry conn => [(conn, 2 ^ 24)]
  | .ackDelayExpiry conn => [(conn, 2 ^ 24)]
  | .packetSend conn => [(conn, 2 ^ 24)]
  | .pacerPeriod conn => [(conn, 2 ^ 24)]
  | .portPick port => [(port, 16)]
  | .gateEntryBegin port => [(port, 16)]
  | .gateEnable port => [(port, 16)]
  | .gateDisable port => [(port, 16)]
  | .swapReq port => [(port, 16)]
  | .gateSwap port => [(port, 16)]
  | .linkTrainingDone port => [(port, 16)]
  | .initTimer port => [(port, 16)]
  | .initReceived port word => [(port, 16), (word, 2 ^ 64)]
  | .creditReceived port word => [(port, 16), (word, 2 ^ 64)]
  | .creditTimer port => [(port, 16)]
  | .lackReceived port word => [(port, 16), (word, 2 ^ 64)]
  | .lackTimer port => [(port, 16)]
  | .lnakReceived port word => [(port, 16), (word, 2 ^ 64)]
  | .linkPacketReceived port _ _ => [(port, 16)]
  | .linkWordTimeout port => [(port, 16)]
  | .pcsBlockLockLoss port => [(port, 16)]
  | .linkCfgNativeWrite port _ => [(port, 16)]
  | .nativePacketRoute port lane => [(port, 16), (lane, 8)]
  | .pairCountTimeout pair => [(pair, 2 ^ 16)]
  | .fabEpochCurWrite epoch => [(epoch, 2)]
  | .ethFrameReceived port _ => [(port, 16)]
  | .ethGrpModeWrite group _ => [(group, 2)]
  | .pfcFrameReceived port prios _ => [(port, 16), (prios, 2 ^ 8)]
  | .pfcPauseExpiry port lane => [(port, 16), (lane, 8)]
  | .pfcRepeatTimer port lane => [(port, 16), (lane, 8)]
  | .preemptVerifyTimer port => [(port, 16)]
  | .fecWindowEnd group _ => [(group, 2)]
  | .laneLockLoss group lane => [(group, 2), (lane, 8)]
  | .ethSpareReq group lane => [(group, 2), (lane, 8)]
  | .spareAdaptDone group => [(group, 2)]
  | .laneShedWindow port _ _ => [(port, 16)]
  | .lsRetrainDone port => [(port, 16)]
  | .ethTsPop port => [(port, 16)]
  | .opAllReduce sq _ => [(sq, 0x10400)]
  | .opReduceScatter sq _ => [(sq, 0x10400)]
  | .opAllGather sq _ => [(sq, 0x10400)]
  | .opReduce sq _ => [(sq, 0x10400)]
  | .opBroadcast sq _ => [(sq, 0x10400)]
  | .opAllToAll sq _ => [(sq, 0x10400)]
  | .opAllToAllv sq _ => [(sq, 0x10400)]
  | .opGroupBarrier sq _ => [(sq, 0x10400)]
  | .opGroupSet sq _ _ => [(sq, 0x10400)]
  | .abortRepeatTimer _ epoch seq => [(epoch, 2 ^ 8), (seq, 2 ^ 16)]
  | .queryRepeatTimer _ epoch seq => [(epoch, 2 ^ 8), (seq, 2 ^ 16)]
  | .decisionHoldExpiry _ epoch seq => [(epoch, 2 ^ 8), (seq, 2 ^ 16)]
  | .mcRepairTimer _ epoch seq _ => [(epoch, 2 ^ 8), (seq, 2 ^ 16)]
  | .lapWindowExpiry _ epoch seq lap => [(epoch, 2 ^ 8), (seq, 2 ^ 16), (lap, 2 ^ 16)]
  | .opAttBlockTable sq _ _ => [(sq, 0x10400)]
  | .opAttDecode sq _ => [(sq, 0x10400)]
  | .opAttPrefill sq _ => [(sq, 0x10400)]
  | .maraIslandDone _ island => [(island, 4)]
  | .scatterHeaderReceived _ seq peer _ => [(seq, 2 ^ 16), (peer, 2 ^ 16)]
  | .rowReq stack => [(stack, 4)]
  | .rowSpareCopyDone stack _ _ _ => [(stack, 4)]
  | .postPackageRepairDone stack _ _ => [(stack, 4)]
  | .pinReq stack => [(stack, 4)]
  | .pinSteerCopyDone stack _ => [(stack, 4)]
  | .opCopy sq _ => [(sq, 0x10400)]
  | .opFill sq _ => [(sq, 0x10400)]
  | .opChainStart sq _ => [(sq, 0x10400)]
  | .descriptorReadReturn chan _ => [(chan, 2 ^ 7)]
  | .descriptorEnd chan => [(chan, 2 ^ 7)]
  | .requestLinePulse line => [(line, 50)]
  | .dreqEdge pin _ => [(pin, 16)]
  | .strideBurstStart chan => [(chan, 2 ^ 7)]
  | .stridePause f chan _ => [(f, 0x400), (chan, 2 ^ 7)]
  | .strideResume f chan _ => [(f, 0x400), (chan, 2 ^ 7)]
  | .strideStop f chan _ => [(f, 0x400), (chan, 2 ^ 7)]
  | .pausingDone chan => [(chan, 2 ^ 7)]
  | .sealCommand chan => [(chan, 2 ^ 6)]
  | .opKeyBind sq _ _ => [(sq, 0x10400)]
  | .opKeyRotate sq _ => [(sq, 0x10400)]
  | .opKeyRetire sq _ => [(sq, 0x10400)]
  | .vaultKeyFetchDone tile conn dir epoch _ => [(tile, 4), (conn, 2 ^ 24), (dir, 3), (epoch, 2 ^ 8)]
  | .tagFailCountExpiry conn => [(conn, 2 ^ 24)]
  | .opQuotaSet sq _ => [(sq, 0x10400)]
  | .opQuotaGet sq _ => [(sq, 0x10400)]
  | .funcResetGo id => [(id, 0x400)]
  | .pcieFlr f => [(f, 0x400)]
  | .vfEnableClear pf => [(pf, 4)]
  | .funcResetDone f => [(f, 0x400)]
  | .svcRestart islands => [(islands, 2 ^ 4)]
  | .hartLandingAccess hart _ _ _ _ => [(hart, 32)]
  | .excTxProdWrite v => [(v, 2 ^ 32)]
  | .mboxGo f chan target _ => [(f, 0x400), (chan, 2 ^ 6), (target, 4)]
  | .mboxRespond _ chan => [(chan, 2 ^ 6)]
  | .mboxRelease f chan => [(f, 0x400), (chan, 2 ^ 6)]
  | .mboxClaim f chan w v => [(f, 0x400), (chan, 2 ^ 6), (w, 17), (v, 2 ^ 32)]
  | .mboxTimeout chan => [(chan, 2 ^ 6)]
  | .version chan => [(chan, 2 ^ 6)]
  | .if0Ctx chan => [(chan, 2 ^ 6)]
  | .logRead chan => [(chan, 2 ^ 6)]
  | .fwStage chan _ => [(chan, 2 ^ 6)]
  | .fwActivate chan => [(chan, 2 ^ 6)]
  | .fwCommit chan => [(chan, 2 ^ 6)]
  | .sbCnt bank => [(bank, 2)]
  | .sbPhoto bank _ _ => [(bank, 2)]
  | .sbCon tile => [(tile, 4)]
  | .resetBoundExpiry level tile engine _ => [(level, 7), (tile, 4), (engine, 8)]
  | .uncorrectableRamError island engine _ => [(island, 38), (engine, 8)]
  | .d2dLinkError island => [(island, 38)]
  | .engResetGo tile engine => [(tile, 4), (engine, 8)]
  | .queueResetGo sq => [(sq, 0x10400)]
  | .resetDone level tile engine _ => [(level, 7), (tile, 4), (engine, 8)]
  | .resetCtrlWarm key => [(key, 2 ^ 16)]
  | .resetCtrlCold key => [(key, 2 ^ 16)]
  | .photoArm bank => [(bank, 2)]
  | .photoTime bank _ => [(bank, 2)]
  | .photoLateCopy bank unit => [(bank, 2), (unit, 25)]
  | .behavLevelNextWrite f v => [(f, 0x400), (v, 2 ^ 8)]
  | .unitReady unit _ => [(unit, 25)]
  | .clockLost clock => [(clock, 5)]
  | .clockRestored clock => [(clock, 5)]
  | .pwrCapMctpWrite v => [(v, 2 ^ 32)]
  | .pwrCtrlStandby key => [(key, 2 ^ 16)]
  | .accelLinkLoss n sub => [(n, 4), (sub, 2)]
  | .accelLinkUp n sub _ _ _ => [(n, 4), (sub, 2)]
  | .discoveryDone n sub _ _ _ _ => [(n, 4), (sub, 2)]
  | .accPortRescan n => [(n, 4)]
  | .dpcRelease n => [(n, 4)]
  | .errFatalReceived n sub => [(n, 4), (sub, 2)]
  | .aerMessageReceived n sub => [(n, 4), (sub, 2)]
  | .accCfgDataAccess n _ _ => [(n, 4)]
  | .inboundDoorbellWrite n sub addr _ _ v => [(n, 4), (sub, 2), (addr, 2 ^ 64), (v, 2 ^ 64)]
  | .inboundRequestDiscard n sub _ => [(n, 4), (sub, 2)]
  | .spdmGetVersion mailbox _ _ => [(mailbox, 9)]
  | .spdmGetCapabilities mailbox _ _ => [(mailbox, 9)]
  | .spdmNegotiateAlgorithms mailbox _ _ => [(mailbox, 9)]
  | .spdmGetDigests mailbox _ _ => [(mailbox, 9)]
  | .spdmGetCertificate mailbox _ _ => [(mailbox, 9)]
  | .spdmChallenge mailbox _ _ => [(mailbox, 9)]
  | .spdmGetMeasurements mailbox _ _ => [(mailbox, 9)]
  | .rcCounterRead f _ _ _ => [(f, 0x400)]
  | .registerWrite f _ _ _ v => [(f, 0x400), (v, 2 ^ 64)]
  | .regulatorStatus tile => [(tile, 4)]
  | .ethLinkUp port => [(port, 16)]
  | .configurationRequest f _ => [(f, 0x400)]
  | .dynamicAddressAssignment _ addr => [(addr, 2 ^ 7)]
  | _ => []

/-- The function that a command names. -/
def Instr.func : Instr → Nat
  | .sqDoorbellWrite f _ _ _ => f
  | .cqDoorbellWrite f _ _ _ => f
  | .eqDoorbellWrite f _ _ _ => f
  | .fqDoorbellWrite f _ _ _ => f
  | .adminEnable f => f
  | .adminDisable f => f
  | .stridePause f _ _ => f
  | .strideResume f _ _ => f
  | .strideStop f _ _ => f
  | .pcieFlr f => f
  | .funcResetDone f => f
  | .mboxGo f _ _ _ => f
  | .mboxRelease f _ => f
  | .mboxClaim f _ _ _ => f
  | .behavLevelNextWrite f _ => f
  | .rcCounterRead f _ _ _ => f
  | .registerWrite f _ _ _ _ => f
  | .configurationRequest f _ => f
  | _ => 0

/-- The packet or the path of a command is formed as its layout asks. -/
def Instr.bodyOk : Instr → Bool
  | .requestPacketReceived p => pktOk p
  | .ackReceived p => pktOk p
  | .atomicAckReceived p => pktOk p
  | .readRespReceived p => pktOk p
  | .nakSeqReceived p => pktOk p
  | .busyReceived p => pktOk p
  | .resettingReceived p => pktOk p
  | .nakFatalReceived p => pktOk p
  | .abortReceived p => pktOk p
  | .cnpReceived p => pktOk p
  | .linkPacketReceived _ _ k => packetOk k
  | .heatCreditReceived k => packetOk k
  | .heatAbortReceived k => packetOk k
  | .finishUpReceived k => packetOk k
  | .releaseReceived k => packetOk k
  | .queryReceived k => packetOk k
  | .markReceived k => packetOk k
  | .repairReceived k => packetOk k
  | .ackHoldExpiry p => pathOk p
  | .dmwrCompletion p => pathOk p
  | .dmwrRetryStatus p => pathOk p
  | .readbackCompletion p => pathOk p
  | .ackRequestFailure p _ _ => pathOk p
  | .completionTimeout p _ => pathOk p
  | .portAcknowledgement p => pathOk p
  | _ => true

/-- The command is well formed. -/
def wellFormed (i : Instr) : Bool := i.ranges.all (fun x => x.1 < x.2) && funcIdOk i.func && i.bodyOk

end Sys2Proof
end

