-- ==== Sys2Proof/Decode.lean ====
section
/-!
DEFINITION. The decoder of a table word. No row of spec/opcode_table.json gives bits: the IX9 takes no instruction words, so
there is no row to decode, and every word is rejected. The words it does take, submission entries and packets, are read by the
commands that bring them.
-/

namespace Sys2Proof

/-- The command that a word spells by the table's bits: none, since no row has bits. -/
def decodeTableWord (nbits w : Nat) : Option Instr :=
  match nbits, w with
  | _, _ => none

end Sys2Proof
end

