-- ==== Sys2Proof/Config.lean ====
section
/-!
DEFINITION. The values the spec leaves open and the functions outside standards give: constants with no body, so that
nothing proved here can rest on a value of them (DESIGN CHOICE, log entries 3 and 7).
-/

namespace Sys2Proof.Config

/-- The free values: the value of the n-th draw. The counter is `Ix9.freeCtr` (DESIGN CHOICE, log entry 3). -/
opaque freeNat : Nat → Nat

/-- The completion and event queue numbers and the submission queue number an admin queue reports: the spec assigns
global numbers to created queues only (DESIGN CHOICE, log entry 3). -/
opaque adminSqId : Nat → Nat
opaque adminCqId : Nat → Nat
opaque adminEqId : Nat → Nat

/-- exp_ix9 of R316: a fixed function that the spec does not give; binary32 bits to binary32 bits (DESIGN CHOICE, log entry 7). -/
opaque expIx9 : Nat → Nat

/-- AES-256-GCM encryption: key, nonce, associated data, plaintext; ciphertext (R412, log entry 7). -/
opaque aeadSeal : (key nonce : Nat) → (aad plain : List Byte) → List Byte
/-- The 16-byte tag of the same. -/
opaque aeadTag : (key nonce : Nat) → (aad plain : List Byte) → Nat
/-- AES-256-GCM decryption; the tag check is `aeadCheck`. -/
opaque aeadOpen : (key nonce : Nat) → (aad cipher : List Byte) → List Byte
opaque aeadCheck : (key nonce : Nat) → (aad cipher : List Byte) → (tag : Nat) → Bool
/-- AES-256-CMAC, the PRF of the key derivation of R409: key and message; 16 bytes as a big-endian number. -/
opaque aesCmac : (key : Nat) → (msg : List Byte) → Nat
/-- AES-KW (R408): the 40 bytes that wrap a 256-bit key, and the key where the integrity check passes. -/
opaque aesKw : (key plain : Nat) → List Byte
opaque aesKwOpen : (key : Nat) → (wrapped : List Byte) → Option Nat
/-- Signatures and hashes (R468, R521, R546). -/
opaque sign : (what : List Byte) → List Byte
opaque verify : (keyHash : Nat) → (what signature : List Byte) → Bool
opaque hash : List Byte → Nat
/-- Contents that the spec names and does not give: certificate chains, version texts, discovery bytes. -/
opaque text : Nat → List Byte


/-- Bank and row of a physical landing address inside its channel, and the bank's and row's units (R363: not visible;
DESIGN CHOICE, log entry 7). -/
opaque lmBank : (code pa : Nat) → Nat
opaque lmRow : (code pa : Nat) → Nat

end Sys2Proof.Config
end

