-- ==== Sys2Proof/Machine/RegTable.lean ====
section
/-!
DEFINITION. The register fields of the IX9: one definition per field of the register tables of the spec,
which says where the field lies (R561), its bits, its access code (R12), its reset value and the narrowest
domain whose reset restores it (R14), and the range a written value must lie in (R582).
-/

namespace Sys2Proof.Machine

/-- Access codes of R12. -/
inductive Acc where
  | rw | ro | wo | w1c | w1s | rc | rwl
  deriving DecidableEq, Repr

/-- Reset domains of R13, narrowest first. -/
inductive Dom where
  | queue | func | engine | tile | warm | cold
  deriving DecidableEq, Repr

/-- How wide a domain is (R13). -/
def Dom.rank : Dom → Nat
  | .queue => 0 | .func => 1 | .engine => 2 | .tile => 3 | .warm => 4 | .cold => 5

/-- Where the register of a field lies (R561). The instance number of a field counts along the place:
functions, set-up blocks, ports, channels and so on. -/
inductive Place where
  /-- PF0's global set-up space: `count` copies from `base`, `stride` bytes apart. -/
  | glob (base stride count : Nat)
  /-- Every function's own register space; instance: function id. -/
  | func (off : Nat)
  /-- The register space of each PF and of IF0 (R102); instance: function id. -/
  | admin (off : Nat)
  /-- PF0's register space only. -/
  | pfz (off : Nat)
  /-- IF0's window only. -/
  | ifz (off : Nat)
  /-- A port block (R225); instance: network port 0 to 15. -/
  | port (off : Nat)
  /-- An array inside a port block; instance: port * 4096 + element. -/
  | portArr (off stride count : Nat)
  /-- Per network lane of a group (R278); instance: group * 16 + lane. -/
  | lane (off : Nat)
  /-- A Stride channel: the set-up copy and the owner's view (R405); instance: channel. -/
  | chan (off : Nat)
  /-- A mailbox channel (R458); instance: channel. -/
  | mbox (off : Nat)
  /-- The data words of a mailbox channel; instance: channel * 16 + word. -/
  | mboxData
  /-- A PCIe port (R552); instance 0 the host port, n + 1 accelerator port n. -/
  | pcie (off : Nat)
  /-- A PCIe sublink (R552); instance: port * 2 + sublink. -/
  | pcieSub (off : Nat)
  deriving DecidableEq, Repr

/-- What the register tables say of one field. -/
structure Fld where
  /-- Number of the field: its key in the register file. -/
  id : Nat
  place : Place
  msb : Nat
  lsb : Nat
  acc : Acc
  rst : Nat
  dom : Dom
  /-- R582: a value outside `lo` to `hi` leaves the field unchanged. -/
  lo : Nat
  hi : Nat
  deriving DecidableEq, Repr

def Fld.width (i : Fld) : Nat := i.msb + 1 - i.lsb

namespace Fld

/-- R88 -/
def FETCH_CFG_DB_RETRY : Fld := ⟨0, .glob 0x2007000 0x100000 4, 3, 0, .rw, 8, .warm, 0, 15⟩
/-- R88 -/
def FETCH_CFG_DB_RETRY_INTERVAL : Fld := ⟨1, .glob 0x2007000 0x100000 4, 15, 8, .rw, 25, .warm, 1, 255⟩
/-- R102 -/
def ADMIN_SQ_BASE_ADDR : Fld := ⟨2, .admin 0x1000, 63, 0, .rwl, 0, .func, 0, 2 ^ 64 - 1⟩
/-- R102 -/
def ADMIN_CQ_BASE_ADDR : Fld := ⟨3, .admin 0x1008, 63, 0, .rwl, 0, .func, 0, 2 ^ 64 - 1⟩
/-- R102 -/
def ADMIN_EQ_BASE_ADDR : Fld := ⟨4, .admin 0x1010, 63, 0, .rwl, 0, .func, 0, 2 ^ 64 - 1⟩
/-- R102 -/
def ADMIN_CFG_SQ_LOG2 : Fld := ⟨5, .admin 0x1018, 3, 0, .rwl, 8, .func, 0, 15⟩
/-- R102 -/
def ADMIN_CFG_CQ_LOG2 : Fld := ⟨6, .admin 0x1018, 7, 4, .rwl, 6, .func, 0, 15⟩
/-- R102 -/
def ADMIN_CFG_EQ_LOG2 : Fld := ⟨7, .admin 0x1018, 11, 8, .rwl, 6, .func, 0, 15⟩
/-- R102 -/
def ADMIN_CFG_LOC : Fld := ⟨8, .admin 0x1018, 12, 12, .rwl, 0, .func, 0, 1⟩
/-- R102 -/
def ADMIN_CTRL_ENABLE : Fld := ⟨9, .admin 0x101C, 0, 0, .rw, 0, .func, 0, 1⟩
/-- R102 -/
def ADMIN_STATUS_READY : Fld := ⟨10, .admin 0x1020, 0, 0, .ro, 0, .func, 0, 1⟩
/-- R102 -/
def ADMIN_STATUS_ERR : Fld := ⟨11, .admin 0x1020, 1, 1, .ro, 0, .func, 0, 1⟩
/-- R102 -/
def ADMIN_STATUS_CAUSE : Fld := ⟨12, .admin 0x1020, 15, 8, .ro, 0, .func, 0, 255⟩
/-- R145 -/
def XLATE_ASID_BASE_LOC : Fld := ⟨13, .glob 0x2040000 0 1, 0, 0, .rwl, 0, .warm, 0, 1⟩
/-- R145 -/
def XLATE_ASID_BASE_ADDR : Fld := ⟨14, .glob 0x2040000 0 1, 63, 12, .rwl, 0, .warm, 0, 2 ^ 52 - 1⟩
/-- R145 -/
def XLATE_ASID_CFG_LOG2_ENTRIES : Fld := ⟨15, .glob 0x2040008 0 1, 4, 0, .rwl, 8, .warm, 8, 20⟩
/-- R145 -/
def XLATE_FCTX_BASE_LOC : Fld := ⟨16, .glob 0x2040010 0 1, 0, 0, .rwl, 0, .warm, 0, 1⟩
/-- R145 -/
def XLATE_FCTX_BASE_ADDR : Fld := ⟨17, .glob 0x2040010 0 1, 63, 12, .rwl, 0, .warm, 0, 2 ^ 52 - 1⟩
/-- R145 -/
def XLATE_WIN_BASE_LOC : Fld := ⟨18, .glob 0x2040018 0 1, 0, 0, .rwl, 0, .warm, 0, 1⟩
/-- R145 -/
def XLATE_WIN_BASE_ADDR : Fld := ⟨19, .glob 0x2040018 0 1, 63, 12, .rwl, 0, .warm, 0, 2 ^ 52 - 1⟩
/-- R145 -/
def XLATE_WIN_CFG_LOG2_ENTRIES : Fld := ⟨20, .glob 0x2040020 0 1, 4, 0, .rwl, 8, .warm, 8, 24⟩
/-- R145 -/
def XLATE_INV_CFG_DRAIN_LIMIT : Fld := ⟨21, .glob 0x2040028 0 1, 13, 0, .rw, 100, .warm, 1, 10000⟩
/-- R145 -/
def XLATE_PRI_CFG_TIMEOUT : Fld := ⟨22, .glob 0x204002C 0 1, 15, 0, .rw, 100, .warm, 1, 65535⟩
/-- R145 -/
def XLATE_CTRL_LOCK : Fld := ⟨23, .glob 0x2040030 0 1, 0, 0, .w1s, 0, .warm, 0, 1⟩
/-- R145 -/
def XLATE_WALKS : Fld := ⟨24, .glob 0x2040038 0 1, 31, 0, .rc, 0, .warm, 0, 2 ^ 32 - 1⟩
/-- R145 -/
def XLATE_TC_MISSES : Fld := ⟨25, .glob 0x204003C 0 1, 31, 0, .rc, 0, .warm, 0, 2 ^ 32 - 1⟩
/-- R146 -/
def FAULT_STATUS_OVERFLOW : Fld := ⟨26, .func 0x100, 0, 0, .w1c, 0, .func, 0, 1⟩
/-- R146 -/
def FAULT_LOST : Fld := ⟨27, .func 0x104, 31, 0, .rc, 0, .func, 0, 2 ^ 32 - 1⟩
/-- R148 -/
def CONN_STEER_HOME : Fld := ⟨28, .glob 0x3601000 0x4 256, 1, 0, .ro, 0, .cold, 0, 3⟩
/-- R148 -/
def CONN_STEER_V : Fld := ⟨29, .glob 0x3601000 0x4 256, 2, 2, .ro, 0, .cold, 0, 1⟩
/-- R148 -/
def CONN_STEER_MOVING : Fld := ⟨30, .glob 0x3601000 0x4 256, 3, 3, .ro, 0, .cold, 0, 1⟩
/-- R176 -/
def CONN_SPILL_BASE_ADDR : Fld := ⟨31, .glob 0x2008000 0 1, 63, 12, .rwl, 0, .warm, 0, 2 ^ 52 - 1⟩
/-- R176 -/
def CONN_CFG_BLOCKS : Fld := ⟨32, .glob 0x2008008 0 1, 8, 0, .rwl, 256, .warm, 1, 256⟩
/-- R176 -/
def CONN_MISS_CFG_SHARE : Fld := ⟨33, .glob 0x200800C 0 1, 2, 0, .rw, 3, .warm, 0, 7⟩
/-- R176 -/
def CONN_CTRL_LOCK : Fld := ⟨34, .glob 0x2008010 0 1, 0, 0, .w1s, 0, .warm, 0, 1⟩
/-- R176 -/
def CONN_NO_BLOCK : Fld := ⟨35, .glob 0x2008018 0 1, 31, 0, .rc, 0, .cold, 0, 2 ^ 32 - 1⟩
/-- R177 -/
def CONN_HITS : Fld := ⟨36, .glob 0x2008100 0x100000 4, 31, 0, .rc, 0, .tile, 0, 2 ^ 32 - 1⟩
/-- R177 -/
def CONN_MISSES : Fld := ⟨37, .glob 0x2008104 0x100000 4, 31, 0, .rc, 0, .tile, 0, 2 ^ 32 - 1⟩
/-- R177 -/
def CONN_SPILLS : Fld := ⟨38, .glob 0x2008108 0x100000 4, 31, 0, .rc, 0, .tile, 0, 2 ^ 32 - 1⟩
/-- R177 -/
def CONN_BUSY_SENT : Fld := ⟨39, .glob 0x200810C 0x100000 4, 31, 0, .rc, 0, .tile, 0, 2 ^ 32 - 1⟩
/-- R177 -/
def CONN_BUSY_DISCARDS : Fld := ⟨40, .glob 0x2008110 0x100000 4, 31, 0, .rc, 0, .tile, 0, 2 ^ 32 - 1⟩
/-- R177 -/
def CONN_DEAD_DISCARDS : Fld := ⟨41, .glob 0x2008118 0x100000 4, 31, 0, .rc, 0, .tile, 0, 2 ^ 32 - 1⟩
/-- R177 -/
def CONN_PEER_MISMATCH : Fld := ⟨42, .glob 0x200811C 0x100000 4, 31, 0, .rc, 0, .tile, 0, 2 ^ 32 - 1⟩
/-- R177 -/
def CONN_PINNED : Fld := ⟨43, .glob 0x2008120 0x100000 4, 12, 0, .ro, 0, .tile, 0, 8191⟩
/-- R177 -/
def CONN_MISS_BYTES : Fld := ⟨44, .glob 0x2008124 0x100000 4, 21, 0, .ro, 0, .tile, 0, 2 ^ 22 - 1⟩
/-- R196 -/
def RD_TIMER_RTO_BASE : Fld := ⟨45, .glob 0x2009000 0 1, 15, 0, .rw, 64, .warm, 8, 65535⟩
/-- R196 -/
def RD_TIMER_RETRY_LIMIT : Fld := ⟨46, .glob 0x2009000 0 1, 19, 16, .rw, 7, .warm, 1, 15⟩
/-- R196 -/
def RD_RESET_BACKOFF : Fld := ⟨47, .glob 0x2009004 0 1, 15, 0, .rw, 0x2710, .warm, 100, 65535⟩
/-- R196 -/
def RD_RESET_LIMIT : Fld := ⟨48, .glob 0x2009004 0 1, 23, 16, .rw, 30, .warm, 1, 255⟩
/-- R196 -/
def RD_ACK_COALESCE : Fld := ⟨49, .glob 0x2009008 0 1, 5, 0, .rw, 16, .warm, 1, 63⟩
/-- R196 -/
def RD_ACK_DELAY : Fld := ⟨50, .glob 0x2009008 0 1, 15, 8, .rw, 20, .warm, 1, 255⟩
/-- R196 -/
def RD_BUSY_LIMIT : Fld := ⟨51, .glob 0x200900C 0 1, 7, 0, .rw, 128, .warm, 0, 255⟩
/-- R196 -/
def CONN_QUARANTINE : Fld := ⟨52, .glob 0x2009010 0 1, 15, 0, .rw, 0x7d0, .warm, 1100, 65535⟩
/-- R196 -/
def RD_RESET_SENT : Fld := ⟨53, .glob 0x2009020 0 1, 31, 0, .rc, 0, .cold, 0, 2 ^ 32 - 1⟩
/-- R196 -/
def RD_RESET_DISCARDS : Fld := ⟨54, .glob 0x2009024 0 1, 31, 0, .rc, 0, .cold, 0, 2 ^ 32 - 1⟩
/-- R197 -/
def RD_RETRANS : Fld := ⟨55, .glob 0x2009100 0x100000 4, 31, 0, .rc, 0, .tile, 0, 2 ^ 32 - 1⟩
/-- R197 -/
def RD_TIMEOUTS : Fld := ⟨56, .glob 0x2009104 0x100000 4, 31, 0, .rc, 0, .tile, 0, 2 ^ 32 - 1⟩
/-- R197 -/
def RD_NAK_SENT : Fld := ⟨57, .glob 0x2009108 0x100000 4, 31, 0, .rc, 0, .tile, 0, 2 ^ 32 - 1⟩
/-- R197 -/
def RD_NAK_RCVD : Fld := ⟨58, .glob 0x200910C 0x100000 4, 31, 0, .rc, 0, .tile, 0, 2 ^ 32 - 1⟩
/-- R197 -/
def RD_DUP : Fld := ⟨59, .glob 0x2009110 0x100000 4, 31, 0, .rc, 0, .tile, 0, 2 ^ 32 - 1⟩
/-- R197 -/
def RD_STALE : Fld := ⟨60, .glob 0x2009114 0x100000 4, 31, 0, .rc, 0, .tile, 0, 2 ^ 32 - 1⟩
/-- R197 -/
def RD_AHEAD : Fld := ⟨61, .glob 0x2009118 0x100000 4, 31, 0, .rc, 0, .tile, 0, 2 ^ 32 - 1⟩
/-- R197 -/
def RD_BUSY_RCVD : Fld := ⟨62, .glob 0x200911C 0x100000 4, 31, 0, .rc, 0, .tile, 0, 2 ^ 32 - 1⟩
/-- R197 -/
def RD_RESET_RCVD : Fld := ⟨63, .glob 0x2009120 0x100000 4, 31, 0, .rc, 0, .tile, 0, 2 ^ 32 - 1⟩
/-- R197 -/
def RD_EXPIRED : Fld := ⟨64, .glob 0x2009124 0x100000 4, 31, 0, .rc, 0, .tile, 0, 2 ^ 32 - 1⟩
/-- R197 -/
def RD_GIVEUPS : Fld := ⟨65, .glob 0x2009128 0x100000 4, 31, 0, .rc, 0, .tile, 0, 2 ^ 32 - 1⟩
/-- R221 -/
def LANE_START_WEIGHT : Fld := ⟨66, .glob 0x200A000 0 1, 63, 8, .rw, 0x8203030202040, .warm, 0, 2 ^ 56 - 1⟩
/-- R221 -/
def PACER_CFG_DEC_INTERVAL : Fld := ⟨67, .glob 0x200B000 0 1, 7, 0, .rw, 4, .warm, 0, 255⟩
/-- R221 -/
def PACER_CFG_CNP_INTERVAL : Fld := ⟨68, .glob 0x200B000 0 1, 23, 8, .rw, 50, .warm, 1, 65535⟩
/-- R221 -/
def PACER_NOTIFY : Fld := ⟨69, .glob 0x200B100 0x100000 4, 31, 0, .rc, 0, .tile, 0, 2 ^ 32 - 1⟩
/-- R221 -/
def PACER_MERGED : Fld := ⟨70, .glob 0x200B104 0x100000 4, 31, 0, .rc, 0, .tile, 0, 2 ^ 32 - 1⟩
/-- R221 -/
def PACER_FLOORED : Fld := ⟨71, .glob 0x200B108 0x100000 4, 31, 0, .rc, 0, .tile, 0, 2 ^ 32 - 1⟩
/-- R222 -/
def PACER_PROF_LINE_RATE : Fld := ⟨72, .glob 0x2010000 0x10 4096, 23, 0, .rw, 0, .warm, 0, 2 ^ 24 - 1⟩
/-- R222 -/
def PACER_PROF_AI : Fld := ⟨73, .glob 0x2010004 0x10 4096, 7, 0, .rw, 5, .warm, 1, 255⟩
/-- R222 -/
def PACER_PROF_HAI : Fld := ⟨74, .glob 0x2010004 0x10 4096, 15, 8, .rw, 50, .warm, 1, 255⟩
/-- R222 -/
def PACER_PROF_HYPER_AFTER : Fld := ⟨75, .glob 0x2010004 0x10 4096, 19, 16, .rw, 5, .warm, 0, 15⟩
/-- R222 -/
def PACER_PROF_MIN : Fld := ⟨76, .glob 0x2010004 0x10 4096, 31, 24, .rw, 1, .warm, 1, 255⟩
/-- R222 -/
def PACER_PROF_PERIOD : Fld := ⟨77, .glob 0x2010008 0x10 4096, 15, 0, .rw, 55, .warm, 1, 65535⟩
/-- R222 -/
def PACER_PROF_G_SHIFT : Fld := ⟨78, .glob 0x2010008 0x10 4096, 19, 16, .rw, 4, .warm, 1, 8⟩
/-- R222 -/
def PACER_PROF_REACT : Fld := ⟨79, .glob 0x2010008 0x10 4096, 20, 20, .rw, 1, .warm, 0, 1⟩
/-- R222 -/
def PACER_PROF_BURST : Fld := ⟨80, .glob 0x201000C 0x10 4096, 7, 0, .rw, 16, .warm, 9, 255⟩
/-- R223 -/
def METER_CIR : Fld := ⟨81, .glob 0x3640000 0x20 4096, 23, 0, .rw, 0, .cold, 0, 2 ^ 24 - 1⟩
/-- R223 -/
def METER_EN : Fld := ⟨82, .glob 0x3640000 0x20 4096, 24, 24, .rw, 0, .cold, 0, 1⟩
/-- R223 -/
def METER_AWARE : Fld := ⟨83, .glob 0x3640000 0x20 4096, 25, 25, .rw, 1, .cold, 0, 1⟩
/-- R223 -/
def METER_RED_ACTION : Fld := ⟨84, .glob 0x3640000 0x20 4096, 27, 26, .rw, 0, .cold, 0, 3⟩
/-- R223 -/
def METER_PIR : Fld := ⟨85, .glob 0x3640004 0x20 4096, 23, 0, .rw, 0, .cold, 0, 2 ^ 24 - 1⟩
/-- R223 -/
def METER_CBS : Fld := ⟨86, .glob 0x3640008 0x20 4096, 23, 0, .rw, 0, .cold, 0, 2 ^ 24 - 1⟩
/-- R223 -/
def METER_PBS : Fld := ⟨87, .glob 0x364000C 0x20 4096, 23, 0, .rw, 0, .cold, 0, 2 ^ 24 - 1⟩
/-- R223 -/
def METER_OVERHEAD : Fld := ⟨88, .glob 0x3640010 0x20 4096, 6, 0, .rw, 20, .cold, 0, 127⟩
/-- R223 -/
def METER_GREEN : Fld := ⟨89, .glob 0x3640014 0x20 4096, 31, 0, .rc, 0, .cold, 0, 2 ^ 32 - 1⟩
/-- R223 -/
def METER_YELLOW : Fld := ⟨90, .glob 0x3640018 0x20 4096, 31, 0, .rc, 0, .cold, 0, 2 ^ 32 - 1⟩
/-- R223 -/
def METER_RED : Fld := ⟨91, .glob 0x364001C 0x20 4096, 31, 0, .rc, 0, .cold, 0, 2 ^ 32 - 1⟩
/-- R224 -/
def METER_BIND_METER : Fld := ⟨92, .glob 0x3660000 0x2 8320, 11, 0, .rw, 0, .cold, 0, 4095⟩
/-- R224 -/
def METER_BIND_EN : Fld := ⟨93, .glob 0x3660000 0x2 8320, 15, 15, .rw, 0, .cold, 0, 1⟩
/-- R225 -/
def PORT_LANE_WEIGHT : Fld := ⟨94, .port 0x4000, 63, 8, .rw, 0x8203030202040, .cold, 0, 2 ^ 56 - 1⟩
/-- R225 -/
def PORT_L0_CAP : Fld := ⟨95, .port 0x4008, 6, 0, .rw, 5, .cold, 1, 100⟩
/-- R225 -/
def PORT_L0_BURST : Fld := ⟨96, .port 0x4008, 23, 8, .rw, 0x4000, .cold, 8276, 65535⟩
/-- R225 -/
def PORT_OVERHEAD : Fld := ⟨97, .port 0x400C, 6, 0, .rw, 20, .cold, 0, 127⟩
/-- R225 -/
def PORT_ECN_KMIN : Fld := ⟨98, .port 0x4010, 15, 0, .rw, 64, .cold, 0, 65535⟩
/-- R225 -/
def PORT_ECN_KMAX : Fld := ⟨99, .port 0x4010, 31, 16, .rw, 512, .cold, 0, 65535⟩
/-- R225 -/
def PORT_ECN_PMAX : Fld := ⟨100, .port 0x4014, 7, 0, .rw, 20, .cold, 1, 100⟩
/-- R225 -/
def GATE_CTRL_EN : Fld := ⟨101, .port 0x4018, 0, 0, .rw, 0, .cold, 0, 1⟩
/-- R225 -/
def GATE_CTRL_SWAP_REQ : Fld := ⟨102, .port 0x4018, 1, 1, .w1s, 0, .cold, 0, 1⟩
/-- R225 -/
def GATE_STATUS_ACTIVE : Fld := ⟨103, .port 0x401C, 0, 0, .ro, 0, .cold, 0, 1⟩
/-- R225 -/
def GATE_STATUS_SWAP_PENDING : Fld := ⟨104, .port 0x401C, 1, 1, .ro, 0, .cold, 0, 1⟩
/-- R225 -/
def GATE_STATUS_HOLD : Fld := ⟨105, .port 0x401C, 2, 2, .ro, 0, .cold, 0, 1⟩
/-- R225 -/
def GATE_STATUS_LIST_ACTIVE : Fld := ⟨106, .port 0x401C, 3, 3, .ro, 0, .cold, 0, 1⟩
/-- R225 -/
def GATE_PEND_BASE : Fld := ⟨107, .port 0x4020, 63, 0, .rw, 0, .cold, 0, 2 ^ 64 - 1⟩
/-- R225 -/
def GATE_PEND_CYCLE : Fld := ⟨108, .port 0x4028, 29, 0, .rw, 0xf4240, .cold, 1000, 1000000000⟩
/-- R225 -/
def GATE_PEND_LEN : Fld := ⟨109, .port 0x402C, 10, 0, .rw, 1, .cold, 1, 1024⟩
/-- R225 -/
def GATE_ACT_BASE : Fld := ⟨110, .port 0x4030, 63, 0, .ro, 0, .cold, 0, 2 ^ 64 - 1⟩
/-- R225 -/
def GATE_ACT_CYCLE : Fld := ⟨111, .port 0x4038, 29, 0, .ro, 0, .cold, 0, 2 ^ 30 - 1⟩
/-- R225 -/
def GATE_ACT_LEN : Fld := ⟨112, .port 0x403C, 10, 0, .ro, 0, .cold, 0, 2047⟩
/-- R225 -/
def GATE_SWAP_TIME : Fld := ⟨113, .port 0x4040, 63, 0, .ro, 0, .cold, 0, 2 ^ 64 - 1⟩
/-- R225 -/
def GATE_OVERRUN : Fld := ⟨114, .port 0x4048, 31, 0, .rc, 0, .cold, 0, 2 ^ 32 - 1⟩
/-- R225 -/
def GATE_REALIGN : Fld := ⟨115, .port 0x404C, 31, 0, .rc, 0, .cold, 0, 2 ^ 32 - 1⟩
/-- R225 -/
def PORT_ECN_MARKED : Fld := ⟨116, .port 0x4050, 31, 0, .rc, 0, .cold, 0, 2 ^ 32 - 1⟩
/-- R253 -/
def FAB_EP_ID : Fld := ⟨117, .glob 0x3600000 0 1, 16, 0, .rw, 0, .cold, 0, 2 ^ 17 - 1⟩
/-- R253 -/
def FAB_CTRL_FWD_EN : Fld := ⟨118, .glob 0x3600004 0 1, 0, 0, .rw, 0, .cold, 0, 1⟩
/-- R253 -/
def FAB_CTRL_DRAIN : Fld := ⟨119, .glob 0x3600004 0 1, 1, 1, .rw, 0, .cold, 0, 1⟩
/-- R253 -/
def FAB_LANE_CFG_MIN_ONLY : Fld := ⟨120, .glob 0x3600008 0 1, 7, 0, .rw, 1, .cold, 0, 255⟩
/-- R253 -/
def FAB_EPOCH_CUR : Fld := ⟨121, .glob 0x3600010 0 1, 0, 0, .rw, 0, .cold, 0, 1⟩
/-- R253 -/
def FAB_EPOCH_COMMIT : Fld := ⟨122, .glob 0x3600010 0 1, 1, 1, .w1s, 0, .cold, 0, 1⟩
/-- R253 -/
def FAB_EPOCH_FLIP : Fld := ⟨123, .glob 0x3600010 0 1, 2, 2, .w1s, 0, .cold, 0, 1⟩
/-- R253 -/
def FAB_EPOCH_COMMITTED : Fld := ⟨124, .glob 0x3600010 0 1, 3, 3, .ro, 0, .cold, 0, 1⟩
/-- R253 -/
def FAB_EPOCH_SETTLING : Fld := ⟨125, .glob 0x3600010 0 1, 4, 4, .ro, 0, .cold, 0, 1⟩
/-- R253 -/
def FAB_EPOCH_FORCE : Fld := ⟨126, .glob 0x3600014 0 1, 15, 0, .rw, 100, .cold, 1, 65535⟩
/-- R253 -/
def FAB_EPOCH_SETTLE : Fld := ⟨127, .glob 0x3600018 0 1, 15, 0, .rw, 0x44c, .cold, 1100, 65535⟩
/-- R253 -/
def FAB_FLIP_AT : Fld := ⟨128, .glob 0x3600020 0 1, 63, 0, .rw, 0, .cold, 0, 2 ^ 64 - 1⟩
/-- R253 -/
def FAB_STATUS_LIVE_CONN : Fld := ⟨129, .glob 0x3600028 0 1, 24, 0, .ro, 0, .warm, 0, 2 ^ 25 - 1⟩
/-- R253 -/
def FAB_NO_ROUTE : Fld := ⟨130, .glob 0x3600100 0 1, 31, 0, .rc, 0, .cold, 0, 2 ^ 32 - 1⟩
/-- R253 -/
def FAB_HOP_DISCARDS : Fld := ⟨131, .glob 0x3600104 0 1, 31, 0, .rc, 0, .cold, 0, 2 ^ 32 - 1⟩
/-- R253 -/
def FAB_EXPIRED : Fld := ⟨132, .glob 0x3600108 0 1, 31, 0, .rc, 0, .cold, 0, 2 ^ 32 - 1⟩
/-- R253 -/
def FAB_BAD_PKT : Fld := ⟨133, .glob 0x360010C 0 1, 31, 0, .rc, 0, .cold, 0, 2 ^ 32 - 1⟩
/-- R253 -/
def FAB_MC_MISS : Fld := ⟨134, .glob 0x3600110 0 1, 31, 0, .rc, 0, .cold, 0, 2 ^ 32 - 1⟩
/-- R253 -/
def FAB_EPOCH_DISCARDS : Fld := ⟨135, .glob 0x3600114 0 1, 31, 0, .rc, 0, .cold, 0, 2 ^ 32 - 1⟩
/-- R253 -/
def FAB_TRANSIT_DISCARDS : Fld := ⟨136, .glob 0x3600118 0 1, 31, 0, .rc, 0, .cold, 0, 2 ^ 32 - 1⟩
/-- R254 -/
def LINK_CFG_NATIVE : Fld := ⟨137, .port 0x4100, 0, 0, .rw, 0, .cold, 0, 1⟩
/-- R254 -/
def LINK_CFG_RETRY_MAX : Fld := ⟨138, .port 0x4100, 15, 8, .rw, 8, .cold, 1, 255⟩
/-- R254 -/
def LINK_CRED_SHARE : Fld := ⟨139, .port 0x4108, 63, 0, .rw, 0x2222222222222210, .cold, 0, 2 ^ 64 - 1⟩
/-- R254 -/
def LINK_STATUS_UP : Fld := ⟨140, .port 0x4110, 0, 0, .ro, 0, .cold, 0, 1⟩
/-- R254 -/
def LINK_STATUS_TRAINING : Fld := ⟨141, .port 0x4110, 1, 1, .ro, 0, .cold, 0, 1⟩
/-- R254 -/
def LINK_STATUS_PEER_EP : Fld := ⟨142, .port 0x4110, 24, 8, .ro, 0, .cold, 0, 2 ^ 17 - 1⟩
/-- R254 -/
def LINK_CRC_ERR : Fld := ⟨143, .port 0x4118, 31, 0, .rc, 0, .cold, 0, 2 ^ 32 - 1⟩
/-- R254 -/
def LINK_REPLAYS : Fld := ⟨144, .port 0x411C, 31, 0, .rc, 0, .cold, 0, 2 ^ 32 - 1⟩
/-- R254 -/
def LINK_DOWNS : Fld := ⟨145, .port 0x4120, 31, 0, .rc, 0, .cold, 0, 2 ^ 32 - 1⟩
/-- R254 -/
def LINK_DOWN_DISCARDS : Fld := ⟨146, .port 0x4124, 31, 0, .rc, 0, .cold, 0, 2 ^ 32 - 1⟩
/-- R278 -/
def ETH_GRP_CFG_MODE : Fld := ⟨147, .glob 0x2C00000 0x100000 2, 1, 0, .rw, 0, .cold, 0, 3⟩
/-- R278 -/
def ETH_SPARE_CFG_THRESH : Fld := ⟨148, .glob 0x2C00008 0x100000 2, 23, 0, .rw, 0x9c40, .cold, 0, 2 ^ 24 - 1⟩
/-- R278 -/
def ETH_SPARE_CFG_WINDOWS : Fld := ⟨149, .glob 0x2C00008 0x100000 2, 27, 24, .rw, 3, .cold, 1, 15⟩
/-- R278 -/
def ETH_SPARE_CFG_AUTO : Fld := ⟨150, .glob 0x2C00008 0x100000 2, 28, 28, .rw, 1, .cold, 0, 1⟩
/-- R278 -/
def ETH_SPARE_CTRL_LANE : Fld := ⟨151, .glob 0x2C0000C 0x100000 2, 2, 0, .rw, 0, .cold, 0, 7⟩
/-- R278 -/
def ETH_SPARE_CTRL_REQ : Fld := ⟨152, .glob 0x2C0000C 0x100000 2, 3, 3, .w1s, 0, .cold, 0, 1⟩
/-- R278 -/
def ETH_SPARE_MAP_FAILED : Fld := ⟨153, .glob 0x2C00010 0x100000 2, 2, 0, .rw, 0, .cold, 0, 7⟩
/-- R278 -/
def ETH_SPARE_MAP_USED : Fld := ⟨154, .glob 0x2C00010 0x100000 2, 3, 3, .rw, 0, .cold, 0, 1⟩
/-- R278 -/
def ETH_SPARE_STATUS_BUSY : Fld := ⟨155, .glob 0x2C00014 0x100000 2, 0, 0, .ro, 0, .cold, 0, 1⟩
/-- R278 -/
def ETH_SPARE_STATUS_EXHAUSTED : Fld := ⟨156, .glob 0x2C00014 0x100000 2, 1, 1, .ro, 0, .cold, 0, 1⟩
/-- R278 -/
def ETH_LANE_CORR : Fld := ⟨157, .lane 0x100, 31, 0, .rc, 0, .cold, 0, 2 ^ 32 - 1⟩
/-- R278 -/
def ETH_LANE_UNCORR : Fld := ⟨158, .lane 0x104, 31, 0, .rc, 0, .cold, 0, 2 ^ 32 - 1⟩
/-- R278 -/
def ETH_WAKE_CFG_MAGIC_EN : Fld := ⟨159, .glob 0x2C01000 0 1, 0, 0, .rw, 0, .cold, 0, 1⟩
/-- R278 -/
def ETH_WAKE_CFG_PAT_EN : Fld := ⟨160, .glob 0x2C01000 0 1, 16, 1, .rw, 0, .cold, 0, 65535⟩
/-- R278 -/
def ETH_WAKE_CFG_LINK_EN : Fld := ⟨161, .glob 0x2C01000 0 1, 17, 17, .rw, 0, .cold, 0, 1⟩
/-- R278 -/
def ETH_WAKE_STATUS : Fld := ⟨162, .glob 0x2C01004 0 1, 17, 0, .w1c, 0, .cold, 0, 2 ^ 18 - 1⟩
/-- R279 -/
def ETH_MAC : Fld := ⟨163, .port 0x4200, 47, 0, .rw, 0, .cold, 0, 2 ^ 48 - 1⟩
/-- R279 -/
def ETH_CFG_MAX_FRAME : Fld := ⟨164, .port 0x4208, 13, 0, .rw, 0x2400, .cold, 1518, 9600⟩
/-- R279 -/
def ETH_CFG_CR : Fld := ⟨165, .port 0x4208, 14, 14, .rw, 0, .cold, 0, 1⟩
/-- R279 -/
def ETH_PCP_LANE : Fld := ⟨166, .port 0x420C, 23, 0, .rw, 0xfac68a, .cold, 0, 2 ^ 24 - 1⟩
/-- R279 -/
def ETH_L0_MARK_DSCP : Fld := ⟨167, .port 0x4210, 5, 0, .rw, 48, .cold, 0, 63⟩
/-- R279 -/
def ETH_L0_MARK_PCP : Fld := ⟨168, .port 0x4210, 10, 8, .rw, 6, .cold, 0, 7⟩
/-- R279 -/
def ETH_PFC_EN : Fld := ⟨169, .port 0x4214, 7, 0, .rw, 0, .cold, 0, 255⟩
/-- R279 -/
def ETH_PFC_HEADROOM : Fld := ⟨170, .port 0x4214, 15, 8, .rw, 128, .cold, 16, 255⟩
/-- R279 -/
def ETH_PREEMPT_EN : Fld := ⟨171, .port 0x4218, 0, 0, .rw, 0, .cold, 0, 1⟩
/-- R279 -/
def ETH_PREEMPT_VERIFY_DIS : Fld := ⟨172, .port 0x4218, 1, 1, .rw, 0, .cold, 0, 1⟩
/-- R279 -/
def ETH_PREEMPT_ADD_FRAG : Fld := ⟨173, .port 0x4218, 3, 2, .rw, 0, .cold, 0, 3⟩
/-- R279 -/
def ETH_PREEMPT_VERIFY_TIME : Fld := ⟨174, .port 0x4218, 11, 4, .rw, 10, .cold, 1, 128⟩
/-- R279 -/
def ETH_PREEMPT_STATUS_ACTIVE : Fld := ⟨175, .port 0x421C, 0, 0, .ro, 0, .cold, 0, 1⟩
/-- R279 -/
def ETH_PREEMPT_STATUS_VERIFY : Fld := ⟨176, .port 0x421C, 2, 1, .ro, 0, .cold, 0, 3⟩
/-- R279 -/
def ETH_MACSEC_CFG_EN : Fld := ⟨177, .port 0x4220, 0, 0, .rw, 0, .cold, 0, 1⟩
/-- R279 -/
def ETH_MACSEC_CFG_STRICT : Fld := ⟨178, .port 0x4220, 1, 1, .rw, 1, .cold, 0, 1⟩
/-- R279 -/
def ETH_MACSEC_CFG_CONF_OFFSET : Fld := ⟨179, .port 0x4220, 3, 2, .rw, 0, .cold, 0, 3⟩
/-- R279 -/
def ETH_MACSEC_CFG_PTP_BYPASS : Fld := ⟨180, .port 0x4220, 4, 4, .rw, 0, .cold, 0, 1⟩
/-- R279 -/
def ETH_MACSEC_CFG_INCLUDE_SCI : Fld := ⟨181, .port 0x4220, 5, 5, .rw, 1, .cold, 0, 1⟩
/-- R279 -/
def ETH_MACSEC_WINDOW : Fld := ⟨182, .port 0x4224, 31, 0, .rw, 0, .cold, 0, 2 ^ 32 - 1⟩
/-- R279 -/
def ETH_TS_ADJ_TX : Fld := ⟨183, .port 0x4228, 15, 0, .rw, 0, .cold, 0, 65535⟩
/-- R279 -/
def ETH_TS_ADJ_RX : Fld := ⟨184, .port 0x4228, 31, 16, .rw, 0, .cold, 0, 65535⟩
/-- R279 -/
def ETH_TS_CFG_ONE_STEP_SYNC : Fld := ⟨185, .port 0x422C, 0, 0, .rw, 0, .cold, 0, 1⟩
/-- R279 -/
def ETH_TS_CFG_ONE_STEP_PDELAY : Fld := ⟨186, .port 0x422C, 1, 1, .rw, 0, .cold, 0, 1⟩
/-- R279 -/
def ETH_TS_FIFO_SEQ_ID : Fld := ⟨187, .port 0x4230, 15, 0, .ro, 0, .cold, 0, 65535⟩
/-- R279 -/
def ETH_TS_FIFO_MSG_TYPE : Fld := ⟨188, .port 0x4230, 19, 16, .ro, 0, .cold, 0, 15⟩
/-- R279 -/
def ETH_TS_FIFO_DOMAIN : Fld := ⟨189, .port 0x4230, 27, 20, .ro, 0, .cold, 0, 255⟩
/-- R279 -/
def ETH_TS_FIFO_VALID : Fld := ⟨190, .port 0x4230, 31, 31, .ro, 0, .cold, 0, 1⟩
/-- R279 -/
def ETH_TS_NS : Fld := ⟨191, .port 0x4234, 29, 0, .ro, 0, .cold, 0, 2 ^ 30 - 1⟩
/-- R279 -/
def ETH_TS_SEC : Fld := ⟨192, .port 0x4238, 47, 0, .ro, 0, .cold, 0, 2 ^ 48 - 1⟩
/-- R279 -/
def ETH_LS_EN : Fld := ⟨193, .port 0x4240, 0, 0, .rw, 0, .cold, 0, 1⟩
/-- R279 -/
def ETH_LS_MIN_LANES : Fld := ⟨194, .port 0x4240, 3, 1, .rw, 1, .cold, 0, 7⟩
/-- R279 -/
def ETH_LS_THRESH : Fld := ⟨195, .port 0x4240, 15, 8, .rw, 40, .cold, 1, 100⟩
/-- R279 -/
def ETH_LS_RESTORE : Fld := ⟨196, .port 0x4240, 23, 16, .rw, 80, .cold, 1, 100⟩
/-- R279 -/
def ETH_LS_DWELL : Fld := ⟨197, .port 0x4244, 15, 0, .rw, 100, .cold, 1, 65535⟩
/-- R279 -/
def ETH_LS_STATUS_LANES : Fld := ⟨198, .port 0x4248, 3, 0, .ro, 0, .cold, 0, 15⟩
/-- R279 -/
def ETH_LS_STATUS_RETRAINING : Fld := ⟨199, .port 0x4248, 4, 4, .ro, 0, .cold, 0, 1⟩
/-- R279 -/
def ETH_STATUS_UP : Fld := ⟨200, .port 0x4250, 0, 0, .ro, 0, .cold, 0, 1⟩
/-- R279 -/
def ETH_STATUS_AN_DONE : Fld := ⟨201, .port 0x4250, 1, 1, .ro, 0, .cold, 0, 1⟩
/-- R279 -/
def ETH_EXC_CFG : Fld := ⟨202, .port 0x4254, 4, 0, .rw, 31, .cold, 0, 31⟩
/-- R280 -/
def ETH_TX_FRAMES : Fld := ⟨203, .port 0x4400, 63, 0, .rc, 0, .cold, 0, 2 ^ 64 - 1⟩
/-- R280 -/
def ETH_TX_BYTES : Fld := ⟨204, .port 0x4408, 63, 0, .rc, 0, .cold, 0, 2 ^ 64 - 1⟩
/-- R280 -/
def ETH_RX_FRAMES : Fld := ⟨205, .port 0x4410, 63, 0, .rc, 0, .cold, 0, 2 ^ 64 - 1⟩
/-- R280 -/
def ETH_RX_BYTES : Fld := ⟨206, .port 0x4418, 63, 0, .rc, 0, .cold, 0, 2 ^ 64 - 1⟩
/-- R280 -/
def ETH_RX_CODE_ERR : Fld := ⟨207, .port 0x4420, 31, 0, .rc, 0, .cold, 0, 2 ^ 32 - 1⟩
/-- R280 -/
def ETH_RX_RUNT : Fld := ⟨208, .port 0x4424, 31, 0, .rc, 0, .cold, 0, 2 ^ 32 - 1⟩
/-- R280 -/
def ETH_RX_OVERSIZE : Fld := ⟨209, .port 0x4428, 31, 0, .rc, 0, .cold, 0, 2 ^ 32 - 1⟩
/-- R280 -/
def ETH_RX_FCS_ERR : Fld := ⟨210, .port 0x442C, 31, 0, .rc, 0, .cold, 0, 2 ^ 32 - 1⟩
/-- R280 -/
def ETH_RX_MACCTL_DROP : Fld := ⟨211, .port 0x4430, 31, 0, .rc, 0, .cold, 0, 2 ^ 32 - 1⟩
/-- R280 -/
def ETH_RX_DA_MISS : Fld := ⟨212, .port 0x4434, 31, 0, .rc, 0, .cold, 0, 2 ^ 32 - 1⟩
/-- R280 -/
def ETH_RX_ETYPE_DROP : Fld := ⟨213, .port 0x4438, 31, 0, .rc, 0, .cold, 0, 2 ^ 32 - 1⟩
/-- R280 -/
def ETH_RX_IP_ERR : Fld := ⟨214, .port 0x443C, 31, 0, .rc, 0, .cold, 0, 2 ^ 32 - 1⟩
/-- R280 -/
def ETH_RX_DIP_MISS : Fld := ⟨215, .port 0x4440, 31, 0, .rc, 0, .cold, 0, 2 ^ 32 - 1⟩
/-- R280 -/
def ETH_RX_L4_DROP : Fld := ⟨216, .port 0x4444, 31, 0, .rc, 0, .cold, 0, 2 ^ 32 - 1⟩
/-- R280 -/
def ETH_RX_OPCODE_DROP : Fld := ⟨217, .port 0x4448, 31, 0, .rc, 0, .cold, 0, 2 ^ 32 - 1⟩
/-- R280 -/
def ETH_RX_ICRC_ERR : Fld := ⟨218, .port 0x444C, 31, 0, .rc, 0, .cold, 0, 2 ^ 32 - 1⟩
/-- R280 -/
def ETH_RX_LANE_FULL : Fld := ⟨219, .port 0x4450, 31, 0, .rc, 0, .cold, 0, 2 ^ 32 - 1⟩
/-- R280 -/
def ETH_RX_PFC : Fld := ⟨220, .port 0x4454, 31, 0, .rc, 0, .cold, 0, 2 ^ 32 - 1⟩
/-- R280 -/
def ETH_TX_PFC : Fld := ⟨221, .port 0x4458, 31, 0, .rc, 0, .cold, 0, 2 ^ 32 - 1⟩
/-- R280 -/
def ETH_TX_FRAG : Fld := ⟨222, .port 0x445C, 31, 0, .rc, 0, .cold, 0, 2 ^ 32 - 1⟩
/-- R280 -/
def ETH_RX_ASSY_ERR : Fld := ⟨223, .port 0x4460, 31, 0, .rc, 0, .cold, 0, 2 ^ 32 - 1⟩
/-- R280 -/
def ETH_MACSEC_ICV_FAIL : Fld := ⟨224, .port 0x4464, 31, 0, .rc, 0, .cold, 0, 2 ^ 32 - 1⟩
/-- R280 -/
def ETH_MACSEC_NO_SA : Fld := ⟨225, .port 0x4468, 31, 0, .rc, 0, .cold, 0, 2 ^ 32 - 1⟩
/-- R280 -/
def ETH_MACSEC_LATE : Fld := ⟨226, .port 0x446C, 31, 0, .rc, 0, .cold, 0, 2 ^ 32 - 1⟩
/-- R280 -/
def ETH_MACSEC_UNPROT : Fld := ⟨227, .port 0x4470, 31, 0, .rc, 0, .cold, 0, 2 ^ 32 - 1⟩
/-- R280 -/
def ETH_TS_LOST : Fld := ⟨228, .port 0x4474, 31, 0, .rc, 0, .cold, 0, 2 ^ 32 - 1⟩
/-- R280 -/
def ETH_CNP_SENT : Fld := ⟨229, .port 0x447C, 31, 0, .rc, 0, .cold, 0, 2 ^ 32 - 1⟩
/-- R280 -/
def ETH_CNP_RCVD : Fld := ⟨230, .port 0x4480, 31, 0, .rc, 0, .cold, 0, 2 ^ 32 - 1⟩
/-- R280 -/
def ETH_EXC_FRAMES : Fld := ⟨231, .port 0x4484, 31, 0, .rc, 0, .cold, 0, 2 ^ 32 - 1⟩
/-- R307 -/
def COLL_LAP_WINDOW : Fld := ⟨232, .glob 0x200C000 0 1, 25, 0, .rw, 0xc350, .warm, 1, 60000000⟩
/-- R307 -/
def COLL_ALG_TREE_MAX : Fld := ⟨233, .glob 0x200C004 0 1, 15, 0, .rw, 256, .warm, 0, 65535⟩
/-- R307 -/
def COLL_ALG_MC_MIN : Fld := ⟨234, .glob 0x200C004 0 1, 31, 16, .rw, 0x400, .warm, 0, 65535⟩
/-- R307 -/
def COLL_CHUNK_LOG2 : Fld := ⟨235, .glob 0x200C008 0 1, 4, 0, .rwl, 20, .warm, 16, 22⟩
/-- R307 -/
def COLL_CTRL_LOCK : Fld := ⟨236, .glob 0x200C00C 0 1, 0, 0, .w1s, 0, .warm, 0, 1⟩
/-- R307 -/
def COLL_ABORT_REPEAT : Fld := ⟨237, .glob 0x200C010 0 1, 3, 0, .rw, 3, .warm, 0, 15⟩
/-- R307 -/
def COLL_ABORT_INTERVAL : Fld := ⟨238, .glob 0x200C010 0 1, 31, 16, .rw, 100, .warm, 1, 65535⟩
/-- R307 -/
def COLL_MC_REPAIR : Fld := ⟨239, .glob 0x200C014 0 1, 15, 0, .rw, 20, .warm, 1, 65535⟩
/-- R308 -/
def COLL_HEATS_OK : Fld := ⟨240, .glob 0x200C100 0x100000 4, 31, 0, .rc, 0, .tile, 0, 2 ^ 32 - 1⟩
/-- R308 -/
def COLL_HEATS_ABORTED : Fld := ⟨241, .glob 0x200C104 0x100000 4, 31, 0, .rc, 0, .tile, 0, 2 ^ 32 - 1⟩
/-- R308 -/
def COLL_ABORTS_SENT : Fld := ⟨242, .glob 0x200C108 0x100000 4, 31, 0, .rc, 0, .tile, 0, 2 ^ 32 - 1⟩
/-- R308 -/
def COLL_ABORTS_RCVD : Fld := ⟨243, .glob 0x200C10C 0x100000 4, 31, 0, .rc, 0, .tile, 0, 2 ^ 32 - 1⟩
/-- R308 -/
def COLL_MC_REPAIRS : Fld := ⟨244, .glob 0x200C110 0x100000 4, 31, 0, .rc, 0, .tile, 0, 2 ^ 32 - 1⟩
/-- R308 -/
def COLL_ACTIVE : Fld := ⟨245, .glob 0x200C114 0x100000 4, 12, 0, .ro, 0, .tile, 0, 8191⟩
/-- R308 -/
def LAP_SLOWEST_GROUP : Fld := ⟨246, .glob 0x200C118 0x100000 4, 11, 0, .ro, 0, .tile, 0, 4095⟩
/-- R308 -/
def LAP_SLOWEST_BIB : Fld := ⟨247, .glob 0x200C118 0x100000 4, 31, 16, .ro, 0, .tile, 0, 65535⟩
/-- R308 -/
def LAP_SLOWEST_LATE : Fld := ⟨248, .glob 0x200C11C 0x100000 4, 31, 0, .ro, 0, .tile, 0, 2 ^ 32 - 1⟩
/-- R308 -/
def LAP_SLOWEST_LAP : Fld := ⟨249, .glob 0x200C12C 0x100000 4, 15, 0, .ro, 0, .tile, 0, 65535⟩
/-- R335 -/
def REDUCE_SAT : Fld := ⟨250, .glob 0x200C120 0x100000 4, 31, 0, .rc, 0, .tile, 0, 2 ^ 32 - 1⟩
/-- R335 -/
def REDUCE_NAN : Fld := ⟨251, .glob 0x200C124 0x100000 4, 31, 0, .rc, 0, .tile, 0, 2 ^ 32 - 1⟩
/-- R335 -/
def REDUCE_TRUNC : Fld := ⟨252, .glob 0x200C128 0x100000 4, 31, 0, .rc, 0, .tile, 0, 2 ^ 32 - 1⟩
/-- R360 -/
def MARA_CFG_MAX_REQ : Fld := ⟨253, .glob 0x200D000 0 1, 4, 0, .rw, 16, .warm, 0, 31⟩
/-- R361 -/
def MARA_REQS : Fld := ⟨254, .glob 0x200D100 0x100000 4, 31, 0, .rc, 0, .tile, 0, 2 ^ 32 - 1⟩
/-- R361 -/
def MARA_SERVED : Fld := ⟨255, .glob 0x200D104 0x100000 4, 31, 0, .rc, 0, .tile, 0, 2 ^ 32 - 1⟩
/-- R361 -/
def MARA_BLOCKS : Fld := ⟨256, .glob 0x200D108 0x100000 4, 31, 0, .rc, 0, .tile, 0, 2 ^ 32 - 1⟩
/-- R361 -/
def MARA_SKIPPED : Fld := ⟨257, .glob 0x200D10C 0x100000 4, 31, 0, .rc, 0, .tile, 0, 2 ^ 32 - 1⟩
/-- R361 -/
def MARA_EMPTY_ROWS : Fld := ⟨258, .glob 0x200D110 0x100000 4, 31, 0, .rc, 0, .tile, 0, 2 ^ 32 - 1⟩
/-- R361 -/
def MARA_NAN_ROWS : Fld := ⟨259, .glob 0x200D114 0x100000 4, 31, 0, .rc, 0, .tile, 0, 2 ^ 32 - 1⟩
/-- R361 -/
def MARA_ACTIVE : Fld := ⟨260, .glob 0x200D118 0x100000 4, 4, 0, .ro, 0, .tile, 0, 31⟩
/-- R361 -/
def MARA_SEQS : Fld := ⟨261, .glob 0x200D11C 0x100000 4, 16, 0, .ro, 0, .tile, 0, 2 ^ 17 - 1⟩
/-- R381 -/
def LM_SHARE : Fld := ⟨262, .glob 0x2400000 0 1, 31, 0, .rw, 0x4080808, .warm, 0, 2 ^ 32 - 1⟩
/-- R381 -/
def LM_SHARE_MAINT_MIN : Fld := ⟨263, .glob 0x2400000 0 1, 39, 32, .rw, 5, .warm, 1, 50⟩
/-- R381 -/
def LM_SCRUB_PERIOD : Fld := ⟨264, .glob 0x2400008 0 1, 7, 0, .rw, 24, .warm, 1, 255⟩
/-- R381 -/
def LM_REPAIR_ROW_THRESH : Fld := ⟨265, .glob 0x240000C 0 1, 15, 0, .rw, 16, .warm, 0, 65535⟩
/-- R381 -/
def LM_REPAIR_PIN_THRESH : Fld := ⟨266, .glob 0x240000C 0 1, 31, 16, .rw, 0x400, .warm, 0, 65535⟩
/-- R381 -/
def LM_REPAIR_UNIT_THRESH : Fld := ⟨267, .glob 0x2400010 0 1, 7, 0, .rw, 4, .warm, 0, 255⟩
/-- R381 -/
def LM_POOL_TOTAL : Fld := ⟨268, .glob 0x2400018 0 1, 16, 0, .ro, 0x17800, .cold, 0, 2 ^ 17 - 1⟩
/-- R381 -/
def LM_POOL_FREE : Fld := ⟨269, .glob 0x240001C 0 1, 16, 0, .ro, 0x17800, .cold, 0, 2 ^ 17 - 1⟩
/-- R381 -/
def LM_FUNC_UNITS : Fld := ⟨270, .glob 0x2401000 0x4 1024, 16, 0, .ro, 0, .cold, 0, 2 ^ 17 - 1⟩
/-- R381 -/
def LM_FUNC_PERSIST : Fld := ⟨271, .glob 0x2401000 0x4 1024, 31, 31, .rw, 0, .cold, 0, 1⟩
/-- R382 -/
def LM_REPAIR_CTRL_CHANNEL : Fld := ⟨272, .glob 0x2400080 0x100000 4, 3, 0, .rw, 0, .warm, 0, 15⟩
/-- R382 -/
def LM_REPAIR_CTRL_PIN : Fld := ⟨273, .glob 0x2400080 0x100000 4, 11, 4, .rw, 0, .warm, 0, 143⟩
/-- R382 -/
def LM_REPAIR_CTRL_BANK : Fld := ⟨274, .glob 0x2400080 0x100000 4, 16, 12, .rw, 0, .warm, 0, 31⟩
/-- R382 -/
def LM_REPAIR_CTRL_ROW_REQ : Fld := ⟨275, .glob 0x2400080 0x100000 4, 30, 30, .w1s, 0, .warm, 0, 1⟩
/-- R382 -/
def LM_REPAIR_CTRL_PIN_REQ : Fld := ⟨276, .glob 0x2400080 0x100000 4, 31, 31, .w1s, 0, .warm, 0, 1⟩
/-- R382 -/
def LM_REPAIR_ROW : Fld := ⟨277, .glob 0x2400084 0x100000 4, 17, 0, .rw, 0, .warm, 0, 2 ^ 18 - 1⟩
/-- R382 -/
def LM_SPARE_STATUS_PINS : Fld := ⟨278, .glob 0x2400088 0x100000 4, 15, 0, .ro, 0, .cold, 0, 65535⟩
/-- R382 -/
def LM_SPARE_STATUS_PIN_EXHAUSTED : Fld := ⟨279, .glob 0x2400088 0x100000 4, 16, 16, .ro, 0, .cold, 0, 1⟩
/-- R382 -/
def LM_SPARE_STATUS_BUSY : Fld := ⟨280, .glob 0x2400088 0x100000 4, 17, 17, .ro, 0, .warm, 0, 1⟩
/-- R382 -/
def LM_CORR : Fld := ⟨281, .glob 0x2400100 0x100000 4, 31, 0, .rc, 0, .warm, 0, 2 ^ 32 - 1⟩
/-- R382 -/
def LM_UNCORR : Fld := ⟨282, .glob 0x2400104 0x100000 4, 31, 0, .rc, 0, .warm, 0, 2 ^ 32 - 1⟩
/-- R382 -/
def LM_POISON_READS : Fld := ⟨283, .glob 0x2400108 0x100000 4, 31, 0, .rc, 0, .warm, 0, 2 ^ 32 - 1⟩
/-- R382 -/
def LM_SCRUB_PASSES : Fld := ⟨284, .glob 0x240010C 0x100000 4, 31, 0, .rc, 0, .warm, 0, 2 ^ 32 - 1⟩
/-- R382 -/
def LM_ROWS_SPARED : Fld := ⟨285, .glob 0x2400110 0x100000 4, 31, 0, .rc, 0, .cold, 0, 2 ^ 32 - 1⟩
/-- R382 -/
def LM_UNITS_RETIRED : Fld := ⟨286, .glob 0x2400114 0x100000 4, 31, 0, .rc, 0, .cold, 0, 2 ^ 32 - 1⟩
/-- R404 -/
def STRIDE_DREQ_POL : Fld := ⟨287, .glob 0x200E000 0 1, 15, 0, .rw, 0, .warm, 0, 65535⟩
/-- R404 -/
def STRIDE_RX_THRESH : Fld := ⟨288, .glob 0x200E004 0 1, 23, 0, .rw, 64, .warm, 1, 2 ^ 24 - 1⟩
/-- R404 -/
def STRIDE_DESC_DONE : Fld := ⟨289, .glob 0x200E100 0x100000 4, 31, 0, .rc, 0, .tile, 0, 2 ^ 32 - 1⟩
/-- R404 -/
def STRIDE_DESC_BAD : Fld := ⟨290, .glob 0x200E104 0x100000 4, 31, 0, .rc, 0, .tile, 0, 2 ^ 32 - 1⟩
/-- R404 -/
def STRIDE_BYTES : Fld := ⟨291, .glob 0x200E108 0x100000 4, 63, 0, .rc, 0, .tile, 0, 2 ^ 64 - 1⟩
/-- R405 -/
def STRIDE_CH_CFG_PORT : Fld := ⟨292, .chan 0x0, 2, 0, .rw, 0, .warm, 0, 7⟩
/-- R405 -/
def STRIDE_CH_CFG_DIR : Fld := ⟨293, .chan 0x0, 3, 3, .rw, 0, .warm, 0, 1⟩
/-- R405 -/
def STRIDE_CH_CFG_REQ_LINE : Fld := ⟨294, .chan 0x0, 9, 4, .rw, 63, .warm, 0, 63⟩
/-- R405 -/
def STRIDE_CH_CFG_BURST_LOG2 : Fld := ⟨295, .chan 0x0, 14, 10, .rw, 12, .warm, 0, 31⟩
/-- R405 -/
def STRIDE_CH_CFG_IX4_STOP : Fld := ⟨296, .chan 0x0, 15, 15, .rw, 0, .warm, 0, 1⟩
/-- R405 -/
def STRIDE_CH_CFG_OWNER : Fld := ⟨297, .chan 0x0, 25, 16, .ro, 15, .cold, 0, 1023⟩
/-- R405 -/
def STRIDE_CH_CTRL_PAUSE : Fld := ⟨298, .chan 0x4, 0, 0, .w1s, 0, .engine, 0, 1⟩
/-- R405 -/
def STRIDE_CH_CTRL_RESUME : Fld := ⟨299, .chan 0x4, 1, 1, .w1s, 0, .engine, 0, 1⟩
/-- R405 -/
def STRIDE_CH_CTRL_STOP : Fld := ⟨300, .chan 0x4, 2, 2, .w1s, 0, .engine, 0, 1⟩
/-- R405 -/
def STRIDE_CH_STATUS_STATE : Fld := ⟨301, .chan 0x8, 2, 0, .ro, 0, .engine, 0, 7⟩
/-- R405 -/
def STRIDE_CH_STATUS_REQ_OVF : Fld := ⟨302, .chan 0x8, 3, 3, .w1c, 0, .engine, 0, 1⟩
/-- R405 -/
def STRIDE_CH_STATUS_STOP_PENDING : Fld := ⟨303, .chan 0x8, 4, 4, .ro, 0, .engine, 0, 1⟩
/-- R405 -/
def STRIDE_CH_REQS : Fld := ⟨304, .chan 0xC, 15, 0, .ro, 0, .engine, 0, 65535⟩
/-- R405 -/
def STRIDE_CH_DESC : Fld := ⟨305, .chan 0x10, 63, 0, .ro, 0, .engine, 0, 2 ^ 64 - 1⟩
/-- R405 -/
def STRIDE_CH_ROW : Fld := ⟨306, .chan 0x18, 23, 0, .ro, 0, .engine, 0, 2 ^ 24 - 1⟩
/-- R405 -/
def STRIDE_CH_REM : Fld := ⟨307, .chan 0x1C, 31, 0, .ro, 0, .engine, 0, 2 ^ 32 - 1⟩
/-- R428 -/
def CIPH_CFG_TAG_LIMIT : Fld := ⟨308, .glob 0x2A00000 0 1, 3, 0, .rw, 4, .warm, 0, 15⟩
/-- R428 -/
def VAULT_STATUS_DRK : Fld := ⟨309, .glob 0x2A00010 0 1, 0, 0, .ro, 0, .cold, 0, 1⟩
/-- R428 -/
def VAULT_STATUS_ES_OK : Fld := ⟨310, .glob 0x2A00010 0 1, 1, 1, .ro, 0, .warm, 0, 1⟩
/-- R428 -/
def VAULT_STATUS_DRBG_OK : Fld := ⟨311, .glob 0x2A00010 0 1, 2, 2, .ro, 0, .warm, 0, 1⟩
/-- R428 -/
def VAULT_STATUS_SLOTS : Fld := ⟨312, .glob 0x2A00010 0 1, 24, 16, .ro, 0, .warm, 0, 511⟩
/-- R428 -/
def VAULT_SLOT_MAP : Fld := ⟨313, .glob 0x2A00020 0 1, 255, 0, .ro, 0, .warm, 0, 2 ^ 256 - 1⟩
/-- R428 -/
def VAULT_DERIVES : Fld := ⟨314, .glob 0x2A00040 0 1, 31, 0, .rc, 0, .warm, 0, 2 ^ 32 - 1⟩
/-- R428 -/
def VAULT_ES_FAILS : Fld := ⟨315, .glob 0x2A00044 0 1, 31, 0, .rc, 0, .cold, 0, 2 ^ 32 - 1⟩
/-- R428 -/
def VAULT_RESEEDS : Fld := ⟨316, .glob 0x2A00048 0 1, 31, 0, .rc, 0, .warm, 0, 2 ^ 32 - 1⟩
/-- R429 -/
def CIPH_ENC_PKTS : Fld := ⟨317, .glob 0x2A00100 0x40 4, 31, 0, .rc, 0, .tile, 0, 2 ^ 32 - 1⟩
/-- R429 -/
def CIPH_DEC_PKTS : Fld := ⟨318, .glob 0x2A00104 0x40 4, 31, 0, .rc, 0, .tile, 0, 2 ^ 32 - 1⟩
/-- R429 -/
def CIPH_TAG_FAIL : Fld := ⟨319, .glob 0x2A00108 0x40 4, 31, 0, .rc, 0, .tile, 0, 2 ^ 32 - 1⟩
/-- R429 -/
def CIPH_EPOCH_DISCARDS : Fld := ⟨320, .glob 0x2A0010C 0x40 4, 31, 0, .rc, 0, .tile, 0, 2 ^ 32 - 1⟩
/-- R429 -/
def CIPH_KEY_MISSES : Fld := ⟨321, .glob 0x2A00110 0x40 4, 31, 0, .rc, 0, .tile, 0, 2 ^ 32 - 1⟩
/-- R429 -/
def CIPH_HELD_BUSY : Fld := ⟨322, .glob 0x2A00114 0x40 4, 31, 0, .rc, 0, .tile, 0, 2 ^ 32 - 1⟩
/-- R429 -/
def CIPH_HELD_BYTES : Fld := ⟨323, .glob 0x2A00118 0x40 4, 22, 0, .ro, 0, .tile, 0, 2 ^ 23 - 1⟩
/-- R429 -/
def CIPH_UNTRUSTED_CONN : Fld := ⟨324, .glob 0x2A0011C 0x40 4, 23, 0, .ro, 0, .tile, 0, 2 ^ 24 - 1⟩
/-- R429 -/
def CIPH_UNTRUSTED_OFF : Fld := ⟨325, .glob 0x2A00120 0x40 4, 63, 0, .ro, 0, .tile, 0, 2 ^ 64 - 1⟩
/-- R429 -/
def CIPH_UNTRUSTED_LEN : Fld := ⟨326, .glob 0x2A00128 0x40 4, 13, 0, .ro, 0, .tile, 0, 16383⟩
/-- R444 -/
def FUNC_QUOTA_PENDING : Fld := ⟨327, .func 0x110, 14, 1, .ro, 0, .cold, 0, 16383⟩
/-- R445 -/
def FUNC_RESET_ID : Fld := ⟨328, .glob 0x3500000 0 1, 9, 0, .rw, 0, .cold, 0, 1023⟩
/-- R445 -/
def FUNC_RESET_GO : Fld := ⟨329, .glob 0x3500000 0 1, 31, 31, .w1s, 0, .cold, 0, 1⟩
/-- R445 -/
def FUNC_RESET_STATUS_BUSY : Fld := ⟨330, .glob 0x3500004 0 1, 0, 0, .ro, 0, .cold, 0, 1⟩
/-- R445 -/
def FUNC_QUOTA_PEND_ALL : Fld := ⟨331, .glob 0x3504000 0x4 1024, 14, 1, .ro, 0, .cold, 0, 16383⟩
/-- R445 -/
def FUNC_LANE_WEIGHT : Fld := ⟨332, .glob 0x3508000 0x8 1024, 63, 8, .ro, 0x10101010101010, .cold, 0, 2 ^ 56 - 1⟩
/-- R470 -/
def SVC_CTRL_RESTART : Fld := ⟨333, .glob 0x3800000 0 1, 3, 0, .w1s, 0, .warm, 0, 15⟩
/-- R470 -/
def SVC_STATUS_RUNNING : Fld := ⟨334, .glob 0x3800004 0 1, 31, 0, .ro, 0, .warm, 0, 2 ^ 32 - 1⟩
/-- R470 -/
def SVC_STATUS_IMAGE_OK : Fld := ⟨335, .glob 0x3800008 0 1, 0, 0, .ro, 0, .warm, 0, 1⟩
/-- R470 -/
def SVC_MEM_PORT : Fld := ⟨336, .glob 0x3800010 0 1, 0, 0, .rwl, 0, .warm, 0, 1⟩
/-- R470 -/
def SVC_MEM_BASE : Fld := ⟨337, .glob 0x3800018 0 1, 63, 21, .rwl, 0, .warm, 0, 2 ^ 43 - 1⟩
/-- R470 -/
def SVC_MEM_SIZE : Fld := ⟨338, .glob 0x3800020 0 1, 15, 0, .rwl, 0, .warm, 0, 65535⟩
/-- R470 -/
def SVC_MEM_LOCK : Fld := ⟨339, .glob 0x3800024 0 1, 0, 0, .w1s, 0, .warm, 0, 1⟩
/-- R471 -/
def MBOX_CFG_TIMEOUT : Fld := ⟨340, .glob 0x3700000 0 1, 15, 0, .rw, 100, .warm, 1, 65535⟩
/-- R471 -/
def SB_STATUS_UNLOCKED : Fld := ⟨341, .glob 0x3700004 0 1, 0, 0, .ro, 0, .warm, 0, 1⟩
/-- R471 -/
def SB_CFG_RX_OFF : Fld := ⟨342, .glob 0x3700008 0 1, 0, 0, .rwl, 0, .warm, 0, 1⟩
/-- R471 -/
def MGMT_RESTARTS : Fld := ⟨343, .glob 0x370000C 0 1, 31, 0, .rc, 0, .cold, 0, 2 ^ 32 - 1⟩
/-- R471 -/
def MBOX_DATA : Fld := ⟨344, .mboxData, 31, 0, .rw, 0, .warm, 0, 2 ^ 32 - 1⟩
/-- R471 -/
def MBOX_CTRL_GO : Fld := ⟨345, .mbox 0x40, 0, 0, .w1s, 0, .warm, 0, 1⟩
/-- R471 -/
def MBOX_CTRL_RELEASE : Fld := ⟨346, .mbox 0x40, 1, 1, .w1s, 0, .warm, 0, 1⟩
/-- R471 -/
def MBOX_CTRL_RESPOND : Fld := ⟨347, .mbox 0x40, 2, 2, .w1s, 0, .warm, 0, 1⟩
/-- R471 -/
def MBOX_CTRL_IRQ : Fld := ⟨348, .mbox 0x40, 3, 3, .rw, 0, .warm, 0, 1⟩
/-- R471 -/
def MBOX_CTRL_TARGET : Fld := ⟨349, .mbox 0x40, 5, 4, .rw, 0, .warm, 0, 3⟩
/-- R471 -/
def MBOX_STATUS_BUSY : Fld := ⟨350, .mbox 0x44, 0, 0, .ro, 0, .warm, 0, 1⟩
/-- R471 -/
def MBOX_STATUS_DONE : Fld := ⟨351, .mbox 0x44, 1, 1, .ro, 0, .warm, 0, 1⟩
/-- R471 -/
def MBOX_STATUS_DOMAIN_DOWN : Fld := ⟨352, .mbox 0x44, 2, 2, .ro, 0, .warm, 0, 1⟩
/-- R471 -/
def MBOX_STATUS_TIMEOUT : Fld := ⟨353, .mbox 0x44, 3, 3, .ro, 0, .warm, 0, 1⟩
/-- R471 -/
def MBOX_STATUS_CLAIMED : Fld := ⟨354, .mbox 0x44, 4, 4, .ro, 0, .warm, 0, 1⟩
/-- R471 -/
def MBOX_STATUS_OWNER : Fld := ⟨355, .mbox 0x44, 25, 16, .ro, 0, .warm, 0, 1023⟩
/-- R472 -/
def EXC_RX_BASE : Fld := ⟨356, .ifz 0x3000, 63, 12, .rw, 0, .func, 0, 2 ^ 52 - 1⟩
/-- R472 -/
def EXC_RX_CFG_LOG2 : Fld := ⟨357, .ifz 0x3008, 4, 0, .rw, 16, .func, 16, 24⟩
/-- R472 -/
def EXC_RX_CFG_EN : Fld := ⟨358, .ifz 0x3008, 5, 5, .rw, 0, .func, 0, 1⟩
/-- R472 -/
def EXC_RX_CFG_VECTOR : Fld := ⟨359, .ifz 0x3008, 26, 16, .rw, 0, .func, 0, 2047⟩
/-- R472 -/
def EXC_RX_PROD : Fld := ⟨360, .ifz 0x300C, 31, 0, .ro, 0, .func, 0, 2 ^ 32 - 1⟩
/-- R472 -/
def EXC_RX_CONS : Fld := ⟨361, .ifz 0x3010, 31, 0, .rw, 0, .func, 0, 2 ^ 32 - 1⟩
/-- R472 -/
def EXC_RX_DROPS : Fld := ⟨362, .ifz 0x3014, 31, 0, .rc, 0, .func, 0, 2 ^ 32 - 1⟩
/-- R472 -/
def EXC_TX_BASE : Fld := ⟨363, .ifz 0x3018, 63, 12, .rw, 0, .func, 0, 2 ^ 52 - 1⟩
/-- R472 -/
def EXC_TX_CFG_LOG2 : Fld := ⟨364, .ifz 0x3020, 4, 0, .rw, 16, .func, 16, 24⟩
/-- R472 -/
def EXC_TX_CFG_EN : Fld := ⟨365, .ifz 0x3020, 5, 5, .rw, 0, .func, 0, 1⟩
/-- R472 -/
def EXC_TX_CFG_VECTOR : Fld := ⟨366, .ifz 0x3020, 26, 16, .rw, 0, .func, 0, 2047⟩
/-- R472 -/
def EXC_TX_PROD : Fld := ⟨367, .ifz 0x3024, 31, 0, .rw, 0, .func, 0, 2 ^ 32 - 1⟩
/-- R472 -/
def EXC_TX_CONS : Fld := ⟨368, .ifz 0x3028, 31, 0, .ro, 0, .func, 0, 2 ^ 32 - 1⟩
/-- R504 -/
def RESET_CTRL_WARM : Fld := ⟨369, .glob 0x3700010 0 1, 0, 0, .w1s, 0, .warm, 0, 1⟩
/-- R504 -/
def RESET_CTRL_COLD : Fld := ⟨370, .glob 0x3700010 0 1, 1, 1, .w1s, 0, .warm, 0, 1⟩
/-- R504 -/
def RESET_CTRL_KEY : Fld := ⟨371, .glob 0x3700010 0 1, 31, 16, .wo, 0, .warm, 0, 65535⟩
/-- R504 -/
def RESET_CFG_PERST_WARM : Fld := ⟨372, .glob 0x3700014 0 1, 0, 0, .rw, 1, .cold, 0, 1⟩
/-- R504 -/
def RESET_CFG_AUTO_COLD : Fld := ⟨373, .glob 0x3700014 0 1, 1, 1, .rw, 0, .cold, 0, 1⟩
/-- R504 -/
def RESET_STATUS_LAST : Fld := ⟨374, .glob 0x3700018 0 1, 2, 0, .ro, 0, .cold, 0, 7⟩
/-- R504 -/
def RESET_STATUS_FATAL : Fld := ⟨375, .glob 0x3700018 0 1, 8, 8, .ro, 0, .cold, 0, 1⟩
/-- R504 -/
def HOSTLL_CFG_HB_WINDOW : Fld := ⟨376, .glob 0x370001C 0 1, 15, 0, .rw, 0, .cold, 0, 65535⟩
/-- R504 -/
def ENG_RESET_TILE : Fld := ⟨377, .glob 0x3700020 0 1, 1, 0, .rw, 0, .warm, 0, 3⟩
/-- R504 -/
def ENG_RESET_ENGINE : Fld := ⟨378, .glob 0x3700020 0 1, 6, 4, .rw, 0, .warm, 0, 7⟩
/-- R504 -/
def ENG_RESET_GO : Fld := ⟨379, .glob 0x3700020 0 1, 31, 31, .w1s, 0, .warm, 0, 1⟩
/-- R504 -/
def QUEUE_RESET_SQ_ID : Fld := ⟨380, .glob 0x3700024 0 1, 15, 0, .rw, 0, .warm, 0, 65535⟩
/-- R504 -/
def QUEUE_RESET_GO : Fld := ⟨381, .glob 0x3700024 0 1, 31, 31, .w1s, 0, .warm, 0, 1⟩
/-- R504 -/
def PROG_CFG_WINDOW : Fld := ⟨382, .glob 0x3700028 0 1, 9, 0, .rw, 10, .warm, 0, 1023⟩
/-- R504 -/
def EVAC_CTRL_SRC : Fld := ⟨383, .glob 0x3700030 0 1, 1, 0, .rw, 0, .warm, 0, 3⟩
/-- R504 -/
def EVAC_CTRL_DST : Fld := ⟨384, .glob 0x3700030 0 1, 3, 2, .rw, 0, .warm, 0, 3⟩
/-- R504 -/
def EVAC_CTRL_MODE : Fld := ⟨385, .glob 0x3700030 0 1, 4, 4, .rw, 0, .warm, 0, 1⟩
/-- R504 -/
def EVAC_CTRL_GO : Fld := ⟨386, .glob 0x3700030 0 1, 31, 31, .w1s, 0, .warm, 0, 1⟩
/-- R504 -/
def EVAC_DRAIN : Fld := ⟨387, .glob 0x3700034 0 1, 15, 0, .rw, 100, .warm, 1, 65535⟩
/-- R504 -/
def EVAC_STATUS_BUSY : Fld := ⟨388, .glob 0x3700038 0 1, 0, 0, .ro, 0, .warm, 0, 1⟩
/-- R504 -/
def EVAC_STATUS_ERR : Fld := ⟨389, .glob 0x3700038 0 1, 1, 1, .w1c, 0, .warm, 0, 1⟩
/-- R504 -/
def EVAC_STATUS_CAUSE : Fld := ⟨390, .glob 0x3700038 0 1, 15, 8, .ro, 0, .warm, 0, 255⟩
/-- R504 -/
def EVAC_STATUS_EVACUATED : Fld := ⟨391, .glob 0x3700038 0 1, 19, 16, .ro, 0, .cold, 0, 15⟩
/-- R504 -/
def FW_STATUS_RUNNING : Fld := ⟨392, .glob 0x370003C 0 1, 0, 0, .ro, 0, .cold, 0, 1⟩
/-- R504 -/
def FW_STATUS_BOOT : Fld := ⟨393, .glob 0x370003C 0 1, 1, 1, .ro, 0, .cold, 0, 1⟩
/-- R504 -/
def FW_STATUS_ACTIVATING : Fld := ⟨394, .glob 0x370003C 0 1, 2, 2, .ro, 0, .cold, 0, 1⟩
/-- R504 -/
def FW_STATUS_ROLLED_BACK : Fld := ⟨395, .glob 0x370003C 0 1, 3, 3, .w1c, 0, .cold, 0, 1⟩
/-- R504 -/
def FW_STATUS_STAGED : Fld := ⟨396, .glob 0x370003C 0 1, 4, 4, .ro, 0, .cold, 0, 1⟩
/-- R504 -/
def LOG_COUNT : Fld := ⟨397, .glob 0x3700040 0 1, 31, 0, .ro, 0, .cold, 0, 2 ^ 32 - 1⟩
/-- R504 -/
def HANG_COUNT : Fld := ⟨398, .glob 0x3700044 0x4 4, 31, 0, .rc, 0, .warm, 0, 2 ^ 32 - 1⟩
/-- R504 -/
def HANG_OTHER : Fld := ⟨399, .glob 0x3700054 0 1, 31, 0, .rc, 0, .warm, 0, 2 ^ 32 - 1⟩
/-- R505 -/
def PHOTO_T0 : Fld := ⟨400, .glob 0x3600300 0 1, 63, 0, .rw, 0, .cold, 0, 2 ^ 64 - 1⟩
/-- R505 -/
def PHOTO_T1 : Fld := ⟨401, .glob 0x3600308 0 1, 63, 0, .rw, 0, .cold, 0, 2 ^ 64 - 1⟩
/-- R505 -/
def PHOTO_CTRL_ARM0 : Fld := ⟨402, .glob 0x3600310 0 1, 0, 0, .w1s, 0, .cold, 0, 1⟩
/-- R505 -/
def PHOTO_CTRL_ARM1 : Fld := ⟨403, .glob 0x3600310 0 1, 1, 1, .w1s, 0, .cold, 0, 1⟩
/-- R505 -/
def PHOTO_MASK0 : Fld := ⟨404, .glob 0x3600314 0 1, 24, 0, .rw, 0x1ffffff, .cold, 0, 2 ^ 25 - 1⟩
/-- R505 -/
def PHOTO_MASK1 : Fld := ⟨405, .glob 0x3600318 0 1, 24, 0, .rw, 0x1ffffff, .cold, 0, 2 ^ 25 - 1⟩
/-- R505 -/
def PHOTO_STATUS_VALID0 : Fld := ⟨406, .glob 0x360031C 0 1, 0, 0, .ro, 0, .cold, 0, 1⟩
/-- R505 -/
def PHOTO_STATUS_VALID1 : Fld := ⟨407, .glob 0x360031C 0 1, 1, 1, .ro, 0, .cold, 0, 1⟩
/-- R505 -/
def PHOTO_STATUS_ARMED0 : Fld := ⟨408, .glob 0x360031C 0 1, 2, 2, .ro, 0, .cold, 0, 1⟩
/-- R505 -/
def PHOTO_STATUS_ARMED1 : Fld := ⟨409, .glob 0x360031C 0 1, 3, 3, .ro, 0, .cold, 0, 1⟩
/-- R505 -/
def PHOTO_LATE0 : Fld := ⟨410, .glob 0x3600320 0 1, 24, 0, .ro, 0, .cold, 0, 2 ^ 25 - 1⟩
/-- R505 -/
def PHOTO_LATE1 : Fld := ⟨411, .glob 0x3600324 0 1, 24, 0, .ro, 0, .cold, 0, 2 ^ 25 - 1⟩
/-- R505 -/
def PHOTO_VIEW_UNIT0 : Fld := ⟨412, .glob 0x3600328 0 1, 4, 0, .rw, 0, .cold, 0, 31⟩
/-- R505 -/
def PHOTO_VIEW_UNIT1 : Fld := ⟨413, .glob 0x3600328 0 1, 12, 8, .rw, 0, .cold, 0, 31⟩
/-- R505 -/
def PHOTO_LATE_TIME0 : Fld := ⟨414, .glob 0x3600400 0x8 25, 63, 0, .ro, 0, .cold, 0, 2 ^ 64 - 1⟩
/-- R505 -/
def PHOTO_LATE_TIME1 : Fld := ⟨415, .glob 0x3600500 0x8 25, 63, 0, .ro, 0, .cold, 0, 2 ^ 64 - 1⟩
/-- R506 -/
def ERR_FIRST : Fld := ⟨416, .glob 0x2000200 0x100000 25, 255, 0, .ro, 0, .cold, 0, 2 ^ 256 - 1⟩
/-- R506 -/
def ERR_NEXT : Fld := ⟨417, .glob 0x2000220 0x100000 25, 255, 0, .ro, 0, .cold, 0, 2 ^ 256 - 1⟩
/-- R506 -/
def ERR_COUNT : Fld := ⟨418, .glob 0x2000240 0x100000 25, 31, 0, .rc, 0, .cold, 0, 2 ^ 32 - 1⟩
/-- R506 -/
def ERR_STATUS_FIRST_V : Fld := ⟨419, .glob 0x2000244 0x100000 25, 0, 0, .w1c, 0, .cold, 0, 1⟩
/-- R506 -/
def ERR_STATUS_NEXT_V : Fld := ⟨420, .glob 0x2000244 0x100000 25, 1, 1, .w1c, 0, .cold, 0, 1⟩
/-- R506 -/
def ERR_CORR : Fld := ⟨421, .glob 0x2000248 0x100000 25, 31, 0, .rc, 0, .cold, 0, 2 ^ 32 - 1⟩
/-- R507 -/
def HOST_HB : Fld := ⟨422, .pfz 0x120, 31, 0, .wo, 0, .warm, 0, 2 ^ 32 - 1⟩
/-- R507 -/
def HOST_STATUS_HOST_UP : Fld := ⟨423, .ifz 0x3040, 0, 0, .ro, 0, .warm, 0, 1⟩
/-- R507 -/
def HOST_STATUS_VECTOR : Fld := ⟨424, .ifz 0x3040, 26, 16, .rw, 0, .func, 0, 2047⟩
/-- R528 -/
def PWR_CAP_LIMIT : Fld := ⟨425, .glob 0x3701000 0 1, 9, 0, .rw, 0, .cold, 0, 1023⟩
/-- R528 -/
def PWR_CAP_EN : Fld := ⟨426, .glob 0x3701000 0 1, 16, 16, .rw, 1, .cold, 0, 1⟩
/-- R528 -/
def PWR_CAP_WINDOW : Fld := ⟨427, .glob 0x3701004 0 1, 9, 0, .rw, 10, .cold, 1, 1000⟩
/-- R528 -/
def PWR_CAP_HYST : Fld := ⟨428, .glob 0x3701004 0 1, 23, 16, .rw, 10, .cold, 0, 255⟩
/-- R528 -/
def PWR_CAP_ORDER : Fld := ⟨429, .glob 0x3701008 0 1, 15, 0, .rw, 0x3210, .cold, 0, 65535⟩
/-- R528 -/
def PWR_MEAS : Fld := ⟨430, .glob 0x370100C 0 1, 15, 0, .ro, 0, .cold, 0, 65535⟩
/-- R528 -/
def PWR_STATUS_CAPPING : Fld := ⟨431, .glob 0x3701010 0 1, 0, 0, .ro, 0, .cold, 0, 1⟩
/-- R528 -/
def PWR_STATUS_CAP_FLOOR : Fld := ⟨432, .glob 0x3701010 0 1, 1, 1, .ro, 0, .cold, 0, 1⟩
/-- R528 -/
def PWR_STATUS_THERMAL : Fld := ⟨433, .glob 0x3701010 0 1, 2, 2, .ro, 0, .cold, 0, 1⟩
/-- R528 -/
def PWR_STATUS_TRIPPED : Fld := ⟨434, .glob 0x3701010 0 1, 3, 3, .ro, 0, .cold, 0, 1⟩
/-- R528 -/
def PWR_STATUS_STANDBY : Fld := ⟨435, .glob 0x3701010 0 1, 4, 4, .ro, 0, .cold, 0, 1⟩
/-- R528 -/
def PWR_STATUS_WOKE : Fld := ⟨436, .glob 0x3701010 0 1, 5, 5, .w1c, 0, .cold, 0, 1⟩
/-- R528 -/
def PWR_STATUS_STBY_ERR : Fld := ⟨437, .glob 0x3701010 0 1, 6, 6, .w1c, 0, .cold, 0, 1⟩
/-- R528 -/
def THERM_CFG_THROTTLE : Fld := ⟨438, .glob 0x3701014 0 1, 7, 0, .rw, 100, .cold, 80, 100⟩
/-- R528 -/
def THERM_CFG_TRIP : Fld := ⟨439, .glob 0x3701014 0 1, 15, 8, .rwl, 110, .cold, 105, 115⟩
/-- R528 -/
def THERM_CFG_LOCK : Fld := ⟨440, .glob 0x3701014 0 1, 16, 16, .w1s, 0, .cold, 0, 1⟩
/-- R528 -/
def THERM_TEMP : Fld := ⟨441, .glob 0x3701020 0x4 8, 15, 0, .ro, 0, .cold, 0, 65535⟩
/-- R528 -/
def THERM_MAX : Fld := ⟨442, .glob 0x3701040 0 1, 15, 0, .rc, 0, .cold, 0, 65535⟩
/-- R528 -/
def PWR_CAP_STEPS : Fld := ⟨443, .glob 0x3701044 0 1, 31, 0, .rc, 0, .cold, 0, 2 ^ 32 - 1⟩
/-- R528 -/
def PWR_CLK_XPORT : Fld := ⟨444, .glob 0x3701060 0x4 4, 4, 0, .ro, 0, .tile, 0, 31⟩
/-- R528 -/
def PWR_CLK_COLL : Fld := ⟨445, .glob 0x3701060 0x4 4, 12, 8, .ro, 0, .tile, 0, 31⟩
/-- R528 -/
def PWR_CLK_MARA : Fld := ⟨446, .glob 0x3701060 0x4 4, 20, 16, .ro, 0, .tile, 0, 31⟩
/-- R528 -/
def PWR_CLK_SVC : Fld := ⟨447, .glob 0x3701060 0x4 4, 28, 24, .ro, 0, .tile, 0, 31⟩
/-- R528 -/
def PWR_CTRL_STANDBY : Fld := ⟨448, .glob 0x3701080 0 1, 0, 0, .w1s, 0, .cold, 0, 1⟩
/-- R528 -/
def PWR_CTRL_KEY : Fld := ⟨449, .glob 0x3701080 0 1, 31, 16, .wo, 0, .cold, 0, 65535⟩
/-- R528 -/
def CLK_STATUS_LOST : Fld := ⟨450, .glob 0x3701090 0 1, 4, 0, .ro, 0, .cold, 0, 31⟩
/-- R528 -/
def CLK_LOST_STICKY : Fld := ⟨451, .glob 0x3701094 0 1, 4, 0, .w1c, 0, .cold, 0, 31⟩
/-- R552 -/
def PCIE_LINK_STATUS_SPEED : Fld := ⟨452, .pcieSub 0x0, 2, 0, .ro, 0, .warm, 0, 7⟩
/-- R552 -/
def PCIE_LINK_STATUS_WIDTH : Fld := ⟨453, .pcieSub 0x0, 8, 4, .ro, 0, .warm, 0, 31⟩
/-- R552 -/
def PCIE_LINK_STATUS_FLIT : Fld := ⟨454, .pcieSub 0x0, 9, 9, .ro, 0, .warm, 0, 1⟩
/-- R552 -/
def PCIE_LINK_STATUS_DL_UP : Fld := ⟨455, .pcieSub 0x0, 10, 10, .ro, 0, .warm, 0, 1⟩
/-- R552 -/
def PCIE_PORT_CFG_SRIS : Fld := ⟨456, .pcie 0x4, 0, 0, .rw, 0, .cold, 0, 1⟩
/-- R552 -/
def PCIE_PORT_CFG_L0P_EN : Fld := ⟨457, .pcie 0x4, 1, 1, .rw, 1, .cold, 0, 1⟩
/-- R552 -/
def PCIE_ACK_CFG_DMWR_EN : Fld := ⟨458, .pcie 0x8, 0, 0, .rw, 0, .warm, 0, 1⟩
/-- R552 -/
def PCIE_ACK_CFG_ATOMIC_EN : Fld := ⟨459, .pcie 0x8, 1, 1, .rw, 0, .warm, 0, 1⟩
/-- R552 -/
def PCIE_ACK_CFG_HOLD : Fld := ⟨460, .pcie 0x8, 15, 8, .rw, 100, .warm, 0, 255⟩
/-- R552 -/
def PCIE_ACK_STATUS_USE_DMWR : Fld := ⟨461, .pcieSub 0xC, 0, 0, .ro, 0, .warm, 0, 1⟩
/-- R552 -/
def PCIE_ACK_STATUS_CPL_DMWR : Fld := ⟨462, .pcieSub 0xC, 1, 1, .ro, 0, .warm, 0, 1⟩
/-- R552 -/
def PCIE_ACK_STATUS_ROUTE_DMWR : Fld := ⟨463, .pcieSub 0xC, 2, 2, .ro, 0, .warm, 0, 1⟩
/-- R552 -/
def PCIE_ACK_STATUS_USE_ATOMIC : Fld := ⟨464, .pcieSub 0xC, 3, 3, .ro, 0, .warm, 0, 1⟩
/-- R552 -/
def PCIE_ACK_STATUS_CPL_ATOMIC : Fld := ⟨465, .pcieSub 0xC, 4, 4, .ro, 0, .warm, 0, 1⟩
/-- R552 -/
def PCIE_ACK_STATUS_ROUTE_ATOMIC : Fld := ⟨466, .pcieSub 0xC, 5, 5, .ro, 0, .warm, 0, 1⟩
/-- R552 -/
def PCIE_ACK_STATUS_UR_SEEN : Fld := ⟨467, .pcieSub 0xC, 6, 6, .w1c, 0, .warm, 0, 1⟩
/-- R552 -/
def PCIE_ACK_DMWR : Fld := ⟨468, .pcieSub 0x100, 31, 0, .rc, 0, .warm, 0, 2 ^ 32 - 1⟩
/-- R552 -/
def PCIE_ACK_READBACK : Fld := ⟨469, .pcieSub 0x104, 31, 0, .rc, 0, .warm, 0, 2 ^ 32 - 1⟩
/-- R552 -/
def PCIE_MRS : Fld := ⟨470, .pcieSub 0x108, 31, 0, .rc, 0, .warm, 0, 2 ^ 32 - 1⟩
/-- R552 -/
def PCIE_LINK_DOWNS : Fld := ⟨471, .pcieSub 0x10C, 31, 0, .rc, 0, .cold, 0, 2 ^ 32 - 1⟩
/-- R552 -/
def PCIE_CPL_TIMEOUTS : Fld := ⟨472, .pcieSub 0x110, 31, 0, .rc, 0, .warm, 0, 2 ^ 32 - 1⟩
/-- R552 -/
def PCIE_AER_MSGS : Fld := ⟨473, .pcieSub 0x114, 31, 0, .rc, 0, .warm, 0, 2 ^ 32 - 1⟩
/-- R552 -/
def PCIE_IN_DISCARDS : Fld := ⟨474, .pcieSub 0x118, 31, 0, .rc, 0, .warm, 0, 2 ^ 32 - 1⟩
/-- R553 -/
def ACC_PORT_STATUS_EP : Fld := ⟨475, .glob 0x2E0A010 0x100000 4, 0, 0, .ro, 0, .cold, 0, 1⟩
/-- R553 -/
def ACC_PORT_STATUS_BIF : Fld := ⟨476, .glob 0x2E0A010 0x100000 4, 1, 1, .ro, 0, .cold, 0, 1⟩
/-- R553 -/
def ACC_CPL_TIMEOUT : Fld := ⟨477, .glob 0x2E0A014 0x100000 4, 25, 0, .rw, 0xc350, .warm, 50, 64000000⟩
/-- R553 -/
def ACC_DB_BASE : Fld := ⟨478, .glob 0x2E0A018 0x100000 4, 63, 24, .rw, 0, .warm, 0, 2 ^ 40 - 1⟩
/-- R553 -/
def ACC_DB_FUNC : Fld := ⟨479, .glob 0x2E0A020 0x100000 4, 9, 0, .rw, 0, .warm, 0, 1023⟩
/-- R553 -/
def ACC_DB_EN : Fld := ⟨480, .glob 0x2E0A020 0x100000 4, 31, 31, .rw, 0, .warm, 0, 1⟩
/-- R553 -/
def ACC_BIF_B_BASE : Fld := ⟨481, .glob 0x2E0A028 0x100000 4, 63, 12, .rw, 0, .warm, 0, 2 ^ 52 - 1⟩
/-- R553 -/
def ACC_BIF_B_LIMIT : Fld := ⟨482, .glob 0x2E0A030 0x100000 4, 63, 12, .rw, 0, .warm, 0, 2 ^ 52 - 1⟩
/-- R553 -/
def ACC_CFG_ADDR_REG : Fld := ⟨483, .glob 0x2E0A038 0x100000 4, 11, 2, .rw, 0, .warm, 0, 1023⟩
/-- R553 -/
def ACC_CFG_ADDR_FN : Fld := ⟨484, .glob 0x2E0A038 0x100000 4, 14, 12, .rw, 0, .warm, 0, 7⟩
/-- R553 -/
def ACC_CFG_ADDR_DEV : Fld := ⟨485, .glob 0x2E0A038 0x100000 4, 19, 15, .rw, 0, .warm, 0, 31⟩
/-- R553 -/
def ACC_CFG_ADDR_BUS : Fld := ⟨486, .glob 0x2E0A038 0x100000 4, 27, 20, .rw, 0, .warm, 0, 255⟩
/-- R553 -/
def ACC_CFG_ADDR_SUBLINK : Fld := ⟨487, .glob 0x2E0A038 0x100000 4, 28, 28, .rw, 0, .warm, 0, 1⟩
/-- R553 -/
def ACC_CFG_DATA : Fld := ⟨488, .glob 0x2E0A040 0x100000 4, 31, 0, .rw, 0, .warm, 0, 2 ^ 32 - 1⟩
/-- R553 -/
def ACC_PORT_CTRL_RESCAN : Fld := ⟨489, .glob 0x2E0A044 0x100000 4, 0, 0, .w1s, 0, .warm, 0, 1⟩
/-- R553 -/
def ACC_PORT_CTRL_DPC_RELEASE : Fld := ⟨490, .glob 0x2E0A044 0x100000 4, 1, 1, .w1s, 0, .warm, 0, 1⟩
/-- R554 -/
def DEV_ID_PART : Fld := ⟨491, .func 0x0, 15, 0, .ro, 9, .cold, 0, 65535⟩
/-- R554 -/
def DEV_ID_CODE : Fld := ⟨492, .func 0x0, 19, 16, .ro, 0, .cold, 0, 15⟩
/-- R554 -/
def DEV_ID_STEPPING : Fld := ⟨493, .func 0x0, 27, 20, .ro, 0, .cold, 0, 255⟩
/-- R554 -/
def FUNC_ID_ID : Fld := ⟨494, .func 0x4, 9, 0, .ro, 0, .cold, 0, 1023⟩
/-- R554 -/
def FUNC_ID_VF : Fld := ⟨495, .func 0x4, 10, 10, .ro, 0, .cold, 0, 1⟩
/-- R554 -/
def FUNC_ID_INTERNAL : Fld := ⟨496, .func 0x4, 11, 11, .ro, 0, .cold, 0, 1⟩
/-- R554 -/
def FUNC_ID_PF : Fld := ⟨497, .func 0x4, 25, 16, .ro, 0, .cold, 0, 1023⟩
/-- R554 -/
def UNITS_PRESENT : Fld := ⟨498, .func 0x8, 24, 0, .ro, 0, .cold, 0, 2 ^ 25 - 1⟩
/-- R554 -/
def READY_MAP : Fld := ⟨499, .func 0xC, 24, 0, .ro, 0, .cold, 0, 2 ^ 25 - 1⟩
/-- R554 -/
def ISLAND_READY : Fld := ⟨500, .func 0x10, 37, 0, .ro, 0, .cold, 0, 2 ^ 38 - 1⟩
/-- R554 -/
def BEHAV_LEVEL_CURRENT : Fld := ⟨501, .func 0x18, 7, 0, .ro, 0, .cold, 0, 255⟩
/-- R554 -/
def BEHAV_LEVEL_NEXT : Fld := ⟨502, .func 0x18, 15, 8, .rw, 0, .cold, 0, 255⟩
/-- R554 -/
def BEHAV_LEVEL_LEVELS : Fld := ⟨503, .func 0x18, 18, 16, .ro, 0, .cold, 0, 7⟩
/-- R554 -/
def BEHAV_LEVEL_BUSY : Fld := ⟨504, .func 0x18, 24, 24, .ro, 0, .warm, 0, 1⟩
/-- R554 -/
def SERIAL : Fld := ⟨505, .func 0x20, 63, 0, .ro, 0, .cold, 0, 2 ^ 64 - 1⟩
/-- R554 -/
def DB_DISCARDS : Fld := ⟨506, .func 0x28, 31, 0, .rc, 0, .func, 0, 2 ^ 32 - 1⟩
/-- R214 -/
def GATE_LIST : Fld := ⟨507, .portArr 0x0 8 2048, 63, 0, .rw, 0, .cold, 0, 2 ^ 64 - 1⟩
/-- R279 -/
def ETH_LOCAL_V : Fld := ⟨508, .portArr 0x5000 32 256, 0, 0, .rw, 0, .cold, 0, 1⟩
/-- R279 -/
def ETH_LOCAL_IPV6 : Fld := ⟨509, .portArr 0x5000 32 256, 1, 1, .rw, 0, .cold, 0, 1⟩
/-- R279 -/
def ETH_LOCAL_ADDR : Fld := ⟨510, .portArr 0x5000 32 256, 255, 128, .rw, 0, .cold, 0, 2 ^ 128 - 1⟩
/-- R276 -/
def WAKE_PATTERN : Fld := ⟨511, .glob 0x2C01100 0x90 16, 1023, 0, .rw, 0, .cold, 0, 2 ^ 1024 - 1⟩
/-- R276 -/
def WAKE_MASK : Fld := ⟨512, .glob 0x2C01100 0x90 16, 1151, 1024, .rw, 0, .cold, 0, 2 ^ 128 - 1⟩
/-- R240 -/
def FAB_GROUP_PORTS : Fld := ⟨513, .glob 0x3608000 4 1024, 15, 0, .rw, 0, .cold, 0, 65535⟩
/-- R240 -/
def FAB_GROUP_V : Fld := ⟨514, .glob 0x3608000 4 1024, 16, 16, .rw, 0, .cold, 0, 1⟩
/-- R240 -/
def FAB_GROUP_HOP_OK : Fld := ⟨515, .glob 0x3608000 4 1024, 17, 17, .rw, 0, .cold, 0, 1⟩
/-- R240 -/
def FAB_MEMBER_PORTS : Fld := ⟨516, .glob 0x3609000 4 512, 15, 0, .rw, 0, .cold, 0, 65535⟩
/-- R240 -/
def FAB_MEMBER_V : Fld := ⟨517, .glob 0x3609000 4 512, 16, 16, .rw, 0, .cold, 0, 1⟩
/-- R244 -/
def FAB_MC_GROUP : Fld := ⟨518, .glob 0x3680000 16 8192, 16, 0, .rw, 0, .cold, 0, 2 ^ 17 - 1⟩
/-- R244 -/
def FAB_MC_V : Fld := ⟨519, .glob 0x3680000 16 8192, 31, 31, .rw, 0, .cold, 0, 1⟩
/-- R244 -/
def FAB_MC_NET : Fld := ⟨520, .glob 0x3680000 16 8192, 47, 32, .rw, 0, .cold, 0, 65535⟩
/-- R244 -/
def FAB_MC_TILES : Fld := ⟨521, .glob 0x3680000 16 8192, 51, 48, .rw, 0, .cold, 0, 15⟩
/-- R244 -/
def FAB_MC_WIN : Fld := ⟨522, .glob 0x3680000 16 8192, 52, 52, .rw, 0, .cold, 0, 1⟩
/-- R244 -/
def FAB_MC_WINDOW : Fld := ⟨523, .glob 0x3680000 16 8192, 87, 64, .rw, 0, .cold, 0, 2 ^ 24 - 1⟩

def list0 : List Fld :=
    [FETCH_CFG_DB_RETRY, FETCH_CFG_DB_RETRY_INTERVAL, ADMIN_SQ_BASE_ADDR, ADMIN_CQ_BASE_ADDR, ADMIN_EQ_BASE_ADDR,
   ADMIN_CFG_SQ_LOG2, ADMIN_CFG_CQ_LOG2, ADMIN_CFG_EQ_LOG2, ADMIN_CFG_LOC, ADMIN_CTRL_ENABLE, ADMIN_STATUS_READY,
   ADMIN_STATUS_ERR, ADMIN_STATUS_CAUSE, XLATE_ASID_BASE_LOC, XLATE_ASID_BASE_ADDR, XLATE_ASID_CFG_LOG2_ENTRIES,
   XLATE_FCTX_BASE_LOC, XLATE_FCTX_BASE_ADDR, XLATE_WIN_BASE_LOC, XLATE_WIN_BASE_ADDR, XLATE_WIN_CFG_LOG2_ENTRIES,
   XLATE_INV_CFG_DRAIN_LIMIT, XLATE_PRI_CFG_TIMEOUT, XLATE_CTRL_LOCK, XLATE_WALKS, XLATE_TC_MISSES,
   FAULT_STATUS_OVERFLOW, FAULT_LOST, CONN_STEER_HOME, CONN_STEER_V, CONN_STEER_MOVING, CONN_SPILL_BASE_ADDR,
   CONN_CFG_BLOCKS, CONN_MISS_CFG_SHARE, CONN_CTRL_LOCK, CONN_NO_BLOCK, CONN_HITS, CONN_MISSES, CONN_SPILLS,
   CONN_BUSY_SENT]
def list1 : List Fld :=
    [CONN_BUSY_DISCARDS, CONN_DEAD_DISCARDS, CONN_PEER_MISMATCH, CONN_PINNED, CONN_MISS_BYTES, RD_TIMER_RTO_BASE,
   RD_TIMER_RETRY_LIMIT, RD_RESET_BACKOFF, RD_RESET_LIMIT, RD_ACK_COALESCE, RD_ACK_DELAY, RD_BUSY_LIMIT,
   CONN_QUARANTINE, RD_RESET_SENT, RD_RESET_DISCARDS, RD_RETRANS, RD_TIMEOUTS, RD_NAK_SENT, RD_NAK_RCVD, RD_DUP,
   RD_STALE, RD_AHEAD, RD_BUSY_RCVD, RD_RESET_RCVD, RD_EXPIRED, RD_GIVEUPS, LANE_START_WEIGHT,
   PACER_CFG_DEC_INTERVAL, PACER_CFG_CNP_INTERVAL, PACER_NOTIFY, PACER_MERGED, PACER_FLOORED, PACER_PROF_LINE_RATE,
   PACER_PROF_AI, PACER_PROF_HAI, PACER_PROF_HYPER_AFTER, PACER_PROF_MIN, PACER_PROF_PERIOD, PACER_PROF_G_SHIFT,
   PACER_PROF_REACT]
def list2 : List Fld :=
    [PACER_PROF_BURST, METER_CIR, METER_EN, METER_AWARE, METER_RED_ACTION, METER_PIR, METER_CBS, METER_PBS,
   METER_OVERHEAD, METER_GREEN, METER_YELLOW, METER_RED, METER_BIND_METER, METER_BIND_EN, PORT_LANE_WEIGHT,
   PORT_L0_CAP, PORT_L0_BURST, PORT_OVERHEAD, PORT_ECN_KMIN, PORT_ECN_KMAX, PORT_ECN_PMAX, GATE_CTRL_EN,
   GATE_CTRL_SWAP_REQ, GATE_STATUS_ACTIVE, GATE_STATUS_SWAP_PENDING, GATE_STATUS_HOLD, GATE_STATUS_LIST_ACTIVE,
   GATE_PEND_BASE, GATE_PEND_CYCLE, GATE_PEND_LEN, GATE_ACT_BASE, GATE_ACT_CYCLE, GATE_ACT_LEN, GATE_SWAP_TIME,
   GATE_OVERRUN, GATE_REALIGN, PORT_ECN_MARKED, FAB_EP_ID, FAB_CTRL_FWD_EN, FAB_CTRL_DRAIN]
def list3 : List Fld :=
    [FAB_LANE_CFG_MIN_ONLY, FAB_EPOCH_CUR, FAB_EPOCH_COMMIT, FAB_EPOCH_FLIP, FAB_EPOCH_COMMITTED,
   FAB_EPOCH_SETTLING, FAB_EPOCH_FORCE, FAB_EPOCH_SETTLE, FAB_FLIP_AT, FAB_STATUS_LIVE_CONN, FAB_NO_ROUTE,
   FAB_HOP_DISCARDS, FAB_EXPIRED, FAB_BAD_PKT, FAB_MC_MISS, FAB_EPOCH_DISCARDS, FAB_TRANSIT_DISCARDS,
   LINK_CFG_NATIVE, LINK_CFG_RETRY_MAX, LINK_CRED_SHARE, LINK_STATUS_UP, LINK_STATUS_TRAINING, LINK_STATUS_PEER_EP,
   LINK_CRC_ERR, LINK_REPLAYS, LINK_DOWNS, LINK_DOWN_DISCARDS, ETH_GRP_CFG_MODE, ETH_SPARE_CFG_THRESH,
   ETH_SPARE_CFG_WINDOWS, ETH_SPARE_CFG_AUTO, ETH_SPARE_CTRL_LANE, ETH_SPARE_CTRL_REQ, ETH_SPARE_MAP_FAILED,
   ETH_SPARE_MAP_USED, ETH_SPARE_STATUS_BUSY, ETH_SPARE_STATUS_EXHAUSTED, ETH_LANE_CORR, ETH_LANE_UNCORR,
   ETH_WAKE_CFG_MAGIC_EN]
def list4 : List Fld :=
    [ETH_WAKE_CFG_PAT_EN, ETH_WAKE_CFG_LINK_EN, ETH_WAKE_STATUS, ETH_MAC, ETH_CFG_MAX_FRAME, ETH_CFG_CR,
   ETH_PCP_LANE, ETH_L0_MARK_DSCP, ETH_L0_MARK_PCP, ETH_PFC_EN, ETH_PFC_HEADROOM, ETH_PREEMPT_EN,
   ETH_PREEMPT_VERIFY_DIS, ETH_PREEMPT_ADD_FRAG, ETH_PREEMPT_VERIFY_TIME, ETH_PREEMPT_STATUS_ACTIVE,
   ETH_PREEMPT_STATUS_VERIFY, ETH_MACSEC_CFG_EN, ETH_MACSEC_CFG_STRICT, ETH_MACSEC_CFG_CONF_OFFSET,
   ETH_MACSEC_CFG_PTP_BYPASS, ETH_MACSEC_CFG_INCLUDE_SCI, ETH_MACSEC_WINDOW, ETH_TS_ADJ_TX, ETH_TS_ADJ_RX,
   ETH_TS_CFG_ONE_STEP_SYNC, ETH_TS_CFG_ONE_STEP_PDELAY, ETH_TS_FIFO_SEQ_ID, ETH_TS_FIFO_MSG_TYPE,
   ETH_TS_FIFO_DOMAIN, ETH_TS_FIFO_VALID, ETH_TS_NS, ETH_TS_SEC, ETH_LS_EN, ETH_LS_MIN_LANES, ETH_LS_THRESH,
   ETH_LS_RESTORE, ETH_LS_DWELL, ETH_LS_STATUS_LANES, ETH_LS_STATUS_RETRAINING]
def list5 : List Fld :=
    [ETH_STATUS_UP, ETH_STATUS_AN_DONE, ETH_EXC_CFG, ETH_TX_FRAMES, ETH_TX_BYTES, ETH_RX_FRAMES, ETH_RX_BYTES,
   ETH_RX_CODE_ERR, ETH_RX_RUNT, ETH_RX_OVERSIZE, ETH_RX_FCS_ERR, ETH_RX_MACCTL_DROP, ETH_RX_DA_MISS,
   ETH_RX_ETYPE_DROP, ETH_RX_IP_ERR, ETH_RX_DIP_MISS, ETH_RX_L4_DROP, ETH_RX_OPCODE_DROP, ETH_RX_ICRC_ERR,
   ETH_RX_LANE_FULL, ETH_RX_PFC, ETH_TX_PFC, ETH_TX_FRAG, ETH_RX_ASSY_ERR, ETH_MACSEC_ICV_FAIL, ETH_MACSEC_NO_SA,
   ETH_MACSEC_LATE, ETH_MACSEC_UNPROT, ETH_TS_LOST, ETH_CNP_SENT, ETH_CNP_RCVD, ETH_EXC_FRAMES, COLL_LAP_WINDOW,
   COLL_ALG_TREE_MAX, COLL_ALG_MC_MIN, COLL_CHUNK_LOG2, COLL_CTRL_LOCK, COLL_ABORT_REPEAT, COLL_ABORT_INTERVAL,
   COLL_MC_REPAIR]
def list6 : List Fld :=
    [COLL_HEATS_OK, COLL_HEATS_ABORTED, COLL_ABORTS_SENT, COLL_ABORTS_RCVD, COLL_MC_REPAIRS, COLL_ACTIVE,
   LAP_SLOWEST_GROUP, LAP_SLOWEST_BIB, LAP_SLOWEST_LATE, LAP_SLOWEST_LAP, REDUCE_SAT, REDUCE_NAN, REDUCE_TRUNC,
   MARA_CFG_MAX_REQ, MARA_REQS, MARA_SERVED, MARA_BLOCKS, MARA_SKIPPED, MARA_EMPTY_ROWS, MARA_NAN_ROWS, MARA_ACTIVE,
   MARA_SEQS, LM_SHARE, LM_SHARE_MAINT_MIN, LM_SCRUB_PERIOD, LM_REPAIR_ROW_THRESH, LM_REPAIR_PIN_THRESH,
   LM_REPAIR_UNIT_THRESH, LM_POOL_TOTAL, LM_POOL_FREE, LM_FUNC_UNITS, LM_FUNC_PERSIST, LM_REPAIR_CTRL_CHANNEL,
   LM_REPAIR_CTRL_PIN, LM_REPAIR_CTRL_BANK, LM_REPAIR_CTRL_ROW_REQ, LM_REPAIR_CTRL_PIN_REQ, LM_REPAIR_ROW,
   LM_SPARE_STATUS_PINS, LM_SPARE_STATUS_PIN_EXHAUSTED]
def list7 : List Fld :=
    [LM_SPARE_STATUS_BUSY, LM_CORR, LM_UNCORR, LM_POISON_READS, LM_SCRUB_PASSES, LM_ROWS_SPARED, LM_UNITS_RETIRED,
   STRIDE_DREQ_POL, STRIDE_RX_THRESH, STRIDE_DESC_DONE, STRIDE_DESC_BAD, STRIDE_BYTES, STRIDE_CH_CFG_PORT,
   STRIDE_CH_CFG_DIR, STRIDE_CH_CFG_REQ_LINE, STRIDE_CH_CFG_BURST_LOG2, STRIDE_CH_CFG_IX4_STOP, STRIDE_CH_CFG_OWNER,
   STRIDE_CH_CTRL_PAUSE, STRIDE_CH_CTRL_RESUME, STRIDE_CH_CTRL_STOP, STRIDE_CH_STATUS_STATE,
   STRIDE_CH_STATUS_REQ_OVF, STRIDE_CH_STATUS_STOP_PENDING, STRIDE_CH_REQS, STRIDE_CH_DESC, STRIDE_CH_ROW,
   STRIDE_CH_REM, CIPH_CFG_TAG_LIMIT, VAULT_STATUS_DRK, VAULT_STATUS_ES_OK, VAULT_STATUS_DRBG_OK,
   VAULT_STATUS_SLOTS, VAULT_SLOT_MAP, VAULT_DERIVES, VAULT_ES_FAILS, VAULT_RESEEDS, CIPH_ENC_PKTS, CIPH_DEC_PKTS,
   CIPH_TAG_FAIL]
def list8 : List Fld :=
    [CIPH_EPOCH_DISCARDS, CIPH_KEY_MISSES, CIPH_HELD_BUSY, CIPH_HELD_BYTES, CIPH_UNTRUSTED_CONN, CIPH_UNTRUSTED_OFF,
   CIPH_UNTRUSTED_LEN, FUNC_QUOTA_PENDING, FUNC_RESET_ID, FUNC_RESET_GO, FUNC_RESET_STATUS_BUSY,
   FUNC_QUOTA_PEND_ALL, FUNC_LANE_WEIGHT, SVC_CTRL_RESTART, SVC_STATUS_RUNNING, SVC_STATUS_IMAGE_OK, SVC_MEM_PORT,
   SVC_MEM_BASE, SVC_MEM_SIZE, SVC_MEM_LOCK, MBOX_CFG_TIMEOUT, SB_STATUS_UNLOCKED, SB_CFG_RX_OFF, MGMT_RESTARTS,
   MBOX_DATA, MBOX_CTRL_GO, MBOX_CTRL_RELEASE, MBOX_CTRL_RESPOND, MBOX_CTRL_IRQ, MBOX_CTRL_TARGET, MBOX_STATUS_BUSY,
   MBOX_STATUS_DONE, MBOX_STATUS_DOMAIN_DOWN, MBOX_STATUS_TIMEOUT, MBOX_STATUS_CLAIMED, MBOX_STATUS_OWNER,
   EXC_RX_BASE, EXC_RX_CFG_LOG2, EXC_RX_CFG_EN, EXC_RX_CFG_VECTOR]
def list9 : List Fld :=
    [EXC_RX_PROD, EXC_RX_CONS, EXC_RX_DROPS, EXC_TX_BASE, EXC_TX_CFG_LOG2, EXC_TX_CFG_EN, EXC_TX_CFG_VECTOR,
   EXC_TX_PROD, EXC_TX_CONS, RESET_CTRL_WARM, RESET_CTRL_COLD, RESET_CTRL_KEY, RESET_CFG_PERST_WARM,
   RESET_CFG_AUTO_COLD, RESET_STATUS_LAST, RESET_STATUS_FATAL, HOSTLL_CFG_HB_WINDOW, ENG_RESET_TILE,
   ENG_RESET_ENGINE, ENG_RESET_GO, QUEUE_RESET_SQ_ID, QUEUE_RESET_GO, PROG_CFG_WINDOW, EVAC_CTRL_SRC, EVAC_CTRL_DST,
   EVAC_CTRL_MODE, EVAC_CTRL_GO, EVAC_DRAIN, EVAC_STATUS_BUSY, EVAC_STATUS_ERR, EVAC_STATUS_CAUSE,
   EVAC_STATUS_EVACUATED, FW_STATUS_RUNNING, FW_STATUS_BOOT, FW_STATUS_ACTIVATING, FW_STATUS_ROLLED_BACK,
   FW_STATUS_STAGED, LOG_COUNT, HANG_COUNT, HANG_OTHER]
def list10 : List Fld :=
    [PHOTO_T0, PHOTO_T1, PHOTO_CTRL_ARM0, PHOTO_CTRL_ARM1, PHOTO_MASK0, PHOTO_MASK1, PHOTO_STATUS_VALID0,
   PHOTO_STATUS_VALID1, PHOTO_STATUS_ARMED0, PHOTO_STATUS_ARMED1, PHOTO_LATE0, PHOTO_LATE1, PHOTO_VIEW_UNIT0,
   PHOTO_VIEW_UNIT1, PHOTO_LATE_TIME0, PHOTO_LATE_TIME1, ERR_FIRST, ERR_NEXT, ERR_COUNT, ERR_STATUS_FIRST_V,
   ERR_STATUS_NEXT_V, ERR_CORR, HOST_HB, HOST_STATUS_HOST_UP, HOST_STATUS_VECTOR, PWR_CAP_LIMIT, PWR_CAP_EN,
   PWR_CAP_WINDOW, PWR_CAP_HYST, PWR_CAP_ORDER, PWR_MEAS, PWR_STATUS_CAPPING, PWR_STATUS_CAP_FLOOR,
   PWR_STATUS_THERMAL, PWR_STATUS_TRIPPED, PWR_STATUS_STANDBY, PWR_STATUS_WOKE, PWR_STATUS_STBY_ERR,
   THERM_CFG_THROTTLE, THERM_CFG_TRIP]
def list11 : List Fld :=
    [THERM_CFG_LOCK, THERM_TEMP, THERM_MAX, PWR_CAP_STEPS, PWR_CLK_XPORT, PWR_CLK_COLL, PWR_CLK_MARA, PWR_CLK_SVC,
   PWR_CTRL_STANDBY, PWR_CTRL_KEY, CLK_STATUS_LOST, CLK_LOST_STICKY, PCIE_LINK_STATUS_SPEED, PCIE_LINK_STATUS_WIDTH,
   PCIE_LINK_STATUS_FLIT, PCIE_LINK_STATUS_DL_UP, PCIE_PORT_CFG_SRIS, PCIE_PORT_CFG_L0P_EN, PCIE_ACK_CFG_DMWR_EN,
   PCIE_ACK_CFG_ATOMIC_EN, PCIE_ACK_CFG_HOLD, PCIE_ACK_STATUS_USE_DMWR, PCIE_ACK_STATUS_CPL_DMWR,
   PCIE_ACK_STATUS_ROUTE_DMWR, PCIE_ACK_STATUS_USE_ATOMIC, PCIE_ACK_STATUS_CPL_ATOMIC, PCIE_ACK_STATUS_ROUTE_ATOMIC,
   PCIE_ACK_STATUS_UR_SEEN, PCIE_ACK_DMWR, PCIE_ACK_READBACK, PCIE_MRS, PCIE_LINK_DOWNS, PCIE_CPL_TIMEOUTS,
   PCIE_AER_MSGS, PCIE_IN_DISCARDS, ACC_PORT_STATUS_EP, ACC_PORT_STATUS_BIF, ACC_CPL_TIMEOUT, ACC_DB_BASE,
   ACC_DB_FUNC]
def list12 : List Fld :=
    [ACC_DB_EN, ACC_BIF_B_BASE, ACC_BIF_B_LIMIT, ACC_CFG_ADDR_REG, ACC_CFG_ADDR_FN, ACC_CFG_ADDR_DEV,
   ACC_CFG_ADDR_BUS, ACC_CFG_ADDR_SUBLINK, ACC_CFG_DATA, ACC_PORT_CTRL_RESCAN, ACC_PORT_CTRL_DPC_RELEASE,
   DEV_ID_PART, DEV_ID_CODE, DEV_ID_STEPPING, FUNC_ID_ID, FUNC_ID_VF, FUNC_ID_INTERNAL, FUNC_ID_PF, UNITS_PRESENT,
   READY_MAP, ISLAND_READY, BEHAV_LEVEL_CURRENT, BEHAV_LEVEL_NEXT, BEHAV_LEVEL_LEVELS, BEHAV_LEVEL_BUSY, SERIAL,
   DB_DISCARDS, GATE_LIST, ETH_LOCAL_V, ETH_LOCAL_IPV6, ETH_LOCAL_ADDR, WAKE_PATTERN, WAKE_MASK, FAB_GROUP_PORTS,
   FAB_GROUP_V, FAB_GROUP_HOP_OK, FAB_MEMBER_PORTS, FAB_MEMBER_V, FAB_MC_GROUP, FAB_MC_V]
def list13 : List Fld :=
  [FAB_MC_NET, FAB_MC_TILES, FAB_MC_WIN, FAB_MC_WINDOW]

/-- Every register field. -/
def all : List Fld :=
  list0 ++ list1 ++ list2 ++ list3 ++ list4 ++ list5 ++ list6 ++ list7 ++ list8 ++ list9 ++ list10 ++ list11 ++ list12 ++ list13

end Fld
end Sys2Proof.Machine
end

