-- ==== Sys2Proof/Machine/State.lean ====
section
/-!
DEFINITION. The state of the IX9 as plain data. `State` holds the block (`Ix9`), the landing memory contents and the
commands that wait. A field with a default value has that value at reset.
-/

namespace Sys2Proof.Machine

/-- A table by number: pairs in rising order of number. -/
abbrev Tbl (α : Type) := List (Nat × α)

/-! ## Addresses and memory -/

/-- Where a translated address leads (R113). A `remote` target names a far window through a remote descriptor (R115). -/
inductive Target where
  | host
  | landing
  | accel (n : Nat)
  | remote (conn window rkey : Nat)
  deriving DecidableEq, Repr, Inhabited

/-- A translated address: a bus address, an offset in the landing space of `func` (R366), or a window offset. -/
structure Phys where
  target : Target := .host
  addr : Nat := 0
  /-- The function the access is made for: requester id, owner of the landing space. -/
  func : Nat := 0
  noSnoop : Bool := false
  /-- A result of ATS: the access is issued with the Translated attribute (R127). -/
  translated : Bool := false
  deriving DecidableEq, Repr, Inhabited

/-- A memory write on a bus: address, function, attributes (R113, R127) and data. -/
structure BusWrite where
  addr : Nat := 0
  func : Nat := 0
  noSnoop : Bool := false
  translated : Bool := false
  data : List Byte := []
  deriving DecidableEq, Repr, Inhabited

/-- The last 4-byte-aligned location that the write touches (R42). -/
def BusWrite.lastWord (w : BusWrite) : Nat := (w.addr + w.data.length - 1) / 4 * 4

/-- One translated piece of a buffer, with the generation tag of its translation (R120). -/
structure Seg where
  va : Nat
  len : Nat
  phys : Phys
  asid : Nat
  xgen : Nat
  gen : Nat
  /-- The leaf behind it: page size, where its entry lies, and the entry (R111). -/
  page : Nat := 4096
  pteAt : Phys := {}
  pte : Nat := 0
  deriving DecidableEq, Repr

/-- What waits for an acknowledgement of its writes on a path (R38 to R44, R541). -/
inductive Tok where
  /-- A started entry of a submission queue. -/
  | entry (sq slot : Nat)
  /-- A packet executed at this receiver: its PSN is complete once acknowledged (R181). -/
  | rx (conn psn : Nat)
  /-- The completion entry an event is withheld for (R46). -/
  | event (cq prod : Nat)
  /-- The queue-error completion that a type 0x02 event is withheld for (R46, R91): submission queue, event queue, DATA. -/
  | errEvent (sq eq data : Nat)
  /-- The event entry an MSI-X message waits for (R46). -/
  | msi (eq : Nat)
  /-- A fault record and the type 0x03 event after it (R142). -/
  | fault (func : Nat)
  /-- A FAULT_PENDING bit of a function; FAULT_LOST counts after it (R143). -/
  | pendingBit (func : Nat)
  /-- The zero writes of the window table (R133). -/
  | winInit
  /-- A Stride descriptor's data (R394) or its write-back (R395): channel, and number of the descriptor. -/
  | desc (chan k : Nat)
  | descBack (chan k : Nat)
  /-- A member's Heat output (R301), by key of the Heat. -/
  | heat (key : Nat)
  /-- An invalidation, by number (R123 step 4). -/
  | inv (id : Nat)
  /-- A receive record of the exception path: EXC_RX_PROD after it (R455). -/
  | exc (prod : Nat)
  /-- Writes of OP_PREFETCH: copies or leaves (R137). -/
  | prefetch (sq slot : Nat)
  /-- The writes issued for a function that is being reset (R70, R442). -/
  | func (func : Nat)
  deriving DecidableEq, Repr

/-- An acknowledging request in flight (R541). -/
structure AckReq where
  covers : List Tok
  dmwr : Bool
  /-- Retry statuses in a row (R42). -/
  retries : Nat
  /-- The write it carries, or the last write before it (R41, R42). -/
  w : BusWrite
  /-- Functions whose writes it acknowledges. -/
  funcs : List Nat
  deriving DecidableEq, Repr

/-- One path to memory (R38, R541). -/
structure PathSt where
  /-- Waits for a destination acknowledgement that no request covers yet. -/
  waiting : List Tok := []
  /-- Needs a destination acknowledgement and has not issued its last write. -/
  writing : List Tok := []
  /-- Acknowledging requests in flight, oldest first. -/
  reqs : List AckReq := []
  /-- Last writes that wait for their port acknowledgement, oldest first (R38). -/
  port : List Tok := []
  /-- Last write issued (R41, R42). -/
  last : BusWrite := {}
  /-- Functions with writes that no acknowledging request covers yet (R70). -/
  funcs : List Nat := []
  deriving DecidableEq, Repr, Inhabited

/-! ## Queues -/

/-- A ring in memory (R71). -/
structure Ring where
  base : Phys := {}
  log2 : Nat := 0
  deriving DecidableEq, Repr, Inhabited

/-- Where an accepted entry stands. -/
inductive Stage where
  /-- Check 6 of R89 is not finished: translations or the list are awaited. -/
  | translating
  /-- Checked and translated: may start. -/
  | ready
  | started
  /-- Status fixed; the completion may still wait for its order (R34, R39). -/
  | ended
  /-- Completion written or not due. -/
  | done
  deriving DecidableEq, Repr, Inhabited

/-- A buffer of an entry as translated: the pieces in order, and whether the list behind it has been read (R77). -/
structure Buf where
  segs : List Seg := []
  list : Option (List (Nat × Nat)) := none
  deriving DecidableEq, Repr, Inhabited

/-- An accepted entry of a submission queue (R73, R83). -/
structure Entry where
  /-- Free-running number of its first slot. -/
  slot : Nat
  /-- Its slots as 128-bit little-endian numbers. -/
  slots : List Nat
  stage : Stage := .translating
  bufs : List Buf := []
  /-- Outcome: status code, cause, bytes moved and RESULT (R95). -/
  status : Nat := 0
  cause : Nat := 0
  bytes : Nat := 0
  result : Nat := 0
  /-- The entry did start (R18, R91). -/
  ran : Bool := false
  /-- A slot of the completion ring is reserved for it (R96). -/
  resv : Bool := false
  /-- Acknowledgements its writes still lack. -/
  acks : Nat := 0
  /-- Its work is issued in full: it ends when `acks` is 0. -/
  issued : Bool := false
  /-- Stopped under R62 by this invalidation, which counts it (R123, R124). -/
  withdrawn : Option Nat := none
  /-- Source bytes read so far (R27 step 6): offset and bytes. -/
  src : List (Nat × List Byte) := []
  /-- Bytes of the source whose reads have been carried out. -/
  pos : Nat := 0
  /-- The entry has carried out its effect; it waits for something named by its opcode. -/
  phase : Nat := 0
  /-- A translation is awaited at this address (R117). -/
  wait : Option Nat := none
  /-- Epoch and HEAT_SEQ a Heat entry took at acceptance (R291). -/
  heat : Option (Nat × Nat) := none
  deriving DecidableEq, Repr, Inhabited

/-- A phase defence in progress (R87): re-reads still to be issued, re-reads whose data has not come, and LEN once a read
has shown a matching header. -/
structure Reread where
  left : Nat
  out : Nat
  len : Option Nat
  deriving DecidableEq, Repr

/-- A submission queue (R71 to R94). -/
structure Sq where
  func : Nat
  db : Nat := 0
  asid : Nat := 0
  ring : Ring := {}
  /-- The ring's address before translation (R125). -/
  ringVa : Nat := 0
  tile : Nat := 0
  /-- Tile it was created on (R499). -/
  origin : Nat := 0
  lane : Nat := 7
  weight : Nat := 1
  burst : Nat := 1
  cq : Nat := 0
  faultWait : Bool := false
  admin : Bool := false
  /-- L of R85. -/
  lim : Nat := 0
  /-- SQ_CONSUMED of R83. -/
  consumed : Nat := 0
  /-- In error with this status and cause (R91). -/
  err : Option (Nat × Nat) := none
  /-- The queue-error completion is still to be written (R91). -/
  errDue : Bool := false
  reread : Option Reread := none
  entries : List Entry := []
  /-- Paused under FAULT_WAIT at the entry of this slot: fault address, and whether FAULT_PENDING is set (R140, R143). -/
  paused : Option (Nat × Nat × Bool) := none
  /-- Serves as a receive queue (R165). -/
  isRq : Bool := false
  /-- Has started an entry (R165). -/
  everStarted : Bool := false
  /-- An entry since the last FENCE ended with a failure (R37). -/
  failed : Bool := false
  /-- Credit in the round of R94. -/
  credit : Nat := 0
  /-- BURST of the present round (R93). -/
  turn : Nat := 1
  /-- A destroy is in progress: the destroying entry (queue, slot). -/
  dying : Option (Nat × Nat) := none
  deriving DecidableEq, Repr, Inhabited

/-- A completion queue (R95 to R99). -/
structure Cq where
  func : Nat
  db : Nat := 0
  eq : Nat := 0
  ring : Ring := {}
  prod : Nat := 0
  cons : Nat := 0
  reserved : Nat := 0
  /-- Completions written since the last event. -/
  uncovered : Nat := 0
  modCount : Nat := 0
  modTime : Nat := 0
  /-- MOD_TIME as the last completion written found it (R93, R99). -/
  timer : Nat := 0
  admin : Bool := false
  deriving DecidableEq, Repr, Inhabited

/-- An event that waits (R100). -/
structure Ev where
  typ : Nat
  source : Nat
  data : Nat
  deriving DecidableEq, Repr

/-- An event queue (R98 to R101). -/
structure Eq where
  func : Nat
  db : Nat := 0
  vector : Nat := 0
  ring : Ring := {}
  prod : Nat := 0
  cons : Nat := 0
  arm : Bool := false
  waiting : List Ev := []
  admin : Bool := false
  deriving DecidableEq, Repr, Inhabited

/-- The rings and doorbells side of the block. -/
structure Queues where
  sqs : Tbl Sq := []
  cqs : Tbl Cq := []
  eqs : Tbl Eq := []
  /-- Events due to PF0's admin event queue while it is not enabled (R100). -/
  pf0Waiting : List Ev := []
  /-- Arbitration (R94, R201), per tile * 8: pointer over lanes; per tile * 8 + lane: pointer over functions. -/
  lanePtr : Tbl Nat := []
  laneCredit : Tbl Nat := []
  funcPtr : Tbl Nat := []
  /-- Credit of a function on a lane: key (tile * 8 + lane) * 1024 + function. -/
  funcCredit : Tbl Nat := []
  /-- Pointer over the queues of a function on a lane. -/
  sqPtr : Tbl Nat := []
  deriving DecidableEq, Repr, Inhabited

/-! ## Translation -/

/-- A range of advice (R139). -/
structure Advice where
  va : Nat
  pages : Nat
  hint : Nat
  arg : Nat
  deriving DecidableEq, Repr

/-- A loaded ASID context (R108) with its generation and log (R120). -/
structure Ctx where
  v : Bool := false
  mode : Nat := 0
  pri : Bool := false
  rootLoc : Nat := 0
  owner : Nat := 0
  pasid : Nat := 0
  root : Nat := 0
  rdtLoc : Nat := 0
  rdtBase : Nat := 0
  rdtCount : Nat := 0
  xgen : Nat := 0
  /-- Log records, newest first: generation, first page address, pages. -/
  log : List (Nat × Nat × Nat) := []
  advice : List Advice := []
  deriving DecidableEq, Repr, Inhabited

/-- A leaf translation as cached (R117). -/
structure Leaf where
  asid : Nat
  va : Nat
  size : Nat
  r : Bool
  w : Bool
  at_ : Bool
  phys : Phys
  gen : Nat
  xgen : Nat
  pteAt : Phys := {}
  pte : Nat := 0
  deriving DecidableEq, Repr

/-- A non-leaf entry as cached: ASID, level it was read at, address prefix, the entry. -/
structure Branch where
  asid : Nat
  level : Nat
  va : Nat
  pte : Nat
  deriving DecidableEq, Repr

/-- A window table entry (R130). -/
structure Win where
  v : Bool := false
  rd : Bool := false
  wr : Bool := false
  at_ : Bool := false
  held : Bool := false
  quar : Bool := false
  pd : Nat := 0
  rkey : Nat := 0
  base : Nat := 0
  pages : Nat := 0
  quarEnd : Nat := 0
  asid : Nat := 0
  owner : Nat := 0
  /-- Drains of the window begun so far, and the latest of them that has reported done (R64). -/
  begun : Nat := 0
  drained : Nat := 0
  deriving DecidableEq, Repr, Inhabited

/-- Who runs an invalidation (R123, R128, R436). -/
inductive InvBy where
  | entry (sq slot : Nat)
  /-- The host's request number `id`, for a PASID. -/
  | ats (id pasid : Nat)
  | quota (func : Nat)
  /-- The firmware's IF0_CTX, for a mailbox channel: it answers then (R464). -/
  | fw (chan : Nat)
  deriving DecidableEq, Repr

/-- An invalidation in progress (R123). -/
structure Inv where
  asid : Nat
  va : Nat
  pages : Nat
  /-- Windows that the range covers, with the numbers of their drains (R64, R132). -/
  wins : List (Nat × Nat) := []
  by_ : InvBy
  kind : Nat
  /-- The function whose paused queues RETRY_PENDING concerns. -/
  func : Nat := 0
  /-- XGEN the invalidation gave the ASID. -/
  xgen : Nat
  /-- Paths that older entries write to (step 4 of R123), and acknowledgements still lacking. -/
  paths : List Path := []
  acks : Nat := 0
  draining : Bool := true
  withdrawn : Nat := 0
  failPaused : Bool := false
  retry : Bool := false
  deriving DecidableEq, Repr

/-- An invalidation that waits for room, and does not come from an entry (R124, R128, R436). -/
structure InvReq where
  by_ : InvBy
  kind : Nat
  asid : Nat
  va : Nat
  pages : Nat
  func : Nat
  deriving DecidableEq, Repr

/-- A walk, or an ATS translation request, for a page (R117, R120, R127). -/
structure XReq where
  isle : Nat
  asid : Nat
  page : Nat
  /-- An invalidation has covered it: it starts again (R120). -/
  again : Bool := false
  /-- It runs; others wait for room, in the order they were requested. -/
  run : Bool := false
  /-- Its result is cached: something other than a queue create asks for it (R104). -/
  keep : Bool := true
  deriving DecidableEq, Repr

/-- A loaded function context (R141) with its fault ring's counts. -/
structure Fctx where
  fqV : Bool := false
  fqLoc : Nat := 0
  fqBase : Nat := 0
  fqLog2 : Nat := 6
  eqId : Nat := 0
  fqDb : Nat := 0
  fpLoc : Nat := 0
  fpBase : Nat := 0
  prod : Nat := 0
  cons : Nat := 0
  deriving DecidableEq, Repr, Inhabited

/-- The Descriptor Translation Unit. Per-island lists are keyed by island 0 or 1. -/
structure Xlate where
  ctx : Tbl Ctx := []
  leaves : Tbl (List Leaf) := []
  branches : Tbl (List Branch) := []
  /-- Walks in the order they were requested (R117). -/
  walks : List XReq := []
  /-- ATS translation requests outstanding, and page requests outstanding: island, ASID, page (R127, R129). -/
  ats : List XReq := []
  pri : List (Nat × Nat × Nat) := []
  invs : Tbl Inv := []
  /-- Invalidations that wait for room, oldest first (R124). -/
  invWait : List InvReq := []
  nextInv : Nat := 0
  /-- Mailbox channels whose IF0_CTX has invalidated: channel and result. -/
  fwDone : List (Nat × Nat) := []
  /-- Within a step: the page whose translation has just failed, for those that wait for it: island, ASID, page, and the
  fault's cause, level and GEN. -/
  found : Option (Nat × Nat × Nat × Nat × Nat × Nat) := none
  fctx : Tbl Fctx := []
  wins : Tbl Win := []
  /-- The window table is initialised (R133). -/
  winReady : Bool := false
  deriving DecidableEq, Repr, Inhabited

/-! ## Connections -/

/-- Whose message a connection carries. -/
inductive Origin where
  | entry (sq slot : Nat)
  /-- A Heat's send to a neighbour: key of the Heat, and which send. -/
  | heat (key item : Nat)
  /-- A Stride channel's descriptor. -/
  | stride (chan : Nat)
  /-- Sent whole before a reset ended what it belonged to (R486); `psn` is that of its first packet still out. -/
  | left (psn : Nat)
  deriving DecidableEq, Repr

/-- A message the transport sends (R164 to R168, R237). -/
structure TxMsg where
  org : Origin
  /-- Opcode 0x10 to 0x15 (R80). -/
  op : Nat
  buf : List Seg := []
  inl : Option (List Byte) := none
  window : Nat := 0
  rkey : Nat := 0
  offset : Nat := 0
  total : Nat := 0
  immVal : Nat := 0
  arg1 : Nat := 0
  arg2 : Nat := 0
  scope : Nat := 0
  barrier : Bool := false
  solicit : Bool := false
  /-- Data bytes put into packets so far. -/
  sent : Nat := 0
  allSent : Bool := false
  /-- Response bytes received, for a read; a read of no bytes has had its response. -/
  got : Nat := 0
  answered : Bool := false
  /-- Old value an atomic returned. -/
  result : Nat := 0
  /-- Source bytes read and not yet sent: offset and bytes. -/
  src : List (Nat × List Byte) := []
  deriving DecidableEq, Repr

/-- A packet sent and not acknowledged: PSNs it consumes, the message and bytes it carries (R179, R190). -/
structure TxPkt where
  psn : Nat
  npsn : Nat
  org : Origin
  op : Nat
  off : Nat
  len : Nat
  first : Bool
  last : Bool
  /-- Bytes counted as outstanding (R192). -/
  cost : Nat
  /-- Index of the pair-table entry it counts in (R242). -/
  pair : Option Nat := none
  sentAt : Nat := 0
  /-- Key epoch of its last transmission (R421). -/
  ep : Nat := 0
  deriving DecidableEq, Repr

/-- A hold of the sender (R187). -/
inductive Hold where
  | busy (psn : Nat)
  /-- Reset back-off; `probe`: the probe has been sent. -/
  | backoff (probe : Bool)
  deriving DecidableEq, Repr

/-- The message a receiver is in the middle of (R237, R261). -/
structure RxMsg where
  op : Nat
  window : Nat := 0
  offset : Nat := 0
  scope : Nat := 0
  barrier : Bool := false
  solicit : Bool := false
  /-- Bytes received so far. -/
  moved : Nat := 0
  /-- The window as the first packet found it, and the translations found since (R64). -/
  win : Win := {}
  kept : List Seg := []
  /-- The buffer of a receive entry has been withdrawn, and the invalidation has reported done (R62). -/
  stale : Bool := false
  /-- RKEY of the window when the first packet passed. -/
  rkey : Nat := 0
  /-- Receive entry consumed: completion queue, USER_TAG, buffer length (R166). -/
  rq : Option (Nat × Nat × Nat) := none
  buf : List Seg := []
  /-- Held-class bytes (R417): offset and bytes. -/
  held : Option (List (Nat × List Byte)) := none
  deriving DecidableEq, Repr

/-- What follows once an executed packet is complete (R181). -/
inductive RxAct where
  | nothing
  /-- Write the REMOTE completion: queue, tag, status, cause, bytes, immediate, solicited, opcode. -/
  | cqe (cq tag status cause bytes : Nat) (imm : Option Nat) (sol : Bool) (op : Nat)
  | atomicAck (result : Nat)
  deriving DecidableEq, Repr

/-- An executed packet that is not yet complete (R181). -/
structure RxPend where
  psn : Nat
  npsn : Nat
  /-- Acknowledgements lacking; a read or atomic lacks one until its data has come. -/
  left : Nat
  ackreq : Bool
  act : RxAct
  /-- Last packet of a write into a window: window, offset and bytes of the message. -/
  wrote : Option (Nat × Nat × Nat) := none
  /-- Last packet of a request message (R262). -/
  last : Bool := false
  /-- Window it names with the RKEY it was checked against, and the pieces it wrote (R63, R64). -/
  win : Option (Nat × Nat) := none
  segs : List Seg := []
  /-- Held until the message's LAST packet has passed (R417). -/
  heldBack : Bool := false
  deriving DecidableEq, Repr

/-- A read or an atomic of a peer that waits for its memory access (R33, R164, R168). -/
structure RxRead where
  conn : Nat
  psn : Nat
  segs : List Seg
  win : Option (Nat × Nat) := none
  scope : Nat := 0
  barrier : Bool := false
  /-- 0x13 read, 0x14 fetch-add, 0x15 compare-swap. -/
  op : Nat
  len : Nat
  arg1 : Nat := 0
  arg2 : Nat := 0
  /-- A re-execution of a duplicate: no PSN becomes complete by it. -/
  dup : Bool := false
  deriving DecidableEq, Repr

/-- An answer of R181 with what it carries; a read response says whether it is the first and the last of its request. -/
inductive Answer where
  | ack (psn ce : Nat)
  | atomicAck (psn result : Nat)
  | readResp (psn : Nat) (data : List Byte) (first last : Bool)
  | nakSeq (psn : Nat)
  | busy (psn hint reason : Nat)
  | nakFatal (psn status cause : Nat)
  | abort
  /-- A HEAT_CTRL packet, which is sent like an answer (R297). -/
  | ctrl (body : List Byte)
  deriving DecidableEq, Repr

/-- A Pacer profile as it applies to a connection (R210, R222): line(p), steps, minimum, period in ns, gain, reaction, and depth
in tokens. -/
structure Prof where
  line : Nat := 0
  ai : Nat := 5
  hai : Nat := 50
  hyper : Nat := 5
  low : Nat := 1
  period : Nat := 55000
  g : Nat := 4
  react : Bool := true
  burst : Nat := 0
  deriving DecidableEq, Repr, Inhabited

/-- The Pacer of a connection (R206 to R209). -/
structure Pacer where
  /-- The profile as the last notification or period found it (R210). -/
  prof : Prof := {}
  rc : Nat := 0
  alpha : Nat := 65536
  quiet : Nat := 0
  /-- Tokens in 1/8000 byte. -/
  tokens : Int := 0
  lastDec : Option Nat := none
  /-- Start of the period grid, and time the tokens were brought up to date. -/
  grid : Nat := 0
  upTo : Nat := 0
  /-- Time and rate at which the state was spilled (R208). -/
  spillAt : Nat := 0
  spillRc : Nat := 0
  deriving DecidableEq, Repr, Inhabited

/-- A connection's 256-byte state (R158) and the messages in progress on it. -/
structure Conn where
  /-- Bytes 0x00 to 0x5F as a 768-bit number. -/
  doc : Nat := 0
  pacer : Pacer := {}
  retryCnt : Nat := 0
  resetCnt : Nat := 0
  hold : Option Hold := none
  /-- Atomic result log (R184): entry p mod 16. -/
  alog : Tbl Nat := []
  /-- C of R181. -/
  cpsn : Nat := 0
  ceCount : Nat := 0
  /-- PSNs complete since the last ACK (R182). -/
  unacked : Nat := 0
  /-- PSN last answered BUSY, and BUSY answers with REASON 1 or 2 in a row (R175, R189). -/
  busy : Option (Nat × Nat) := none
  /-- PSN and time of the last NAK_SEQ sent, and of the last go-back (R183, R187). -/
  nakAt : Option (Nat × Nat) := none
  backAt : Option (Nat × Nat) := none
  abortAt : Option Nat := none
  cnpAt : Option Nat := none
  /-- Request messages completed, for the MSN of R262. -/
  msn : Nat := 0
  rxMsg : Option RxMsg := none
  rxPend : List RxPend := []
  txMsgs : List TxMsg := []
  txOut : List TxPkt := []
  /-- PSNs to send again, oldest first (R190). -/
  resend : List Nat := []
  /-- Packets since the last one that carried ACKREQ, and that each must carry it until TX_UNA has reached a PSN: the TX_PSN
  at the end of a hold or at a timer expiry (R180). -/
  sinceAck : Nat := 0
  forceAck : Bool := false
  forceTo : Nat := 0
  /-- Every PSN before it has been acknowledged but for reads and atomics whose answer is still to come (R181). -/
  ackHi : Option Nat := none
  /-- Cipher (R413, R418, R420): counters sent per direction, receive epochs, tag failures and the last failure. -/
  txc : Nat × Nat := (0, 0)
  rxEpoch : Nat × Nat := (0, 0)
  peerIncarn : Option Nat := none
  /-- An acknowledgement has covered a PSN sent under the present epoch (R421). -/
  epAcked : Bool := false
  tagFails : Nat × Nat := (0, 0)
  /-- Modifies to DRAIN and a destroy that wait: entries (queue, slot). -/
  waiter : List (Nat × Nat) := []
  /-- Quarantine ends at this time in ns (R58). -/
  quarEnd : Nat := 0
  /-- State discarded under R153. -/
  discarded : Bool := false
  /-- Answers that wait for their key or for the cipher slice (R28, R411). -/
  ansWait : List Answer := []
  deriving DecidableEq, Repr, Inhabited

/-- Where a connection's state is (R169 to R173). -/
inductive Place2 where
  | cached
  | pinned
  | filling
  | spilling
  | spilled
  deriving DecidableEq, Repr

/-- A packet parked in the miss buffer (R174). -/
structure Parked where
  tile : Nat
  conn : Nat
  bytes : Nat
  pkt : Pkt
  deriving DecidableEq, Repr

/-- Connections, protection domains and the connection cache. -/
structure Conns where
  conns : Tbl Conn := []
  place : Tbl Place2 := []
  /-- Connections in the order of last use, least recent first (R170). -/
  lru : List Nat := []
  parked : List Parked := []
  /-- Fills that wait for a way or a slot, in order of arrival (R170, R172). -/
  fillq : List Nat := []
  /-- Modifies and creates that wait for a state or a way: connection, entry. -/
  waiters : List (Nat × Nat × Nat) := []
  /-- Modifies in the order they started (R155): connection, entry. -/
  modq : List (Nat × Nat × Nat) := []
  /-- Fills in progress: the time each was issued (R175). -/
  fillAt : Tbl Nat := []
  /-- Connections whose fill goes to the pinned array for a modify that sets PIN (R171, R178). -/
  pinFill : List Nat := []
  /-- Incarnation of a number after its last create. -/
  incarn : Tbl Nat := []
  /-- Protection domains: function and ASID (R160). -/
  pds : Tbl (Nat × Nat) := []
  /-- RESETTING allowance: source * 8 + lane, time of the last one sent (R186). -/
  resetting : Tbl Nat := []
  rxReads : List RxRead := []
  /-- Messages of engines that have ended, for the engine: origin, status, cause. -/
  ended : List (Origin × Nat × Nat) := []
  /-- Write messages into a window that are complete, for the engines: window, offset, bytes, connection. -/
  landed : List (Nat × Nat × Nat × Nat) := []
  deriving DecidableEq, Repr, Inhabited

/-! ## Lanes, ports, links and the fabric -/

/-- The headers of a RoCEv2-compatible frame that come from the connection state (R260). -/
structure EthHdr where
  dmac : Nat
  smac : Nat
  /-- VLAN and PCP, when the frame is tagged. -/
  tag : Option (Nat × Nat)
  ipv6 : Bool
  dscp : Nat
  ttl : Nat
  flow : Nat
  src : Nat
  dst : Nat
  sport : Nat
  dei : Bool := false
  deriving DecidableEq, Repr, Inhabited

/-- What a port's lane buffer holds. -/
inductive TxItem where
  | native (p : Packet)
  | roce (h : EthHdr) (r : Roce)
  /-- A frame as bytes from destination address up to its FCS; `record`: offset of the transmit record of IF0 it came from,
  and its TS_REQ (R456). On the wire (`Out.tx`) the FCS is with it. -/
  | raw (frame : List Byte) (record : Option (Nat × Bool))
  deriving DecidableEq, Repr

/-- A packet in a lane buffer (R199, R202). -/
structure QPkt where
  item : TxItem
  /-- Bytes from header to trailer, or destination address to FCS. -/
  len : Nat
  /-- Function that originated it, for its egress meter; forwarded packets and answers have none (R211). -/
  func : Option Nat := none
  /-- Held by a meter of RED_ACTION 2, or behind one that is (R213). -/
  metered : Bool := false
  /-- Its meter has counted it as red (R223). -/
  counted : Bool := false
  /-- Longer than every open interval of its lane, and at the head when the gate opened: it begins in this opening (R216). -/
  frag : Bool := false
  deriving DecidableEq, Repr

/-- Stage of a native link's bring-up (R229). -/
inductive LinkStage where
  | down
  | training
  | init
  | up
  deriving DecidableEq, Repr, Inhabited

/-- A native link (R229 to R233). Tables are by lane. -/
structure Link where
  stage : LinkStage := .down
  gen : Nat := 0
  peerGen : Option Nat := none
  /-- Cumulative credits granted by the peer, and used, by lane. -/
  granted : Tbl Nat := []
  used : Tbl Nat := []
  /-- Cumulative credits this side has granted, by lane (R230). -/
  given : Tbl Nat := []
  txSeq : Nat := 0
  /-- Replay buffer, oldest first (R231). -/
  replay : List (Nat × Packet) := []
  /-- LSEQs of the replay buffer that are still to be sent again, each once the peer has credits for it (R230, R232). -/
  resend : List Nat := []
  rxSeq : Nat := 0
  /-- A LNAK is outstanding for this LSEQ (R232). -/
  lnak : Option Nat := none
  /-- Packets received since the last LACK (R231). -/
  sinceLack : Nat := 0
  /-- LINK_CRED_SHARE of the present bring-up (R254). -/
  share : Nat := 0
  /-- Replays of one LSEQ without progress (R233). -/
  retries : Nat × Nat := (0, 0)
  /-- Received packets that wait to be routed, by lane, with the port's credits they hold. -/
  rx : List Packet := []
  deriving DecidableEq, Repr, Inhabited

/-- The gates of a port (R214 to R219). -/
structure Gate where
  /-- Entry in progress of the active list. -/
  entry : Nat := 0
  gates : Nat := 255
  hold : Bool := false
  /-- PTP time at which the entry in progress ends. -/
  endAt : Nat := 0
  /-- After a step of PTP time, entry 0 follows the entry in progress (R219). -/
  realign : Bool := false
  deriving DecidableEq, Repr, Inhabited

/-- A preemptible frame in progress (R203, R217, R269): its bytes, the transmit record it came from, the bytes sent, where
the fragment in progress began, and whether it has been preempted. -/
structure PreFrame where
  bytes : List Byte
  record : Option (Nat × Bool)
  sent : Nat := 0
  from_ : Nat := 0
  cut : Bool := false
  deriving DecidableEq, Repr

/-- Frame preemption of a port (R269). -/
structure Preempt where
  attempts : Nat := 0
  /-- A preemptible frame is in progress. -/
  inFrame : Option PreFrame := none
  deriving DecidableEq, Repr, Inhabited

/-- A MACsec secure association (R424). -/
structure Sa where
  tx : Bool
  /-- Receive channel 0 to 3. -/
  ch : Nat := 0
  an : Nat
  key : Nat
  salt : Nat
  ssci : Nat
  sci : Nat
  /-- Next PN; `low`: lowest PN ever accepted. -/
  pn : Nat
  low : Nat := 0
  deriving DecidableEq, Repr

/-- A network port. -/
structure Port where
  lanes : Tbl (List QPkt) := []
  deficit : Tbl Nat := []
  /-- Lane whose turn it is in port_pick, and in its run over the preemptible lanes (R203). -/
  cur : Nat := 1
  curPre : Nat := 2
  /-- L0 bucket: tokens in bytes * 10^6, and time of the last refill; none: full (R202). -/
  l0 : Option (Nat × Nat) := none
  link : Link := {}
  gate : Gate := {}
  /-- Lanes paused by PFC, with the end of the pause (R268). -/
  paused : Tbl Nat := []
  /-- Lanes for which this side has a pause outstanding (R268). -/
  pausing : List Nat := []
  /-- Bytes held in the receive buffer of each lane (R257 check 15). -/
  rxFill : Tbl Nat := []
  pre : Preempt := {}
  /-- Bytes received since the last pulse of the port's request line (R399). -/
  rxBytes : Nat := 0
  sas : List Sa := []
  txAn : Nat := 0
  /-- Timestamp FIFO, oldest first: sequence, type, domain, seconds, ns (R271). -/
  tsFifo : List (Nat × Nat × Nat × Nat × Nat) := []
  /-- Shedding: windows below and above the levels, and the lane count a retrain goes to (R273, R274). -/
  shedLow : Nat := 0
  shedHigh : Nat := 0
  lsTarget : Option Nat := none
  autoneg : Bool := false
  deriving DecidableEq, Repr, Inhabited

/-- A meter's buckets in 1/1024 byte and the time of its last packet (R212). -/
structure Meter where
  tc : Nat
  tp : Nat
  upTo : Nat
  deriving DecidableEq, Repr

/-- An entry of the pair table (R242). -/
structure PairEnt where
  intm : Nat := 0
  hopdone : Bool := true
  epoch : Nat := 0
  count : Nat := 0
  /-- An intermediate has been drawn. -/
  drawn : Bool := false
  lastUncounted : Option Nat := none
  deriving DecidableEq, Repr, Inhabited

/-- Lane sparing of a group (R272). -/
structure Spare where
  /-- Windows in a row over the threshold, by lane. -/
  overs : Tbl Nat := []
  /-- Sparing of this lane runs, or waits for the end of a shedding retrain (R277). -/
  busy : Option Nat := none
  wait : Option Nat := none
  deriving DecidableEq, Repr, Inhabited

/-- Network ports, meters and the native fabric. -/
structure Net where
  ports : Tbl Port := []
  meters : Tbl Meter := []
  pairs : Tbl PairEnt := []
  /-- Late records set: source * 8 + lane (R248). -/
  late : List Nat := []
  /-- A flip is armed (R247). -/
  flipArmed : Bool := false
  /-- After a flip, pair entries still of the old epoch may stay until forced (R247 step 5). -/
  spare : Tbl Spare := []
  /-- Packets in the router buffers towards the tiles, oldest first, by router port * 8 + lane (R21, R22): those for the
  transport, and multicast and heat packets. -/
  arrived : Tbl (List Pkt) := []
  toTile : Tbl (List Packet) := []
  /-- Multicast packets of this device that wait for the replication stage of their lane, oldest first, with the function
  that originates them (R211, R245). -/
  mcOut : List (Packet × Option Nat) := []
  /-- Transmit records of IF0 whose frame has been sent: offset and egress time (R456). -/
  txTimes : Tbl Nat := []
  deriving DecidableEq, Repr, Inhabited

/-! ## Landing memory -/

/-- Landing memory apart from its contents (R362 to R382). -/
structure Lm where
  /-- Unit map of each function (R366). -/
  maps : Tbl (List Nat) := []
  /-- Codewords that hold the poison marker, by number PA / 64 (R368). -/
  poison : List Nat := []
  retired : List Nat := []
  /-- Held units that are retired when released (R376). -/
  doomed : List Nat := []
  /-- Units being zeroed before they return to the pool, with the function they were taken from (R367). -/
  zeroing : Tbl Nat := []
  /-- 64 KiB blocks whose zeroing after a reset is not finished, by number PA / 65536 (R379). -/
  blocks : List Nat := []
  /-- Class 1 errors of a row in this pass, class 2 errors of a unit, corrected symbols of a pin in this second. -/
  rowErr : Tbl Nat := []
  unitErr : Tbl Nat := []
  pinErr : Tbl Nat := []
  /-- Spare rows used, by bank key. -/
  rowSpares : Tbl Nat := []
  /-- Sparing in progress: (stack, bank, row) keys with their step; steering in progress: channel keys with pin and step. -/
  sparing : Tbl Nat := []
  steering : Tbl (Nat × Nat) := []
  /-- Steered pin of a channel. -/
  steered : Tbl Nat := []
  /-- Rows remapped. -/
  remapped : List Nat := []
  /-- Patrol scrub position: next codeword. -/
  scrub : Nat := 0
  deriving DecidableEq, Repr, Inhabited

/-! ## Functions -/

/-- Quotas of a function (R432): limit by resource; weights by lane; meter range. -/
structure Func where
  limit : Tbl Nat := []
  /-- Resources whose lowering is incomplete (R436). -/
  pend : List Nat := []
  meterFirst : Nat := 0
  meterCount : Nat := 0
  weights : Tbl Nat := []
  /-- Stride channels that go when they are idle (R436). -/
  chanLeaving : List Nat := []
  /-- The invalidations that precede the removal of landing units have begun (R436). -/
  lmInv : Bool := false
  /-- Reset in progress (R442). -/
  resetting : Bool := false
  /-- MSI-X table: address, data, masked; missing: masked zeros. Pending bits. -/
  msix : Tbl (Nat × Nat × Bool) := []
  pba : List Nat := []
  msixEnable : Bool := false
  msixMask : Bool := false
  /-- ATS Enable of its PCIe configuration space (R543). -/
  atsEnable : Bool := false
  deriving DecidableEq, Repr, Inhabited

/-! ## Cipher -/

/-- A working key (R410): connection, direction, epoch, and whether this end sends under it. -/
structure KeyId where
  conn : Nat
  dir : Nat
  epoch : Nat
  send : Bool
  deriving DecidableEq, Repr

/-- Cipher slices and the Vault (R406 to R426). -/
structure Cipher where
  /-- Working keys a slice holds with their values, most recently used first; by tile (R411). -/
  keys : Tbl (List (KeyId × Nat)) := []
  /-- Keys asked of the Vault: tile and key. -/
  fetching : List (Nat × KeyId) := []
  /-- Loaded tenant slots: key, and the function allowed to use the slot (R422). -/
  slots : Tbl (Nat × Nat) := []
  /-- The device root key, if programmed (R406). -/
  drk : Option Nat := none
  deriving DecidableEq, Repr, Inhabited

/-! ## Collectives (R281 to R306) -/

/-- An element of a member table (R283). -/
structure Member where
  conn : Nat
  win : Nat
  rkey : Nat
  deriving DecidableEq, Repr, Inhabited

/-- One epoch of a group (R282): its fields and its member table. -/
structure GroupEp where
  bib : Nat := 0
  /-- MEMBERS. -/
  n : Nat := 1
  stageWin : Nat := 0
  epoch : Nat := 0
  tag : Nat := 0
  ctrlMc : Option Nat := none
  dataMc : Option Nat := none
  lapWin : Nat := 0
  table : List Member := []
  deriving DecidableEq, Repr, Inhabited

/-- A control message (R297). -/
structure Ctrl where
  kind : Nat
  status : Nat := 0
  cause : Nat := 0
  epoch : Nat := 0
  tag : Nat := 0
  seq : Nat := 0
  lap : Nat := 0
  sender : Nat := 0
  origin : Nat := 0
  a : Nat := 0
  b : Nat := 0
  deriving DecidableEq, Repr, Inhabited

/-- How a Heat was aborted (R303, R304). `local_`: status and RESULT with which the origin itself completes. -/
structure Abort where
  status : Nat
  cause : Nat
  origin : Nat
  lap : Nat
  suspect : Nat
  local_ : Option (Nat × Nat) := none
  /-- No completion is written (a function or engine reset). -/
  silent : Bool := false
  deriving DecidableEq, Repr

/-- A group (R281 to R286). -/
structure Group where
  owner : Nat
  tile : Nat
  ep : GroupEp
  /-- HEAT_SEQ of the next Heat entry accepted in this epoch (R291). -/
  nextSeq : Nat := 0
  /-- HEAT_SEQ of the Heat started last in this epoch. -/
  lastStarted : Option Nat := none
  /-- Aborts recorded for Heats that have not started, by HEAT_SEQ (R305). -/
  recorded : Tbl Abort := []
  /-- Credits for Heats that have not started. -/
  early : List Ctrl := []
  /-- The last Heat with a multicast Lap that is over at this member: HEAT_SEQ, DESC_HASH and Lap (R298). -/
  mcLast : Option (Nat × Nat × Nat) := none
  /-- Where the member table lies on a code without HBM, which reads it in place (R283); empty where it has been copied. -/
  place : List Seg := []
  /-- Bib that was granted a slot last (R295). -/
  rr : Nat := 0
  /-- A destroy waits: entry (queue, slot). -/
  dying : Option (Nat × Nat) := none
  deriving DecidableEq, Repr, Inhabited

/-- What travels in a transfer. -/
inductive Space where
  | anchor | partial_ | result | query | baton
  deriving DecidableEq, Repr, Inhabited

/-- One transfer of a Heat in one Lap: to or from a member (R294, R295). -/
structure Xfer where
  lap : Nat
  peer : Nat
  send : Bool
  space : Space
  /-- Elements [lo, hi); bytes of the stream for queries and Batons. -/
  lo : Nat
  hi : Nat
  /-- Chunks posted or granted so far. -/
  n : Nat := 0
  /-- Received chunks. -/
  chunks : Tbl (List Byte) := []
  /-- Credits: slots granted by the peer and not used. -/
  cred : List Nat := []
  /-- Travels by multicast (R298). -/
  mc : Bool := false
  /-- The length is known (Batons: once the header has come). -/
  known : Bool := true
  done : Bool := false
  /-- The first all-to-allv credit has been sent or received (R296). -/
  counted : Bool := false
  /-- When the last byte that has come so far arrived (R300). -/
  arrived : Option Nat := none
  deriving DecidableEq, Repr, Inhabited

/-- Marathon's side of a Heat or local request (R344). -/
structure Att where
  seq : Nat
  decode : Bool
  part : Bool := false
  p4 : Bool := false
  ordered : Bool := false
  layer : Nat := 0
  q : Nat := 1
  qFmt : Nat := 2
  outFmt : Nat := 2
  g : Nat := 1
  mask : Nat := 0
  qPos : Nat := 0
  window : Nat := 0
  scale : Nat := 0
  /-- TOKENS when the request started (R342). -/
  tokens : Nat := 0
  /-- Islands that have finished, and their partial records (R337). -/
  islands : Tbl (List Nat) := []
  /-- Islands that have finished the shard in work; origins of the shards computed so far; shards passed on in full. -/
  done : List Nat := []
  shards : List Nat := []
  deriving DecidableEq, Repr, Inhabited

/-- A Heat that runs, or whose decision is held (R287 to R306). -/
structure Heat where
  group : Nat
  ep : GroupEp
  tile : Nat
  seq : Nat
  /-- The entry, none at a scatter holder; local Marathon requests have no group's Laps. -/
  entry : Option (Nat × Nat) := none
  op : Nat
  oper : Nat := 0
  mode : Nat := 0
  rnd : Nat := 0
  nanFail : Bool := false
  fin : Nat := 1
  fout : Nat := 1
  alg : Nat := 1
  fast : Bool := false
  root : Nat := 0
  count : Nat := 0
  seed : Nat := 0
  lseDim : Nat := 0
  hash : Nat := 0
  /-- Destination pieces, SCOPE and BARRIER of the entry. -/
  src : List Seg := []
  dst : List Seg := []
  scope : Nat := 0
  barrier : Bool := false
  /-- Source bytes, once read. -/
  data : Option (List Byte) := none
  /-- Counts of OP_ALL_TO_ALLV: send offset, send count, receive offset, receive count. -/
  counts : List (Nat × Nat × Nat × Nat) := []
  /-- Anchor bytes (R326) and whether their Laps are over. -/
  anchors : List Nat := []
  anchored : Bool := false
  /-- Accumulators by element (R322); results in FMT_OUT, as bytes with the element or block they are of. -/
  acc : List Nat := []
  res : List Byte := []
  /-- Ranges this member has rounded (R323). -/
  rounded : List (Nat × Nat) := []
  xfers : List Xfer := []
  /-- Slots freed by the subtree of each child, and multicast bytes counted by slot (R298). -/
  mcFreed : List (Nat × Nat) := []
  /-- By slot, the chunk this member has taken last, and the last whose credit it has passed to its parent (R298). -/
  mcTaken : Tbl Nat := []
  mcPassed : Tbl Nat := []
  mcGot : Tbl Nat := []
  /-- MARKs received for a slot: chunk and bytes. -/
  mcMark : Tbl (Nat × Nat) := []
  /-- Writes of this Heat on the transport that have not ended. -/
  inflight : Nat := 0
  /-- The greatest lateness so far: lateness, Lap, Bib (R300), and the time each Lap became ready. -/
  late : Option (Nat × Nat × Nat) := none
  readyAt : Tbl Nat := []
  /-- When the window of each ready Lap runs out (R299). -/
  windowEnd : Tbl Nat := []
  /-- Output written; acknowledgements it lacks; visible. -/
  written : Bool := false
  acks : Nat := 0
  visible : Bool := false
  /-- Finish Laps (R301): children that sent FINISH_UP, this member has sent it, the decision, QUERYs left. -/
  ups : List Nat := []
  sentUp : Bool := false
  decision : Option (Nat × Nat) := none
  queries : Option Nat := none
  aborted : Option Abort := none
  /-- ABORTs still to be repeated, and to whom. -/
  repeats : Nat := 0
  repeatTo : List Nat := []
  /-- The member has completed; only the decision is held. -/
  finished : Bool := false
  att : Option Att := none
  deriving DecidableEq, Repr, Inhabited

/-- Who a staging slot has been granted to: Heat, Lap, Bib and chunk. -/
structure SlotUse where
  heat : Nat
  lap : Nat
  peer : Nat
  chunk : Nat
  /-- The write has landed: its bytes await their read. -/
  landed : Option Nat := none
  deriving DecidableEq, Repr, Inhabited

/-- A sequence object (R339). -/
structure SeqObj where
  owner : Nat
  tile : Nat
  layers : Nat
  heads : Nat
  dim : Nat
  fmt : Nat
  tokens : Nat
  first : Nat
  cap : Nat
  table : Nat
  group : Option Nat
  tag : Nat
  batonConn : Nat
  batonWin : Nat
  nextWin : Nat
  nextRkey : Nat
  context : Nat
  dying : Option (Nat × Nat) := none
  deriving DecidableEq, Repr, Inhabited

/-- Collective and Marathon engines. -/
structure Colls where
  groups : Tbl Group := []
  /-- Heats by key: (group * 256 + epoch) * 65536 + HEAT_SEQ; a local Marathon request by 2^40 + its own number. -/
  heats : Tbl Heat := []
  nextLocal : Nat := 0
  /-- Staging slots in use: window * 1024 + slot. -/
  slots : Tbl SlotUse := []
  /-- Faults at check 6 of R134 of writes into a window: window, cause, address (R303 cause 0x06). -/
  faulted : List (Nat × Nat × Nat) := []
  /-- Multicast data delivered into a window for the engines: window, offset, bytes. -/
  mcLanded : List (Nat × Nat × Nat) := []
  seqs : Tbl SeqObj := []
  deriving DecidableEq, Repr, Inhabited

/-! ## Stride engines (R383 to R405) -/

/-- A descriptor as read (R390); an entry of R387 as one row. -/
structure Desc where
  src : Nat
  dst : Nat
  rowBytes : Nat
  rows : Nat := 1
  srcPitch : Nat := 0
  dstPitch : Nat := 0
  next : Nat := 0
  v : Bool := true
  op : Nat
  last : Bool := true
  barrier : Bool
  scope : Nat
  waitReq : Bool := false
  notify : Bool := false
  tag : Nat := 0
  deriving DecidableEq, Repr, Inhabited

/-- How a descriptor went BAD (R394, R397). -/
structure Bad where
  status : Nat
  cause : Nat := 0
  side : Nat := 0
  pcie : Nat := 0
  addr : Nat := 0
  deriving DecidableEq, Repr

/-- A descriptor, or the transfer of an OP_COPY or OP_FILL entry, that a channel works on. -/
structure DescRun where
  /-- Number of the descriptor in its channel's life. -/
  k : Nat
  /-- Virtual address of the descriptor; none for an entry. -/
  addr : Option Nat
  desc : Desc
  /-- Waits for an earlier BARRIER descriptor or a completion slot (R395, R396) until it starts. -/
  started : Bool := false
  /-- Bytes moved, in transfer order. -/
  pos : Nat := 0
  /-- Translations made (R61); the buffers of an entry. -/
  src : List Seg := []
  dst : List Seg := []
  /-- Bytes left of the burst in progress (R398). -/
  burst : Option Nat := none
  bad : Option Bad := none
  /-- All data is issued; acknowledgements lacking. -/
  ended : Bool := false
  acks : Nat := 0
  paths : List Path := []
  /-- A completion slot is reserved for NOTIFY. -/
  resv : Bool := false
  /-- The write-back has been issued, and lacks its acknowledgement (R395). -/
  back : Option Bool := none
  deriving DecidableEq, Repr

/-- What a message of a channel on the transport carries (R116). -/
inductive StrideMsg where
  | dataRead (n : Nat)
  | dataWrite (n : Nat)
  | descRead
  | writeBack (k : Nat)
  deriving DecidableEq, Repr

/-- The work of a channel that is not IDLE. -/
structure Chan where
  sq : Nat
  slot : Nat
  func : Nat
  asid : Nat
  chain : Bool
  /-- The entry has been taken up by its opcode's command. -/
  begun : Bool := false
  nextK : Nat := 0
  /-- Descriptors in work, oldest first: at most two (R391). -/
  runs : List DescRun := []
  /-- Descriptor to read next. -/
  next : Option Nat := none
  /-- How the chain ends once its descriptors have ended (R393): status, cause, RESULT; none for the counts. -/
  fin : Option (Option (Nat × Nat × Nat)) := none
  ended : Nat := 0
  bads : Nat := 0
  firstBad : Option Nat := none
  bytes : Nat := 0
  /-- Paths that the chain's descriptors wrote (R395). -/
  paths : List Path := []
  msg : Option StrideMsg := none
  /-- Data a remote read has brought so far. -/
  hold : List Byte := []
  deriving DecidableEq, Repr

/-! ## Errors and recovery (R473 to R500) -/

/-- A reset that an error or a command asks for (R477): level 1 Q to 6 C as in R473. -/
structure Due where
  level : Nat
  tile : Nat := 0
  engine : Nat := 7
  /-- The function of level F, the queue of level Q. -/
  target : Nat := 0
  /-- It began with a hang (R485). -/
  hang : Bool := false
  /-- RESET_STATUS.LAST of a warm or cold reset (R504). -/
  last : Nat := 4
  /-- CODE of the error that asked for it; 0 for a command. -/
  code : Nat := 0
  deriving DecidableEq, Repr, Inhabited

/-- A reset in progress: of level Q, E, T, W (F resets are `Func.resetting`). -/
structure Reset where
  due : Due
  /-- Started entries that still lack acknowledgements (R485). -/
  left : List (Nat × Nat) := []
  deriving DecidableEq, Repr, Inhabited

/-- An evacuation or return that runs (R497, R499). -/
structure Evac where
  src : Nat
  dst : Nat
  back : Bool
  /-- Step 2 is over. -/
  drained : Bool := false
  /-- Blocks still to be moved, and the one that is moving. -/
  blocks : List Nat := []
  moving : Option Nat := none
  deriving DecidableEq, Repr, Inhabited

/-- A bank of the Photo finish (R491): units that have not copied yet, and the copies by register key. -/
structure Bank where
  armed : Bool := false
  units : List Nat := []
  copy : Tbl Nat := []
  deriving DecidableEq, Repr, Inhabited

/-- Recovery. -/
structure Recov where
  /-- Resets asked for and not begun. -/
  due : List Due := []
  resets : List Reset := []
  /-- Error log, newest first: record, unit, sequence number (R476). -/
  log : List (Nat × Nat × Nat) := []
  logSeq : Nat := 0
  evac : Option Evac := none
  bank0 : Bank := {}
  bank1 : Bank := {}
  /-- When HOST_HB was last written: the heartbeat window begins there (R489). -/
  hbAt : Nat := 0
  deriving DecidableEq, Repr, Inhabited
/-! ## Bring-up, power, service and management cores, ports -/

/-- What a firmware image says of itself (R521): version, security version, behaviour levels, digest. -/
structure FwImage where
  version : Nat := 0
  svn : Nat := 0
  levels : Nat := 7
  digest : Nat := 0
  deriving DecidableEq, Repr, Inhabited

/-- What fuses and flash hold; a cold reset keeps it (R406, R439, R452, R484, R520; DESIGN CHOICE, log entry 5). -/
structure Nvm where
  /-- Firmware slots A and B; none: no image that passes verification. -/
  slotA : Option FwImage := some {}
  slotB : Option FwImage := none
  boot : Nat := 0
  /-- Fuses: SVN counter, debug enable, hashes of the image key and of the unlock key, stepping, serial number. -/
  svn : Nat := 0
  debug : Bool := false
  imageKey : Nat := 0
  unlockKey : Nat := 0
  stepping : Nat := 0x11
  rom : Nat := 0
  serial : Nat := 0
  /-- Board configuration: IF0's quotas, channels and weights as OP_QUOTA_SET gives them (RES, SUB, VALUE), IF0's ASIDs
  (first, count), SVC_MEM (port, base, size), behaviour level, and registers it sets (PWR_CAP, THERM_CFG, SRIS). -/
  quotas : List (Nat × Nat × Nat) := []
  asids : Nat × Nat := (0, 0)
  svcMem : Nat × Nat × Nat := (0, 0, 0)
  behav : Nat := 0
  regs : Tbl Nat := []
  retired : List Nat := []
  deriving DecidableEq, Repr, Inhabited

/-- Where bring-up stands (R487, R522). -/
structure Boot where
  pwrOk : Bool := false
  perstLow : Bool := true
  /-- 0: no power, or a reset holds the management island; 1: the ROM runs; 2: firmware runs and islands are started. -/
  stage : Nat := 0
  /-- The bring-up follows a warm reset; it waits for PERST_N. -/
  warm : Bool := false
  hold : Bool := false
  /-- Units whose self-test failed (R523). -/
  failed : List Nat := []
  /-- Straps ACCn_EP and ACCn_BIF as sampled, by bit n (R532). -/
  strapEp : Nat := 0
  strapBif : Nat := 0
  /-- A staged slot that FW_ACTIVATE starts (R495). -/
  activate : Option Nat := none
  /-- Commands of the test access port's register, and a boundary-scan instruction that was loaded (R578). -/
  jtagIr : Nat := 0
  scan : Bool := false
  /-- Standby: 0 no, 1 functions are being reset, 2 islands power down, 3 in standby (R526). -/
  standby : Nat := 0
  /-- A wake that matched while entry ran: its causes (R277). -/
  wake : Option Nat := none
  /-- The service image is awaited; digest of the one verified last (R452, R547). -/
  svcWait : Bool := false
  /-- A restart of the management island whose event is due once it is ready (R457): unit and DATA. -/
  mgmtEvent : Option Nat := none
  svcImage : Nat := 0
  deriving DecidableEq, Repr, Inhabited

/-- Clocks (R509, R514 to R518), in 100 MHz; keys: class 0 SVC, 1 MARA, 2 COLL, 3 XPORT and CIPH. -/
structure Power where
  /-- Clock that capping grants a class; missing: its maximum. -/
  cap : Tbl Nat := []
  /-- Clock that thermal throttling grants: tile * 4 + class. -/
  therm : Tbl Nat := []
  /-- Clocks that wait for their tile's voltage: tile * 4 + class, the present clock. -/
  rising : Tbl Nat := []
  deriving DecidableEq, Repr, Inhabited

/-- Starting Blocks (R465 to R468). -/
structure Monitor where
  baud : Nat := 115200
  nonce : Option Nat := none
  unlocked : Bool := false
  rejects : Nat := 0
  lockout : Bool := false
  /-- Console rings, by tile (R448). -/
  console : Tbl (List Byte) := []
  deriving DecidableEq, Repr, Inhabited

/-- PCIe ports and sideband interfaces. -/
structure Ports where
  /-- Root ports under DPC containment; sublinks whose discovery runs (R539, R545). -/
  dpc : List Nat := []
  scanning : List Nat := []
  /-- VF Enable of the PFs (R442). -/
  vfEnable : List Nat := []
  /-- Requests accepted by a DOE mailbox while an image is activated: mailbox, code, body (R548), and DOE Error by mailbox. -/
  doeWait : List (Nat × Nat × List Byte) := []
  doeError : List Nat := []
  /-- Dynamic I3C address (R577). -/
  i3c : Option Nat := none
  /-- Bytes of the exception path's transmit ring whose records have been taken (R456). -/
  excTaken : Nat := 0
  deriving DecidableEq, Repr, Inhabited


/-! ## What the block sends -/

/-- Output pins (R570). -/
inductive Pin where
  | ppsOut
  | accPerstN (n : Nat)
  | wakeN
  | pwrStbyN
  | thermtripN
  deriving DecidableEq, Repr

/-- What the block has sent on its ports (DESIGN CHOICE, log entry 6). -/
inductive Out where
  /-- A posted data write on a path (R41). -/
  | write (path : Path) (w : BusWrite)
  /-- A Deferrable Memory Write: the last data write on a path, which its completion acknowledges (R41). -/
  | dmwr (path : Path) (w : BusWrite)
  /-- The 4-byte read of the last location written that acknowledges in its place (R42). -/
  | readBack (path : Path) (addr : Nat) (translated : Bool)
  /-- The state of a connection is written to its spill address, and is read from it: at the address of tier 1 in physical
  landing memory, or of tier 2 in host memory (R173). -/
  | spill (conn : Nat) (landing : Bool) (addr : Nat)
  | fill (conn : Nat) (landing : Bool) (addr : Nat)
  /-- A PCIe AtomicOp (R168): 0x14 FetchAdd, 0x15 CAS. -/
  | atomicOp (path : Path) (addr op arg1 arg2 : Nat) (translated : Bool)
  /-- An MSI-X message of a function's vector: address and data of its table entry (R101). -/
  | msix (func vector addr data : Nat)
  /-- A packet or frame that leaves a network port (R202), with its LSEQ on a native link. -/
  | tx (port : Nat) (item : TxItem) (seq : Nat)
  /-- A fragment of a frame that has been preempted: its bytes of the frame, and whether they are the last (R269). -/
  | fragment (port : Nat) (bytes : List Byte) (last : Bool)
  /-- A verify or respond mPacket of Clause 99 (R269). -/
  | verify (port : Nat) (respond : Bool)
  /-- A link word of a native port (R227). -/
  | linkWord (port word : Nat)
  /-- ATS translation request, page request, invalidate completion (R127 to R129): PASID and page. -/
  | ats (pasid page : Nat)
  | pageReq (pasid page : Nat)
  | atsInvDone (pasid : Nat)
  /-- The value a register read returns. -/
  | value (v : Nat)
  /-- A response of Starting Blocks: the values its lines show, and its code, 0 for OK (R466). -/
  | monitor (values : List Nat) (code : Nat)
  /-- Text lines on UART0 (R465). -/
  | uart (line : List Byte)
  /-- A response over a message interface: SPDM, MCTP, PLDM (R546). -/
  | message (kind : Nat) (body : List Byte)
  /-- An output pin changes (R570). -/
  | pin (name : Pin) (level : Bool)
  /-- An access fault to a hart (R450), or the data of its load. -/
  | hart (fault : Bool) (data : List Byte)
  /-- A configuration request below a root port (R533), or the answer to one from the host (R522). -/
  | config (port : Nat) (write : Bool) (addr data : Nat)
  | configRetry
  /-- A completion on a PCIe port (0 host, n + 1 accelerator port n): Successful, else Unsupported Request. -/
  | completion (port : Nat) (ok : Bool)
  deriving DecidableEq, Repr

/-- Levels of the output pins; an open-drain pin that is not driven counts as high. -/
structure Pins where
  accPerst : List Nat := []
  wakeN : Bool := true
  stbyN : Bool := true
  thermN : Bool := true
  deriving DecidableEq, Repr, Inhabited

/-- The block without the landing memory's contents. -/
structure Ix9 where
  /-- The register file: a field's value by its key where it is not the reset value (R12, R14). -/
  regs : Tbl Nat := []
  /-- Ordering code: 0 IX9-F10 to 4 IX9-E40S (R2). -/
  code : Nat := 0
  /-- Islands that are ready, and islands powered down (R16, R17). -/
  ready : List Nat := []
  off : List Nat := []
  q : Queues := {}
  x : Xlate := {}
  c : Conns := {}
  net : Net := {}
  lm : Lm := {}
  funcs : Tbl Func := []
  paths : Tbl PathSt := []
  ciph : Cipher := {}
  h : Colls := {}
  /-- Channels that are not IDLE. -/
  stride : Tbl Chan := []
  rcv : Recov := {}
  pins : Pins := {}
  /-- PTP time of the last PPS_IN edge the time base accepted. -/
  ppsAt : Option Nat := none
  nvm : Nvm := {}
  boot : Boot := {}
  pw : Power := {}
  mon : Monitor := {}
  io : Ports := {}
  /-- PTP time in ns (R65, R271), and time since power-on in ns, which no step of PTP time moves (DESIGN CHOICE, log entry 4). -/
  now : Nat := 0
  el : Nat := 0
  /-- Draws of free values so far (DESIGN CHOICE, log entry 3). -/
  freeCtr : Nat := 0
  /-- Landing writes of the present step, oldest first, by physical address: stored when the step ends. -/
  wr : List Host.Cell := []
  /-- Physical ranges zeroed in the present step: first address and end (R367, R379). -/
  zap : List (Nat × Nat) := []
  out : List Out := []
  /-- Length of `out` when the step began. -/
  sent : Nat := 0
  deriving DecidableEq, Repr, Inhabited

/-! ## The machine -/

/-- Why a step can stop with a fault: there is no reason. The spec gives every command of this block an outcome (an
error is the status of an entry, an error record or a discarded access), so the type has no constructor and nothing
raises it. Safe. -/
inductive Fault where
  deriving DecidableEq, Repr

/-- Why a step can be refused. -/
inductive Refusal where
  /-- Raised by the dispatcher for a command that has no meaning yet, by its mnemonic. Safe. -/
  | notModelled (mnemonic : String)
  deriving DecidableEq, Repr

/-- The whole machine. -/
structure State where
  dev : Ix9 := {}
  /-- Landing memory contents by physical address: rising, no zero byte; an unlisted byte is 0 (R367). -/
  cells : List Host.Cell := []
  /-- Commands that wait, first in first out. -/
  pending : List Instr := []
  deriving DecidableEq, Repr

/-- The canonical form of landing memory contents: addresses strictly rising, no entry that an unlisted address would
read as. -/
abbrev Memory.wf (m : List Host.Cell) : Prop :=
  m.Pairwise (fun a b => a.1 < b.1) ∧ ∀ c ∈ m, c.2 ≠ 0

/-- The machine right after reset, before PWR_OK asserts (R522): nothing is ready, no queue or connection exists,
landing memory is all zeros. -/
def State.reset : State := {}

end Sys2Proof.Machine
end

