-- ==== Sys2Proof/Machine/Tables.lean ====
section
/-!
DEFINITION. Operations on tables by number, lists, and the landing memory's list of cells.
-/

namespace Sys2Proof.Machine

variable {α : Type}

/-- The entry of a table at `k`. -/
def look (t : Tbl α) (k : Nat) : Option α :=
  match t with
  | [] => none
  | (i, v) :: r => if i = k then some v else look r k

/-- The table with `v` at `k`. -/
def put (t : Tbl α) (k : Nat) (v : α) : Tbl α :=
  match t with
  | [] => [(k, v)]
  | (i, w) :: r => if k < i then (k, v) :: (i, w) :: r else if k = i then (k, v) :: r else (i, w) :: put r k v

/-- The table without an entry at `k`. -/
def drop (t : Tbl α) (k : Nat) : Tbl α := t.filter (fun e => e.1 != k)

/-- The entry at `k`, or the default. -/
def lookD [Inhabited α] (t : Tbl α) (k : Nat) : α := (look t k).getD default

/-- The number at `k`, or 0. -/
def num (t : Tbl Nat) (k : Nat) : Nat := (look t k).getD 0

/-- The table with `f` applied to the entry at `k`, where there is one. -/
def upd (t : Tbl α) (k : Nat) (f : α → α) : Tbl α :=
  match look t k with
  | some v => put t k (f v)
  | none => t

/-- The table with `f` applied to the entry at `k`, the default where there is none. -/
def updD [Inhabited α] (t : Tbl α) (k : Nat) (f : α → α) : Tbl α := put t k (f (lookD t k))

/-- Adds `n` to the number at `k`. -/
def bump (t : Tbl Nat) (k n : Nat) : Tbl Nat := put t k (num t k + n)

def has (t : Tbl α) (k : Nat) : Bool := (look t k).isSome

/-- The first position at which `p` holds, with the element. -/
def findAt (l : List α) (p : α → Bool) : Option (Nat × α) :=
  let rec go : List α → Nat → Option (Nat × α)
    | [], _ => none
    | x :: r, i => if p x then some (i, x) else go r (i + 1)
  go l 0

/-- Removes the first element equal to `x`. -/
def removeFirst [BEq α] (l : List α) (x : α) : List α :=
  match l with
  | [] => []
  | y :: r => if y == x then r else y :: removeFirst r x

/-- The members of `l` put into rising order, without repeats. -/
def insertNat (l : List Nat) (k : Nat) : List Nat :=
  match l with
  | [] => [k]
  | i :: r => if k < i then k :: i :: r else if k = i then i :: r else i :: insertNat r k

/-- The first number from `start` on, cyclically below `n`, that `used` does not contain; none where all are used. -/
def pickFree (start n : Nat) (used : Nat → Bool) (tries : Nat) : Option Nat :=
  match tries with
  | 0 => none
  | t + 1 => if n = 0 then none else if used (start % n) then pickFree (start % n + 1) n used t else some (start % n)

/-! ## Landing memory cells -/

/-- The byte at a physical address: 0 where nothing is listed (R367). -/
def cellAt (m : List Host.Cell) (a : Nat) : Byte :=
  match m with
  | [] => 0
  | (i, b) :: r => if i = a then b else cellAt r a

/-- Stores one byte and keeps the canonical form. -/
def cellPut (m : List Host.Cell) (a : Nat) (b : Byte) : List Host.Cell :=
  match m with
  | [] => if b = 0 then [] else [(a, b)]
  | (i, c) :: r =>
    if a < i then (if b = 0 then (i, c) :: r else (a, b) :: (i, c) :: r)
    else if a = i then (if b = 0 then r else (a, b) :: r)
    else (i, c) :: cellPut r a b

/-- Stores the bytes written in a step, oldest first. -/
def storeAll (m w : List Host.Cell) : List Host.Cell := w.foldl (fun m c => cellPut m c.1 c.2) m

/-- `v` with bit `i` set or cleared. -/
def setBit (v i : Nat) (b : Bool) : Nat := setBits v i i (b2n b)

end Sys2Proof.Machine
end

