-- ==== Sys2Proof/Machine/Operands.lean ====
section
/-!
DEFINITION. The operand forms: fields of a submission entry's slots (R73 to R80), and the layouts the IX9 writes.
-/

namespace Sys2Proof.Machine

/-! ## Entries -/

/-- Slot `i` of an entry, 0 where it has none. -/
def Entry.slotAt (e : Entry) (i : Nat) : Nat := (e.slots[i]?).getD 0

/-- Bits of slot `i`, numbered from the slot's first byte. -/
def Entry.fld (e : Entry) (i msb lsb : Nat) : Nat := bits (e.slotAt i) msb lsb

/-- Fields of the common header (R73). -/
def Entry.op (e : Entry) : Nat := e.fld 0 7 0
def Entry.len (e : Entry) : Nat := if e.fld 0 11 8 = 0 then 16 else e.fld 0 11 8
def Entry.fence (e : Entry) : Bool := flag (e.slotAt 0) 12
def Entry.barrier (e : Entry) : Bool := flag (e.slotAt 0) 13
def Entry.scope (e : Entry) : Nat := e.fld 0 15 14
def Entry.signal (e : Entry) : Bool := flag (e.slotAt 0) 16
def Entry.solicit (e : Entry) : Bool := flag (e.slotAt 0) 17
def Entry.opflags (e : Entry) : Nat := e.fld 0 31 24
def Entry.tag (e : Entry) : Nat := e.fld 0 47 32
def Entry.object (e : Entry) : Nat := e.fld 0 87 64
def Entry.oparg0 (e : Entry) : Nat := e.fld 0 95 88
def Entry.oparg1 (e : Entry) : Nat := e.fld 0 126 96

/-- LEN of a header slot (R73). -/
def slotLen (s : Nat) : Nat := if bits s 11 8 = 0 then 16 else bits s 11 8

/-- PHASE of a slot (R73, R74). -/
def slotPhase (s : Nat) : Nat := bit s 127

/-- The phase element `k` of a ring of size 2^log2 carries (R72). -/
def phaseOf (k log2 : Nat) : Nat := if k / 2 ^ log2 % 2 = 0 then 1 else 0

/-- A local buffer descriptor (R75): address, length, list count. -/
structure Local where
  addr : Nat
  length : Nat
  count : Nat
  deriving DecidableEq, Repr

def Entry.localAt (e : Entry) (i : Nat) : Local := ⟨e.fld i 63 0, e.fld i 95 64, e.fld i 106 96⟩

/-- A remote descriptor (R78): offset, key, window. -/
structure Remote where
  offset : Nat
  rkey : Nat
  window : Nat
  deriving DecidableEq, Repr

def Entry.remoteAt (e : Entry) (i : Nat) : Remote := ⟨e.fld i 63 0, e.fld i 95 64, e.fld i 119 96⟩

/-- An operand slot (R79). -/
def Entry.operandAt (e : Entry) (i : Nat) : Nat := e.fld i 63 0

/-- The inline bytes of an inline send: 15 a slot (R80). -/
def Entry.inlineBytes (e : Entry) : List Byte :=
  ((e.slots.drop 1).flatMap (fun s => leBytes 15 s)).take e.oparg0

/-- Opcodes whose OBJECT is a connection (R80, R154 to R156). -/
def isConnOp (op : Nat) : Bool := 0x10 ≤ op && op ≤ 0x18

/-- The connection an entry uses, for the order of R34. -/
def Entry.conn (e : Entry) : Option Nat := if isConnOp e.op then some e.object else none

/-! ## Layouts the IX9 writes -/

/-- A completion entry (R95). -/
structure Cqe where
  tag : Nat := 0
  status : Nat := 0
  op : Nat := 0
  sqId : Nat := 0xFFFF
  cause : Nat := 0
  immValid : Bool := false
  solicited : Bool := false
  remote : Bool := false
  consumed : Nat := 0
  bytes : Nat := 0
  result : Nat := 0
  object : Nat := 0
  deriving DecidableEq, Repr

/-- The 32 bytes of a completion entry (R95) with its phase and time. -/
def Cqe.encode (c : Cqe) (phase time : Nat) : List Byte :=
  leBytes 4 (c.tag % 2 ^ 16 + c.status % 256 * 2 ^ 16 + c.op % 256 * 2 ^ 24)
  ++ leBytes 4 (c.sqId % 2 ^ 16 + c.cause % 256 * 2 ^ 16 + b2n c.immValid * 2 ^ 24 + b2n c.solicited * 2 ^ 25
      + b2n c.remote * 2 ^ 26 + phase * 2 ^ 31)
  ++ leBytes 4 c.consumed ++ leBytes 4 c.bytes ++ leBytes 8 c.result ++ leBytes 4 (c.object % 2 ^ 24) ++ leBytes 4 time

/-- The 16 bytes of an event entry (R98). -/
def Ev.encode (e : Ev) (phase time : Nat) : List Byte :=
  leBytes 4 (e.typ % 256 + phase * 2 ^ 31) ++ leBytes 4 e.source ++ leBytes 4 e.data ++ leBytes 4 time

end Sys2Proof.Machine
end

