-- ==== Sys2Proof/Machine/Flags.lean ====
section
/-!
DEFINITION. Status codes (R107), event types (R98), error codes, and the tests that raise events: the "flags" of this
block.
-/

namespace Sys2Proof.Machine

/-! ## Status codes (R107) -/

def ST_OK : Nat := 0x00
def ST_BAD_ENTRY : Nat := 0x01
def ST_BAD_OPCODE : Nat := 0x02
def ST_DOORBELL_AHEAD : Nat := 0x03
def ST_QUEUE_ERROR : Nat := 0x04
def ST_FLUSHED : Nat := 0x05
def ST_UNIT_ABSENT : Nat := 0x06
def ST_QUOTA : Nat := 0x07
def ST_NOT_READY : Nat := 0x08
def ST_BUS_ERROR : Nat := 0x10
def ST_STOPPED : Nat := 0x11
def ST_DATA_POISON : Nat := 0x12
def ST_REMOTE_ACCESS : Nat := 0x20
def ST_REMOTE_BUSY : Nat := 0x21
def ST_RETRY_EXCEEDED : Nat := 0x22
def ST_CONN_ABORTED : Nat := 0x23
def ST_ENDPOINT_RESETTING : Nat := 0x24
def ST_REMOTE_OP_ERROR : Nat := 0x25
def ST_HEAT_ABORTED : Nat := 0x40
def ST_HEAT_MEMBERSHIP : Nat := 0x41
def ST_REDUCE_INVALID : Nat := 0x42
def ST_ATT_SHAPE : Nat := 0x50
def ST_ATT_CONTEXT_LIMIT : Nat := 0x51
def ST_XLATE_FAULT : Nat := 0x60
def ST_XLATE_PERM : Nat := 0x61
def ST_XLATE_WITHDRAWN : Nat := 0x62
def ST_AUTH_FAIL : Nat := 0x70
def ST_AUTH_UNTRUSTED : Nat := 0x71
def ST_KEY_UNAVAILABLE : Nat := 0x72
def ST_FUNCTION_RESET : Nat := 0x80
def ST_ENGINE_RESET : Nat := 0x81
def ST_HANG_RECOVERED : Nat := 0x82

/-! ## Event types (R98) -/

def EV_COMPLETIONS : Nat := 0x01
def EV_QUEUE_ERROR : Nat := 0x02
def EV_FAULT : Nat := 0x03
def EV_FAULT_OVERFLOW : Nat := 0x04
def EV_QUOTA : Nat := 0x05
def EV_MAILBOX : Nat := 0x06
def EV_PORT : Nat := 0x07
def EV_DEVICE : Nat := 0x0F

/-! ## Tests -/

/-- R99: a completion with this status and SOLICITED, the `n`-th since the last event, raises an event at once. -/
def raisesEvent (modCount n status : Nat) (solicited : Bool) : Bool :=
  solicited || status != ST_OK || (modCount != 0 && modCount ≤ n)

/-- R37: the record of failures since the last FENCE, after an entry with this outcome. -/
def fenceRecord (failed fence : Bool) (status : Nat) : Bool :=
  if fence then status != ST_OK && status != ST_FLUSHED else failed || status != ST_OK

/-- R35: whether a completion entry is due. -/
def completionDue (signal : Bool) (status : Nat) : Bool := signal || status != ST_OK

/-- R179: PSN `q` follows PSN `p`. -/
def follows (q p : Nat) : Bool :=
  let d := (q + 2 ^ 24 - p % 2 ^ 24) % 2 ^ 24
  1 ≤ d && d < 2 ^ 23

/-- PSN arithmetic (R179). -/
def psnAdd (p n : Nat) : Nat := (p + n) % 2 ^ 24
def psnSub (p q : Nat) : Nat := (p + 2 ^ 24 - q % 2 ^ 24) % 2 ^ 24

end Sys2Proof.Machine
end

