-- ==== Sys2Proof/Machine/Ops.lean ====
section
/-!
DEFINITION. The shared operations: free values, registers (R12, R14), units and islands (R2, R17), functions (R430),
landing memory accesses (R366, R370), writes and acknowledgements on paths (R38, R41, R541), events (R98 to R101),
completions (R95, R96) and the end of entries (R34, R37, R39).
-/

namespace Sys2Proof.Machine

/-! ## Free values -/

/-- The next free value, and the block with the draw counted (DESIGN CHOICE, log entry 3). -/
def draw (d : Ix9) : Nat × Ix9 := (Config.freeNat d.freeCtr, { d with freeCtr := d.freeCtr + 1 })

def emit (d : Ix9) (o : Out) : Ix9 := { d with out := d.out ++ [o] }

/-- Asks for a reset. -/
def askReset (d : Ix9) (x : Due) : Ix9 := { d with rcv := { d.rcv with due := d.rcv.due ++ [x] } }

/-! ## Ordering codes, tiles and units -/

/-- Fitted tiles of an ordering code (R2). -/
def tilesOf (code : Nat) : Nat := if code = 0 then 4 else if code = 1 then 2 else 1

/-- UNITS_PRESENT of an ordering code (R2). -/
def unitsOf (code : Nat) : Nat :=
  if code = 0 then 0x01F7FFFF else if code = 1 then 0x01F7FE33 else if code = 2 then 0x01ECDC01
  else if code = 3 then 0x01EC5001 else 0x01EC5C01

/-- HBM stacks of an ordering code (R2, R362). -/
def stacksOf (code : Nat) : Nat := if code = 0 then 4 else if code = 1 then 2 else 0

/-- Unit numbers: bits of UNITS_PRESENT (R558). -/
def uTILE (n : Nat) : Nat := n
def uHBM (k : Nat) : Nat := 4 + k
def uMARATHON : Nat := 8
def uANCHORED : Nat := 9
def uCIPHER : Nat := 10
def uMACSEC : Nat := 11
def uNETGRP (g : Nat) : Nat := 12 + g
def uACCEL (n : Nat) : Nat := 14 + n
def uNATIVE : Nat := 18
def uWAKE : Nat := 19
def uSHED : Nat := 20
def uHOST : Nat := 21
def uTRACK : Nat := 22
def uMGMT : Nat := 23
def uSVC : Nat := 24

/-- UNITS_PRESENT reads 1 at bit `u`. -/
def present (d : Ix9) (u : Nat) : Bool := flag (unitsOf d.code) u

/-- Island numbers (R16). -/
def iXPORT (n : Nat) : Nat := 12 + 5 * n
def iCOLL (n : Nat) : Nat := 13 + 5 * n
def iMARA (n : Nat) : Nat := 14 + 5 * n
def iCIPH (n : Nat) : Nat := 15 + 5 * n
def iSVC (n : Nat) : Nat := 16 + 5 * n
/-- The island of the controllers of a stack: one a stack (R16, R362). -/
def iMEMCTL (k : Nat) : Nat := if k < 2 then 32 + k else 33 + k
def iXLATE (n : Nat) : Nat := if n < 2 then 34 else 37
def tileIslands (n : Nat) : List Nat := [iXPORT n, iCOLL n, iMARA n, iCIPH n, iSVC n]

/-- Islands that an ordering code fits (R2, R15, R16). -/
def fittedIslands (code : Nat) : List Nat :=
  let u := unitsOf code
  let tiles := List.range (tilesOf code)
  [0] ++ (if flag u uWAKE then [1] else []) ++ [2, 3]
  ++ (if flag u 2 || flag u 3 || flag u 13 || flag u 16 || flag u 17 then [4] else [])
  ++ (if flag u 12 then [5] else []) ++ (if flag u 13 then [6] else []) ++ [7]
  ++ ((List.range 4).filter (fun n => flag u (uACCEL n))).map (8 + ·)
  ++ tiles.flatMap (fun n => [iXPORT n, iCOLL n] ++ (if flag u uMARATHON then [iMARA n] else [])
      ++ (if flag u uCIPHER then [iCIPH n] else []) ++ [iSVC n])
  ++ ((List.range 4).filter (fun k => flag u (uHBM k))).map iMEMCTL
  ++ [34] ++ (if flag u 2 || flag u 3 then [37] else [])

/-- Islands counted towards a unit's READY_MAP bit (R16). -/
def unitIslands (code u : Nat) : List Nat :=
  let f := fittedIslands code
  let tiles := List.range (tilesOf code)
  (if u < 4 then [iXPORT u, iCOLL u, iXLATE u]
   else if u < 8 then [iMEMCTL (u - 4)]
   else if u = uMARATHON then tiles.map iMARA
   else if u = uANCHORED then tiles.map iCOLL
   else if u = uCIPHER then tiles.map iCIPH
   else if u = uMACSEC || u = uSHED then [5, 6]
   else if u = 12 then [5] else if u = 13 then [6]
   else if u < 18 then [8 + (u - 14)]
   else if u = uNATIVE then [3, 4]
   else if u = uWAKE then [1]
   else if u = uHOST then [7]
   else if u = uTRACK then [2, 3, 4]
   else if u = uMGMT then [0]
   else tiles.map iSVC).filter f.contains

def islandReady (d : Ix9) (i : Nat) : Bool := d.ready.contains i && !d.boot.scan

/-! ## Registers -/

/-- Key of a field's instance in the register file. -/
def regKey (f : Fld) (i : Nat) : Nat := f.id * 2 ^ 24 + i

/-- The home tile of a connection block at reset (R148). -/
def resetHome (code b : Nat) : Nat := b % tilesOf code

/-- Port of a Stride channel at reset (R385): 0 host, n + 1 accelerator port n, 7 local. -/
def resetChanPort (code c : Nat) : Nat :=
  if c < 32 then 0
  else if c < 96 then (if flag (unitsOf code) (uACCEL ((c - 32) / 16)) then (c - 32) / 16 + 1 else 7)
  else 7

/-- Direction of a Stride channel at reset (R385): 0 OUT, 1 IN. -/
def resetChanDir (c : Nat) : Nat := if c < 32 then c / 16 else if c < 96 then (c - 32) / 8 % 2 else 0

/-- TDP of an ordering code in W (R2, R515). -/
def tdpOf (code : Nat) : Nat := if code = 0 then 600 else if code = 1 then 380 else if code = 2 then 160 else 45

/-- The value reset gives a field: the table's, or the one a rule computes. -/
def resetValue (d : Ix9) (f : Fld) (i : Nat) : Nat :=
  if f.id = Fld.CONN_STEER_HOME.id then resetHome d.code (i % 256)
  else if f.id = Fld.STRIDE_CH_CFG_PORT.id then resetChanPort d.code i
  else if f.id = Fld.STRIDE_CH_CFG_DIR.id then resetChanDir i
  else if f.id = Fld.PWR_CAP_LIMIT.id then tdpOf d.code
  else f.rst

/-- The value of a field's instance. -/
def rget (d : Ix9) (f : Fld) (i : Nat := 0) : Nat := (look d.regs (regKey f i)).getD (resetValue d f i)

/-- The field as a flag. -/
def rflag (d : Ix9) (f : Fld) (i : Nat := 0) : Bool := rget d f i % 2 == 1

/-- Sets a field's instance to the low bits of `v`. -/
def rset (d : Ix9) (f : Fld) (i v : Nat) : Ix9 := { d with regs := put d.regs (regKey f i) (v % 2 ^ f.width) }

/-- Adds `n` to a counter. Where the sum leaves the counter's width the spec gives no value: a free one (DESIGN CHOICE, log entry 3). -/
def count (d : Ix9) (f : Fld) (i : Nat := 0) (n : Nat := 1) : Ix9 :=
  if rget d f i + n < 2 ^ f.width then rset d f i (rget d f i + n)
  else rset (draw d).2 f i (draw d).1

/-- Restores the reset value of every field that `p` selects, by field and instance (R14). -/
def rrestore (d : Ix9) (p : Fld → Nat → Bool) : Ix9 :=
  { d with regs := d.regs.filter (fun e => !(Fld.all.any (fun f => f.id == e.1 / 2 ^ 24 && p f (e.1 % 2 ^ 24)))) }

/-- READY_MAP reads 1 at bit `u` (R17, R426, R535); the bit of an evacuated tile reads 0 (R499). -/
def unitReady (d : Ix9) (u : Nat) : Bool :=
  let isl := unitIslands d.code u
  present d u
    && (if u = uMARATHON then isl.all (islandReady d)
        else if u < 4 && d.off.contains (iXPORT u) then false
        else (isl.filter (fun i => !d.off.contains i)).all (islandReady d) && isl.any (fun i => !d.off.contains i))
    && (if u = uCIPHER || u = uMACSEC then rflag d Fld.VAULT_STATUS_ES_OK else true)
    && (if 14 ≤ u && u < 18 then
          rflag d Fld.PCIE_LINK_STATUS_DL_UP ((u - 13) * 2) || rflag d Fld.PCIE_LINK_STATUS_DL_UP ((u - 13) * 2 + 1)
        else true)

def readyMap (d : Ix9) : Nat := (List.range 25).foldl (fun a u => a + b2n (unitReady d u) * 2 ^ u) 0

/-- Tiles in service: fitted and not powered down for evacuation (R497). -/
def liveTiles (d : Ix9) : List Nat := (List.range (tilesOf d.code)).filter (fun n => !d.off.contains (iXPORT n))

/-! ## Functions -/

/-- Function ids that exist (R430). -/
def funcExists (f : Nat) : Bool := f < 5 || (0x10 ≤ f && f < 0x400)

/-- The function is a VF. -/
def isVf (f : Nat) : Bool := 0x10 ≤ f && f < 0x400

/-- The PF of a VF; a PF and IF0 are their own (R554). -/
def parentPf (f : Nat) : Nat := if isVf f then (f - 0x10) / 252 else f

def noFunc : Nat := 0x00F

/-- Keys of the admin queues of a function in the queue tables: they stand outside the global numbers. -/
def adminKey (f : Nat) : Nat := 0x10000 + f

def funcOf (d : Ix9) (f : Nat) : Func := lookD d.funcs f

def updFunc (d : Ix9) (f : Nat) (g : Func → Func) : Ix9 := { d with funcs := updD d.funcs f g }

/-- A weight of a function on a lane (R439). -/
def funcWeight (d : Ix9) (f lane : Nat) : Nat := ((look (funcOf d f).weights lane).getD 16)

/-! ## Landing memory -/

def unitBytes : Nat := 2 ^ 21

/-- The units of a function's landing space (R366). -/
def lmUnits (d : Ix9) (f : Nat) : List Nat := lookD d.lm.maps f

/-- Bytes of a function's landing space. -/
def lmSpace (d : Ix9) (f : Nat) : Nat := (lmUnits d f).length * unitBytes

/-- The physical address of an offset in a function's landing space (R366). -/
def lmPhys (d : Ix9) (f off : Nat) : Option Nat := ((lmUnits d f)[off / unitBytes]?).map (fun u => u * unitBytes + off % unitBytes)

/-- The stack and the channel of a physical landing address (R362, R363): 16 channels a stack, stacks rotate first. -/
def lmStack (d : Ix9) (a : Nat) : Nat := a / 256 % max 1 (stacksOf d.code)
def lmChannel (d : Ix9) (a : Nat) : Nat := a / (256 * max 1 (stacksOf d.code)) % 16

/-- The controller of a physical landing address is ready (R16, R19). -/
def lmUp (d : Ix9) (a : Nat) : Bool := islandReady d (iMEMCTL (lmStack d a))

/-- Every fitted stack is ready: any 4 KiB of landing memory touches each of them (R363). -/
def lmReady (d : Ix9) : Bool := (List.range (stacksOf d.code)).all (fun k => islandReady d (iMEMCTL k))

/-- The byte at a physical landing address, writes of this step included. -/
def lmByte (m : List Host.Cell) (d : Ix9) (a : Nat) : Byte :=
  match d.wr.reverse.find? (fun c => c.1 == a) with
  | some c => c.2
  | none => if d.zap.any (fun r => r.1 ≤ a && a < r.2) then 0 else cellAt m a

def lmBytes (m : List Host.Cell) (d : Ix9) (a n : Nat) : List Byte := (List.range n).map (fun i => lmByte m d (a + i))

/-- Writes zeros with valid check bits to a physical range (R367, R379). -/
def lmZero (d : Ix9) (a n : Nat) : Ix9 :=
  { d with zap := d.zap ++ [(a, a + n)], wr := d.wr.filter (fun c => !(a ≤ c.1 && c.1 < a + n)),
           lm := { d.lm with poison := d.lm.poison.filter (fun c => !(a ≤ c * 64 && c * 64 < a + n)) } }

/-- Some codeword of the range holds the poison marker (R369). -/
def lmPoisoned (d : Ix9) (a n : Nat) : Bool := d.lm.poison.any (fun c => a / 64 ≤ c && c * 64 < a + n)

/-- A read of a function's landing space: the bytes, or how it failed. The range may cross units. A controller that is not
ready answers domain-down (R19). -/
def lmRead (m : List Host.Cell) (d : Ix9) (f off n : Nat) : ReadData :=
  let addrs := (List.range n).map (fun i => lmPhys d f (off + i))
  if addrs.any (·.isNone) then .fail .other
  else
    let as := addrs.filterMap id
    if !as.all (lmUp d) then .domainDown
    else if as.any (fun a => d.lm.poison.contains (a / 64)) then .poisoned []
    else .ok (as.map (lmByte m d))

/-- Writes within one codeword (R370): a partial write of a poisoned codeword is not made; a whole write clears it. A
controller that is not ready takes none (R19). Returns whether the write met poison. -/
def lmWriteCw (d : Ix9) (a : Nat) (l : List Byte) : Ix9 × Bool :=
  if !lmUp d a then (d, false)
  else if d.lm.poison.contains (a / 64) && l.length < 64 then (d, true)
  else ({ d with wr := d.wr ++ (List.range l.length).zipWith (fun i b => (a + i, b)) l,
                 lm := { d.lm with poison := d.lm.poison.filter (· != a / 64) } }, false)

/-- A write to physical landing addresses, codeword by codeword; `fuel` bounds the codewords. -/
def lmWritePhys (fuel : Nat) (d : Ix9) (a : Nat) (l : List Byte) : Ix9 × Bool :=
  match fuel with
  | 0 => (d, false)
  | k + 1 =>
    if l.isEmpty then (d, false)
    else
      let n := 64 - a % 64
      let (d1, p1) := lmWriteCw d a (l.take n)
      let (d2, p2) := lmWritePhys k d1 (a + n) (l.drop n)
      (d2, p1 || p2)

/-- A write to a function's landing space, unit by unit. Offsets beyond the space are not written (R118). -/
def lmWriteFrom (fuel : Nat) (d : Ix9) (f off : Nat) (l : List Byte) : Ix9 × Bool :=
  match fuel with
  | 0 => (d, false)
  | k + 1 =>
    if l.isEmpty then (d, false)
    else
      let n := unitBytes - off % unitBytes
      let (d1, p1) := match lmPhys d f off with
        | some a => lmWritePhys (l.length + 1) d a (l.take n)
        | none => (d, false)
      let (d2, p2) := lmWriteFrom k d1 f (off + n) (l.drop n)
      (d2, p1 || p2)

def lmWrite (d : Ix9) (f off : Nat) (l : List Byte) : Ix9 × Bool := lmWriteFrom (l.length + 1) d f off l

/-! ## Paths -/

/-- The sublink of accelerator port `n` that an address goes to (R535). -/
def sublinkOf (d : Ix9) (n addr : Nat) : Nat :=
  if rflag d Fld.ACC_PORT_STATUS_BIF n
      && rget d Fld.ACC_BIF_B_BASE n * 2 ^ 12 ≤ addr && addr ≤ rget d Fld.ACC_BIF_B_LIMIT n * 2 ^ 12 + 0xFFF then 1 else 0

/-- The path of a translated address (R38). -/
def pathOf (d : Ix9) (p : Phys) : Path :=
  match p.target with
  | .host => .host
  | .landing => .landing
  | .accel n => .accel n (sublinkOf d n p.addr)
  | .remote .. => .landing

/-- Key of a path in the table of paths; also the number of its PCIE_ACK registers: port * 2 + sublink (R552). -/
def pathKey : Path → Nat
  | .host => 0
  | .accel n s => (n + 1) * 2 + s
  | .landing => 100

/-- The unit that owns a path (R46). -/
def pathUnit : Path → Nat
  | .host => uHOST
  | .accel n _ => uACCEL n
  | .landing => uTRACK

/-- The link of a path is up, or the landing controllers run. -/
def pathUp (d : Ix9) : Path → Bool
  | .landing => lmReady d
  | p => rflag d Fld.PCIE_LINK_STATUS_DL_UP (pathKey p)

def pathSt (d : Ix9) (p : Path) : PathSt := lookD d.paths (pathKey p)

def updPath (d : Ix9) (p : Path) (g : PathSt → PathSt) : Ix9 := { d with paths := updD d.paths (pathKey p) g }

/-- USE_DMWR of a path (R539, R540). -/
def useDmwr (d : Ix9) (p : Path) : Bool := rflag d Fld.PCIE_ACK_STATUS_USE_DMWR (pathKey p)

/-- A data write to a translated address (R32, R41). Landing writes meet R370; others are sent as posted writes.
Returns whether the write met poison. -/
def memWrite (d : Ix9) (p : Phys) (l : List Byte) : Ix9 × Bool :=
  match p.target with
  | .landing => lmWrite d p.func p.addr l
  | .remote .. => (d, false)
  | _ =>
    let path := pathOf d p
    if l.isEmpty || !pathUp d path then (d, false)
    else
      let w : BusWrite := ⟨p.addr, p.func, p.noSnoop, p.translated, l⟩
      (emit (updPath d path (fun s => { s with last := w, funcs := insertNat s.funcs p.func })) (.write path w), false)

/-- The bytes of a read of a translated address. Landing memory is the block's own; what the command brings decides
for the other targets, and for a landing read whether a controller found an uncorrectable codeword (R369, R371). -/
def memRead (m : List Host.Cell) (d : Ix9) (p : Phys) (n : Nat) (r : ReadData) : ReadData :=
  match p.target, r with
  | .landing, .poisoned _ => .poisoned []
  | .landing, .domainDown => .domainDown
  | .landing, _ => lmRead m d p.func p.addr n
  | .remote .., _ => .fail .other
  | _, .domainDown => .domainDown
  | _, .ok l => if !pathUp d (pathOf d p) then .domainDown else if l.length = n then .ok l else .fail .other
  | _, .own => .fail .other
  | _, r => r

/-- What leaves a path, newest first, with its newest posted write as a Deferrable Memory Write. -/
def lastAsDmwr (p : Path) : List Out → Option (List Out)
  | [] => none
  | .write q w :: r => if q = p then some (.dmwr p w :: r) else (lastAsDmwr p r).map (.write q w :: ·)
  | o :: r => (lastAsDmwr p r).map (o :: ·)

/-- Sends the last data write on a path as a DMWr (R41): the posted write of this step is that DMWr; where the last write
was posted in an earlier step, it goes once more, as a DMWr (R64). -/
def sendDmwr (d : Ix9) (p : Path) : Ix9 :=
  match lastAsDmwr p (d.out.drop d.sent).reverse with
  | some l => { d with out := d.out.take d.sent ++ l.reverse }
  | none => emit d (.dmwr p (pathSt d p).last)

/-- Sends an acknowledging request on a path: a DMWr, else the read-back of the last location written (R41, R42). -/
def sendAckReq (d : Ix9) (p : Path) (dmwr : Bool) : Ix9 :=
  if dmwr then sendDmwr d p
  else emit d (.readBack p (pathSt d p).last.lastWord (pathSt d p).last.translated)

/-- Issues one acknowledging request that covers every waiting entry (R541), where one may be issued. -/
def issueAck (d : Ix9) (p : Path) (asLastWrite : Bool) : Ix9 :=
  let s := pathSt d p
  if s.waiting.isEmpty || 16 ≤ s.reqs.length then d
  else
    let dmwr := asLastWrite && useDmwr d p
    sendAckReq (updPath d p (fun s =>
      { s with waiting := [], funcs := [], reqs := s.reqs ++ [⟨s.waiting, dmwr, 0, s.last, s.funcs⟩] })) p dmwr

/-- A write has been issued whose port acknowledgement `t` needs (R38). -/
def needPort (d : Ix9) (p : Path) (t : Tok) : Ix9 := updPath d p (fun s => { s with port := s.port ++ [t] })

/-- The last write of `t` on the path has been issued and `t` needs a destination acknowledgement (R38, R541). For
landing memory the controller's acceptance is both. -/
def needDest (d : Ix9) (p : Path) (t : Tok) : Ix9 :=
  if p = .landing then needPort d p t
  else
    let d := updPath d p (fun s => { s with waiting := s.waiting ++ [t], writing := s.writing.filter (· != t) })
    if (pathSt d p).writing.isEmpty then issueAck d p true else d

/-- `t` needs a destination acknowledgement and is still writing on the path (R541). -/
def stillWriting (d : Ix9) (p : Path) (t : Tok) : Ix9 :=
  if p = .landing then d
  else updPath d p (fun s => if s.writing.contains t then s else { s with writing := s.writing ++ [t] })

/-- The acknowledgement SCOPE and BARRIER ask for (R38 to R40). -/
def needAck (d : Ix9) (p : Path) (t : Tok) (scope : Nat) (barrier : Bool) : Ix9 :=
  if barrier || scope = 2 then needDest d p t else needPort d p t

/-! ## Events and interrupts -/

/-- Sends the MSI-X message of a vector under the PCIe mask rules (R98, R101): a masked vector sets its pending bit. -/
def msixSend (d : Ix9) (f vec : Nat) : Ix9 :=
  let fn := funcOf d f
  if fn.resetting then d
  else
    let (a, v, masked) := (look fn.msix vec).getD (0, 0, true)
    if fn.msixEnable && !fn.msixMask && !masked then emit d (.msix f vec a v)
    else updFunc d f (fun fn => { fn with pba := insertNat fn.pba vec })

/-- An event queue is full (R100). -/
def Eq.full (e : Eq) : Bool := e.cons + 2 ^ e.ring.log2 ≤ e.prod

def Ring.at_ (r : Ring) (k size : Nat) : Phys := { r.base with addr := r.base.addr + size * (k % 2 ^ r.log2) }

/-- Writes one event entry (R98) and sends the MSI-X message an armed queue owes (R101), after the entry has the
visibility R46 asks for. -/
def eqWrite (d : Ix9) (k : Nat) (ev : Ev) : Ix9 :=
  match look d.q.eqs k with
  | none => d
  | some e =>
    let d := (memWrite d (e.ring.at_ e.prod 16) (ev.encode (phaseOf e.prod e.ring.log2) (d.now % 2 ^ 32))).1
    let d := { d with q := { d.q with eqs := put d.q.eqs k { e with prod := e.prod + 1, arm := false } } }
    if !e.arm then d
    else if pathOf d e.ring.base = .host then msixSend d e.func e.vector
    else needDest d (pathOf d e.ring.base) (.msi k)

/-- An event waits, or is absorbed by a waiting one of its type and source (R100). -/
def absorb (l : List Ev) (ev : Ev) : List Ev :=
  if l.any (fun w => w.typ == ev.typ && w.source == ev.source)
  then l.map (fun w => if w.typ == ev.typ && w.source == ev.source then ev else w)
  else l ++ [ev]

/-- Raises an event at an event queue (R99, R100). A function in reset gets none (R442). -/
def eqRaise (d : Ix9) (k : Nat) (ev : Ev) : Ix9 :=
  match look d.q.eqs k with
  | none => d
  | some e =>
    if (funcOf d e.func).resetting then d
    else if e.full || !e.waiting.isEmpty then
      { d with q := { d.q with eqs := put d.q.eqs k { e with waiting := absorb e.waiting ev } } }
    else eqWrite d k ev

/-- Raises an event due to PF0's admin event queue; it waits while that queue is not enabled (R100, R441). -/
def pf0Event (d : Ix9) (typ source data : Nat) : Ix9 :=
  let ev : Ev := ⟨typ, source, data⟩
  if rflag d Fld.ADMIN_STATUS_READY 0 && has d.q.eqs (adminKey 0) && !(funcOf d 0).resetting then eqRaise d (adminKey 0) ev
  else { d with q := { d.q with pf0Waiting := absorb d.q.pf0Waiting ev } }

/-- Writes waiting events while there is room (R100). -/
def eqDrain (fuel : Nat) (d : Ix9) (k : Nat) : Ix9 :=
  match fuel with
  | 0 => d
  | n + 1 =>
    match look d.q.eqs k with
    | none => d
    | some e =>
      match e.waiting with
      | [] => d
      | ev :: r =>
        if e.full then d
        else eqDrain n (eqWrite { d with q := { d.q with eqs := put d.q.eqs k { e with waiting := r } } } k ev) k

/-! ## Completions -/

/-- The number a completion queue reports as CQ_ID, a submission queue as SQ_ID, an event queue as EQ_ID. -/
def cqIdOf (k : Nat) : Nat := if k < 0x10000 then k else Config.adminCqId (k - 0x10000) % 2 ^ 16
def sqIdOf (k : Nat) : Nat := if k < 0x10000 then k else Config.adminSqId (k - 0x10000) % 2 ^ 16

/-- The ring grants another reservation (R96). -/
def cqFree (d : Ix9) (k : Nat) : Bool :=
  match look d.q.cqs k with
  | none => false
  | some c => decide (c.prod - c.cons + c.reserved < 2 ^ c.ring.log2) && !(d.q.sqs.any (fun s => s.2.cq == k && s.2.errDue && s.2.entries.isEmpty))

def cqReserve (d : Ix9) (k : Nat) : Ix9 :=
  { d with q := { d.q with cqs := upd d.q.cqs k (fun c => { c with reserved := c.reserved + 1 }) } }

def cqRelease (d : Ix9) (k : Nat) : Ix9 :=
  { d with q := { d.q with cqs := upd d.q.cqs k (fun c => { c with reserved := c.reserved - 1 }) } }

/-- Raises the type 0x01 event of a completion queue, after the visibility R46 asks for. -/
def cqEvent (d : Ix9) (k : Nat) : Ix9 :=
  match look d.q.cqs k with
  | none => d
  | some c =>
    let d := { d with q := { d.q with cqs := put d.q.cqs k { c with uncovered := 0 } } }
    match look d.q.eqs c.eq with
    | none => d
    | some e =>
      if pathOf d c.ring.base = pathOf d e.ring.base then eqRaise d c.eq ⟨EV_COMPLETIONS, cqIdOf k, c.prod % 2 ^ 32⟩
      else needDest d (pathOf d c.ring.base) (.event k c.prod)

/-- Writes a completion entry (R95) and raises the event R99 asks for. -/
def cqWrite (d : Ix9) (k : Nat) (e : Cqe) : Ix9 :=
  match look d.q.cqs k with
  | none => d
  | some c =>
    let d := (memWrite d (c.ring.at_ c.prod 32) (e.encode (phaseOf c.prod c.ring.log2) (d.now % 2 ^ 32))).1
    let d := { d with q := { d.q with cqs := put d.q.cqs k { c with prod := c.prod + 1, uncovered := c.uncovered + 1, timer := c.modTime } } }
    if raisesEvent c.modCount (c.uncovered + 1) e.status e.solicited then cqEvent d k else d

/-! ## Entries of a submission queue -/

def sqAt (d : Ix9) (k : Nat) : Option Sq := look d.q.sqs k

/-- What is homed on tile `t` serves entries of the queue: its own tile, or the evacuated tile that the queue has been moved
from, whose groups, objects and channels stay there (R499). -/
def tileServes (d : Ix9) (s : Sq) (t : Nat) : Bool := t == s.tile || (t == s.origin && d.off.contains (iXPORT t))

/-- Every earlier entry of the queue that has been picked has started: its first read or packet is issued (R30). -/
def Sq.inTurn (s : Sq) (slot : Nat) : Bool :=
  (s.entries.takeWhile (fun e => e.slot != slot)).all (fun e => e.stage != .started || e.phase != 0)

def updSq (d : Ix9) (k : Nat) (g : Sq → Sq) : Ix9 := { d with q := { d.q with sqs := upd d.q.sqs k g } }

def Sq.entryAt (s : Sq) (slot : Nat) : Option Entry := s.entries.find? (fun e => e.slot == slot)

/-- Phase of a started entry that has been stopped and waits for its destination acknowledgements only (R62, R485). -/
def haltPhase : Nat := 99

/-- Changes the entry of a queue at a slot. -/
def updEntry (d : Ix9) (k slot : Nat) (g : Entry → Entry) : Ix9 :=
  updSq d k (fun s => { s with entries := s.entries.map (fun e => if e.slot == slot then g e else e) })

def entryAt (d : Ix9) (k slot : Nat) : Option Entry := (sqAt d k).bind (fun s => s.entryAt slot)

/-- An entry of an opcode that has been picked and has not been taken up yet, with its queue, once its turn has come. -/
def startedEntry (d : Ix9) (op k slot : Nat) : Option (Sq × Entry) :=
  match sqAt d k, entryAt d k slot with
  | some s, some e =>
    if e.op = op && e.stage = .started && e.phase = 0 && !e.issued && s.inTurn slot then some (s, e) else none
  | _, _ => none

/-- The entry has been stopped. -/
def halted (d : Ix9) (k slot : Nat) : Bool := (entryAt d k slot).any (fun e => e.phase == haltPhase)

/-- An entry has ended and its completion may be written now: every earlier entry is done where BARRIER asks (R39), and
every earlier entry of its connection (R34). -/
def mayComplete (before : List Entry) (e : Entry) : Bool :=
  e.stage = .ended
    && (!e.barrier || before.all (fun b => b.stage = .done))
    && (match e.conn with
        | none => true
        | some c => before.all (fun b => b.stage = .done || b.conn != some c))

/-- The completion entry of an ended entry. -/
def entryCqe (s : Sq) (k : Nat) (e : Entry) : Cqe :=
  { tag := e.tag, status := e.status, op := e.op, sqId := sqIdOf k, cause := e.cause, solicited := e.solicit,
    consumed := s.consumed % 2 ^ 32, bytes := e.bytes % 2 ^ 32, result := e.result % 2 ^ 64, object := e.object }

/-- Writes the completion of one ended entry, where one is due (R35), and gives its slot back (R96). -/
def completeOne (d : Ix9) (k : Nat) (s : Sq) (e : Entry) : Ix9 :=
  let d := if e.resv then cqRelease d s.cq else d
  let d := if completionDue e.signal e.status && !(funcOf d s.func).resetting then cqWrite d s.cq (entryCqe s k e) else d
  updEntry d k e.slot (fun e => { e with stage := .done, resv := false })

/-- Writes, in slot order, every completion that may be written (R34, R39). -/
def settleFrom (d : Ix9) (k : Nat) (before : List Entry) : List Entry → Ix9
  | [] => d
  | e :: r =>
    match sqAt d k with
    | none => d
    | some s =>
      if mayComplete before e then settleFrom (completeOne d k s e) k (before ++ [{ e with stage := .done }]) r
      else settleFrom d k (before ++ [e]) r

/-- Drops the entries at the front whose completions are done, keeping the record of R37. -/
def popDone (failed : Bool) : List Entry → Bool × List Entry
  | [] => (failed, [])
  | e :: r => if e.stage = .done then popDone (fenceRecord failed e.fence e.status) r else (failed, e :: r)

/-- Writes the completions that may be written and retires the entries at the front of the queue. -/
def settle1 (d : Ix9) (k : Nat) : Ix9 :=
  match sqAt d k with
  | none => d
  | some s =>
    let d := settleFrom d k [] s.entries
    updSq d k (fun s => { s with failed := (popDone s.failed s.entries).1, entries := (popDone s.failed s.entries).2 })

/-- Fixes the outcome of an entry. -/
def fixEntry (d : Ix9) (k slot status cause bytes result : Nat) : Ix9 :=
  updEntry d k slot (fun e =>
    if e.stage = .ended || e.stage = .done then e
    else { e with stage := .ended, status := status, cause := cause, bytes := bytes, result := result })

/-- A queue that is being destroyed and has no entry left goes; the entry that destroys it ends (R105). -/
def destroyIfEmpty (d : Ix9) (k : Nat) : Ix9 :=
  match sqAt d k with
  | none => d
  | some s =>
    match s.dying with
    | none => d
    | some (dk, dslot) =>
      if s.entries.isEmpty then
        settle1 (fixEntry { d with q := { d.q with sqs := drop d.q.sqs k } } dk dslot ST_OK 0 0 0) dk
      else d

def settle (d : Ix9) (k : Nat) : Ix9 := destroyIfEmpty (settle1 d k) k

/-- Ends an entry with a status (R107) and writes the completions that this allows. -/
def endEntry (d : Ix9) (k slot status : Nat) (cause bytes result : Nat := 0) : Ix9 :=
  settle (fixEntry d k slot status cause bytes result) k

/-- An entry whose work is issued in full ends when it lacks no acknowledgement (R45). -/
def endIfAcked (d : Ix9) (k slot : Nat) : Ix9 :=
  match entryAt d k slot with
  | none => d
  | some e =>
    if e.stage = .started && e.issued && e.acks = 0 then endEntry d k slot e.status e.cause e.bytes e.result else d

/-- The entry's work is issued in full, with this outcome once its acknowledgements are in. -/
def issuedEntry (d : Ix9) (k slot status : Nat) (cause bytes result : Nat := 0) : Ix9 :=
  endIfAcked (updEntry d k slot (fun e =>
    { e with issued := true, status := status, cause := cause, bytes := bytes, result := result })) k slot

/-- A data write of an entry on the path of `p`: its acknowledgement as SCOPE and BARRIER ask (R38, R45). -/
def entryAck (d : Ix9) (k slot : Nat) (p : Phys) : Ix9 :=
  match entryAt d k slot with
  | none => d
  | some e =>
    needAck (updEntry d k slot (fun e => { e with acks := e.acks + 1 })) (pathOf d p) (.entry k slot) e.scope e.barrier

end Sys2Proof.Machine
end

