-- ==== Sys2Proof/Machine/Crc.lean ====
section
/-!
DEFINITION. The check codes of native links and packets (R227, R228, R235) and the layout of the native header (R234).
-/

namespace Sys2Proof.Machine

/-- A CRC of `w` bits, most significant bit first, initial value 0. -/
def crcBits (w poly : Nat) (l : List Bool) : Nat :=
  l.foldl (fun c b =>
    let top := decide (2 ^ (w - 1) ≤ c)
    let c := c * 2 % 2 ^ w
    if top != b then c ^^^ poly else c) 0

/-- Bits [msb:lsb] of `v`, most significant first. -/
def bitList (v msb lsb : Nat) : List Bool := ((List.range (msb + 1 - lsb)).map (fun i => flag v (lsb + i))).reverse

/-- CRC-8 of a link word: x^8 + x^2 + x + 1 over bits [63:8] (R227). -/
def crc8 (w : Nat) : Nat := crcBits 8 0x07 (bitList w 63 8)

/-- A link word with its CRC-8 in bits [7:0]. -/
def withCrc8 (w : Nat) : Nat := w / 256 * 256 + crc8 w

/-- CRC-3 of a START word: x^3 + x + 1 over bits [59:55] and [51:40] (R228). -/
def crc3 (w : Nat) : Nat := crcBits 3 0x3 (bitList w 59 55 ++ bitList w 51 40)

/-- One byte of CRC32C, reflected (RFC 3720). -/
def crc32cByte (c : Nat) (b : Byte) : Nat :=
  (List.range 8).foldl (fun c _ => if c % 2 = 1 then (c / 2) ^^^ 0x82F63B78 else c / 2) (c ^^^ b.toNat)

/-- CRC32C (RFC 3720). -/
def crc32c (l : List Byte) : Nat := (l.foldl crc32cByte 0xFFFFFFFF) ^^^ 0xFFFFFFFF

/-- The START word of a packet on a link (R228). -/
def startWord (p : Packet) (lseq : Nat) : Nat :=
  let w := 1 * 2 ^ 60 + p.hops % 16 * 2 ^ 56 + b2n p.hopdone * 2 ^ 55 + lseq % 4096 * 2 ^ 40 + p.birth % 2 ^ 16 * 2 ^ 24
    + p.srcConn % 2 ^ 24
  w + crc3 w * 2 ^ 52

end Sys2Proof.Machine

namespace Sys2Proof
open Machine

/-- The 128-bit header (R234). -/
def Packet.header (p : Packet) : Nat :=
  p.dst % 2 ^ 17 * 2 ^ 111 + p.src % 2 ^ 17 * 2 ^ 94 + p.intm % 2 ^ 17 * 2 ^ 77 + p.lane % 8 * 2 ^ 74
  + p.typ % 32 * 2 ^ 69 + p.ecn % 4 * 2 ^ 67 + p.epoch % 2 * 2 ^ 66 + p.conn % 2 ^ 24 * 2 ^ 42 + p.psn % 2 ^ 24 * 2 ^ 18
  + p.len % 2 ^ 14 * 2 ^ 4 + b2n p.mc * 8 + b2n p.last * 4 + b2n p.ackreq * 2 + b2n p.imm

/-- The payload as sent: prefix, ciphertext and tag on a protected packet (R412). -/
def Packet.wireBytes (p : Packet) : List Byte :=
  match p.prot with
  | none => p.payload
  | some e => beBytes 1 e.epoch ++ beBytes 7 e.txc ++ p.payload ++ beBytes 16 e.tag

/-- Payload bytes as LEN counts them (R234, R412). -/
def Packet.payLen (p : Packet) : Nat := p.payload.length + (if p.prot.isSome then 24 else 0)

/-- The trailer the packet ought to carry (R235). -/
def Packet.trailer (p : Packet) : Nat :=
  crc32c (beBytes 2 p.birth ++ beBytes 3 p.srcConn ++ beBytes 16 p.header ++ p.wireBytes)

/-- The packet with its LEN and trailer set. -/
def Packet.seal (p : Packet) : Packet :=
  let p := { p with len := p.payLen }
  { p with crc := p.trailer }

/-- Bytes from header to trailer (R202). -/
def Packet.wireLen (p : Packet) : Nat := 20 + p.payLen

end Sys2Proof

namespace Sys2Proof.Machine

/-- Credits a packet uses (R230). -/
def creditsOf (payLen : Nat) : Nat := ceilDiv (20 + payLen) 128

/-- R236: the TYPE is assigned, and allowed on the lane with this MC. -/
def typeAllowed (typ lane : Nat) (mc : Bool) : Bool :=
  if 1 ≤ typ && typ ≤ 6 || typ = 8 then lane != 0 && !mc
  else if 9 ≤ typ && typ ≤ 0xF then lane == 0 && !mc
  else if typ = 0x10 then lane != 0 && mc
  else typ == 0x11 && lane == 0

/-- R236 checks of a native packet. -/
def packetWell (p : Packet) : Bool :=
  typeAllowed p.typ p.lane p.mc && p.len ≤ 8192 && p.len == p.payLen

end Sys2Proof.Machine
end

