-- ==== Sys2Proof/Machine/Frame.lean ====
section
/-!
DEFINITION. Ethernet frames: the RoCEv2-compatible encapsulation (R260), its parts as received (R257, R259), priority flow
control frames (R268) and MACsec protection (R270, R424).
-/

namespace Sys2Proof.Machine

/-! ## Check sequences -/

/-- One byte of the reflected CRC-32 of Ethernet. -/
def crc32Byte (c : Nat) (b : Byte) : Nat :=
  (List.range 8).foldl (fun c _ => if c % 2 = 1 then (c / 2) ^^^ 0xEDB88320 else c / 2) (c ^^^ b.toNat)

def crc32 (l : List Byte) : Nat := (l.foldl crc32Byte 0xFFFFFFFF) ^^^ 0xFFFFFFFF

/-- The frame check sequence as sent. -/
def fcs (l : List Byte) : List Byte := leBytes 4 (crc32 l)

/-- The one's complement checksum of an IPv4 header. -/
def ipSum (l : List Byte) : Nat :=
  let rec go : List Byte → Nat
    | a :: b :: r => a.toNat * 256 + b.toNat + go r
    | [a] => a.toNat * 256
    | [] => 0
  let s := go l
  let s := s / 65536 + s % 65536
  (s / 65536 + s) % 65536

def ones (n : Nat) : List Byte := List.replicate n 255

/-- The ICRC (Annex A17): over 8 bytes of ones, then IP, UDP, BTH and payload with the fields that change on the way read
as ones. `ip` is the IP header, `udp` the UDP header, `bth` the BTH, `rest` what follows up to the ICRC (PRESUMED, log entry 10). -/
def icrc (ipv6 : Bool) (ip udp bth rest : List Byte) : List Byte :=
  let ip := if ipv6 then
      [(ip.headD 0) ||| 0x0F] ++ ones 3 ++ (ip.drop 4).take 3 ++ ones 1 ++ ip.drop 8
    else ip.take 1 ++ ones 1 ++ (ip.drop 2).take 6 ++ ones 1 ++ (ip.drop 9).take 1 ++ ones 2 ++ ip.drop 12
  let udp := udp.take 6 ++ ones 2
  let bth := bth.take 4 ++ ones 1 ++ bth.drop 5
  leBytes 4 (crc32 (ones 8 ++ ip ++ udp ++ bth ++ rest))

/-! ## The frame of a RoCEv2-compatible packet (R260) -/

/-- Pad bytes of a payload. -/
def padOf (n : Nat) : Nat := (4 - n % 4) % 4

/-- The 12 BTH bytes (R260). -/
def Roce.bth (r : Roce) : List Byte :=
  beBytes 1 r.op ++ beBytes 1 (b2n r.se * 128 + padOf r.body.length * 16) ++ beBytes 2 0xFFFF ++ beBytes 1 r.flags
    ++ beBytes 3 r.destQp ++ beBytes 1 (b2n r.ackreq * 128) ++ beBytes 3 r.psn

/-- What follows the BTH up to the ICRC: body and pad, between prefix and tag on a protected packet (R412). -/
def Roce.rest (r : Roce) : List Byte :=
  let b := r.body ++ List.replicate (padOf r.body.length) 0
  match r.prot with
  | none => b
  | some e => beBytes 1 e.epoch ++ beBytes 7 e.txc ++ b ++ beBytes 16 e.tag

/-- The frame from destination address up to the FCS, without it. -/
def frameBytes (h : EthHdr) (r : Roce) : List Byte :=
  let bth := Roce.bth r
  let rest := Roce.rest r
  let n := 8 + 12 + rest.length + 4
  let udp := beBytes 2 h.sport ++ beBytes 2 4791 ++ beBytes 2 n ++ beBytes 2 0
  let ip :=
    if h.ipv6 then
      beBytes 4 (6 * 2 ^ 28 + (h.dscp % 64 * 4 + r.ecn % 4) * 2 ^ 20 + h.flow % 2 ^ 20) ++ beBytes 2 n ++ beBytes 1 17
        ++ beBytes 1 h.ttl ++ beBytes 16 h.src ++ beBytes 16 h.dst
    else
      let a := beBytes 1 0x45 ++ beBytes 1 (h.dscp % 64 * 4 + r.ecn % 4) ++ beBytes 2 (20 + n) ++ beBytes 2 0 ++ beBytes 2 0x4000
        ++ beBytes 1 h.ttl ++ beBytes 1 17
      let b := beBytes 4 h.src ++ beBytes 4 h.dst
      a ++ beBytes 2 (65535 - ipSum (a ++ b)) ++ b
  let tag := match h.tag with
    | some (v, p) => beBytes 2 0x8100 ++ beBytes 2 (p % 8 * 2 ^ 13 + b2n h.dei * 2 ^ 12 + v % 2 ^ 12)
    | none => []
  beBytes 6 h.dmac ++ beBytes 6 h.smac ++ tag ++ beBytes 2 (if h.ipv6 then 0x86DD else 0x0800) ++ ip ++ udp ++ bth ++ rest
    ++ icrc h.ipv6 ip udp bth rest

/-- Frame length from destination address to FCS. -/
def frameLen (h : EthHdr) (r : Roce) : Nat := (frameBytes h r).length + 4

/-! ## Received frames -/

/-- Big-endian field of a byte list. -/
def fieldBE (l : List Byte) (off n : Nat) : Nat := beNat ((l.drop off).take n)

/-- The Ethernet header of a frame: EtherType after an optional tag, its tag, and what follows. -/
structure EthView where
  dst : Nat
  src : Nat
  tci : Option Nat
  etype : Nat
  rest : List Byte
  deriving DecidableEq, Repr

def ethView (l : List Byte) : EthView :=
  if fieldBE l 12 2 = 0x8100 then ⟨fieldBE l 0 6, fieldBE l 6 6, some (fieldBE l 14 2), fieldBE l 16 2, l.drop 18⟩
  else ⟨fieldBE l 0 6, fieldBE l 6 6, none, fieldBE l 12 2, l.drop 14⟩

/-- A valid IP packet: version, traffic class byte, protocol, addresses, header and payload (check 10 of R257). -/
structure IpView where
  ipv6 : Bool
  tos : Nat
  proto : Nat
  src : Nat
  dst : Nat
  hdr : List Byte
  pay : List Byte
  deriving DecidableEq, Repr

def ipView (etype : Nat) (l : List Byte) : Option IpView :=
  if etype = 0x0800 then
    let total := fieldBE l 2 2
    let frag := fieldBE l 6 2
    if fieldBE l 0 1 = 0x45 && ipSum (l.take 20) = 65535 && frag % 2 ^ 14 = 0 && 20 ≤ total && total ≤ l.length
    then some ⟨false, fieldBE l 1 1, fieldBE l 9 1, fieldBE l 12 4, fieldBE l 16 4, l.take 20, (l.take total).drop 20⟩
    else none
  else
    let n := fieldBE l 4 2
    if fieldBE l 0 1 / 16 = 6 && 40 + n ≤ l.length
    then some ⟨true, fieldBE l 0 4 / 2 ^ 20 % 256, fieldBE l 6 1, fieldBE l 8 16, fieldBE l 24 16, l.take 40, (l.take (40 + n)).drop 40⟩
    else none

/-- Exception class of an IP packet by its own fields (R258); check 8 of R257 stands before the checks of its header. A UDP
port is there in a first fragment only. -/
def excIp (ipv6 : Bool) (l : List Byte) : Option Nat :=
  let proto := if ipv6 then fieldBE l 6 1 else fieldBE l 9 1
  let port := fieldBE l (if ipv6 then 42 else fieldBE l 0 1 % 16 * 4 + 2) 2
  if proto = (if ipv6 then 58 else 1) then some 1
  else if proto = 17 && (ipv6 || fieldBE l 6 2 % 2 ^ 13 = 0) && (port = 319 || port = 320) then some 3
  else none

/-- Exception class of a frame (R258): bit number in ETH_EXC_CFG. -/
def excClass (v : EthView) : Option Nat :=
  if v.etype = 0x0806 then some 0
  else if v.etype = 0x88CC then some 2
  else if v.etype = 0x88F7 then some 3
  else if v.etype = 0x888E then some 4
  else if v.etype = 0x0800 then excIp false v.rest
  else if v.etype = 0x86DD then excIp true v.rest
  else none

/-- The PTP message of a frame, if it carries one; `true` where it runs over UDP port 319 or layer 2 (R271). -/
def ptpMessage (v : EthView) : Option (List Byte) :=
  if v.etype = 0x88F7 then some v.rest
  else
    match (if v.etype = 0x0800 || v.etype = 0x86DD then ipView v.etype v.rest else none) with
    | some ip => if ip.proto = 17 && fieldBE ip.pay 2 2 = 319 then some (ip.pay.drop 8) else none
    | none => none

/-- A PTP event message: type, domain and sequence (IEEE 1588: types 0 to 3). -/
def ptpEvent (v : EthView) : Option (Nat × Nat × Nat) :=
  match ptpMessage v with
  | some m => if fieldBE m 0 1 % 16 < 4 then some (fieldBE m 0 1 % 16, fieldBE m 4 1, fieldBE m 30 2) else none
  | none => none

/-- Where the PTP message of a frame begins. -/
def ptpOffset (v : EthView) : Nat :=
  let h := if v.tci.isSome then 18 else 14
  if v.etype = 0x88F7 then h else if v.etype = 0x86DD then h + 48 else h + 28

/-- `l` with `b` put at offset `off`. -/
def patch (l : List Byte) (off : Nat) (b : List Byte) : List Byte := l.take off ++ b ++ l.drop (off + b.length)

/-- The UDP checksum of a frame computed afresh where its message runs over UDP. -/
def fixUdp (l : List Byte) : List Byte :=
  let v := ethView l
  match (if v.etype = 0x0800 || v.etype = 0x86DD then ipView v.etype v.rest else none) with
  | none => l
  | some ip =>
    let u := patch ip.pay 6 (beBytes 2 0)
    let pseudo := (if ip.ipv6 then beBytes 16 ip.src ++ beBytes 16 ip.dst else beBytes 4 ip.src ++ beBytes 4 ip.dst)
      ++ beBytes 2 17 ++ beBytes 2 u.length
    let c := 65535 - ipSum (pseudo ++ u)
    patch l (ptpOffset v - 2) (beBytes 2 (if c = 0 then 65535 else c))

/-- The ECN field of a frame; 0 where it carries no IP packet. -/
def frameEcn (l : List Byte) : Nat :=
  let v := ethView l
  if v.etype = 0x0800 then fieldBE v.rest 1 1 % 4 else if v.etype = 0x86DD then fieldBE v.rest 0 2 / 16 % 4 else 0

/-- ECN 0b01 or 0b10 becomes 0b11 (R204, R213); the IPv4 header checksum is computed afresh. -/
def frameMark (l : List Byte) : List Byte :=
  let v := ethView l
  let off := if v.tci.isSome then 18 else 14
  if frameEcn l != 1 && frameEcn l != 2 then l
  else if v.etype = 0x0800 then
    let h := patch (patch (v.rest.take (max 20 (fieldBE v.rest 0 1 % 16 * 4))) 1 (beBytes 1 (fieldBE v.rest 1 1 ||| 3))) 10 [0, 0]
    patch l off (patch h 10 (beBytes 2 (65535 - ipSum h)))
  else patch l off (beBytes 2 (fieldBE v.rest 0 2 ||| 0x30))

/-- DEI becomes 1 on a tagged frame (R213). -/
def frameDei (l : List Byte) : List Byte :=
  match (ethView l).tci with
  | some t => patch l 14 (beBytes 2 (t ||| 0x1000))
  | none => l

/-- One-step operation (R271): the egress time written into originTimestamp of a Sync, or added to correctionField of a
Pdelay_Resp. The frame is given without its FCS. -/
def oneStep (l : List Byte) (typ t : Nat) : List Byte :=
  let off := ptpOffset (ethView l)
  if typ = 0 then fixUdp (patch l (off + 34) (beBytes 6 (t / 10 ^ 9) ++ beBytes 4 (t % 10 ^ 9)))
  else fixUdp (patch l (off + 8) (beBytes 8 ((fieldBE l (off + 8) 8 + t * 65536) % 2 ^ 64)))

/-! ## Priority flow control frames (R268) -/

/-- A PFC frame (without FCS) with these quanta for each priority of `prios`. -/
def pfcFrame (smac prios quanta : Nat) : List Byte :=
  beBytes 6 0x0180C2000001 ++ beBytes 6 smac ++ beBytes 2 0x8808 ++ beBytes 2 0x0101 ++ beBytes 2 prios
    ++ (List.range 8).flatMap (fun c => beBytes 2 (if flag prios c then quanta else 0)) ++ List.replicate 26 0

/-- Priorities and quanta a received MAC control frame names, if it is a PFC frame. -/
def pfcView (v : EthView) : Option (Nat × List Nat) :=
  if v.etype = 0x8808 && fieldBE v.rest 0 2 = 0x0101
  then some (fieldBE v.rest 2 2, (List.range 8).map (fun c => fieldBE v.rest (4 + 2 * c) 2)) else none

/-! ## MACsec (R270) -/

/-- The IV of GCM-AES-XPN: short SCI and 64-bit packet number, exclusive-ored with the salt (IEEE 802.1AE-2018)
(PRESUMED, log entry 10). -/
def xpnIv (s : Sa) (pn : Nat) : Nat := (s.ssci * 2 ^ 64 + pn) ^^^ s.salt

/-- Bytes of the confidentiality offset of ETH_MACSEC_CFG. -/
def confOffset (v : Nat) : Nat := if v = 1 then 30 else if v = 2 then 50 else 0

/-- Protects a frame (without FCS) under an association: SecTAG, confidential part, ICV. -/
def macsecSeal (s : Sa) (off : Nat) (withSci : Bool) (l : List Byte) : List Byte :=
  let body := l.drop 12
  let n := if body.length < 48 then body.length else 0
  let tag := beBytes 2 0x88E5 ++ beBytes 1 (b2n withSci * 32 + 12 + s.an) ++ beBytes 1 n ++ beBytes 4 (s.pn % 2 ^ 32)
    ++ (if withSci then beBytes 8 s.sci else [])
  let aad := l.take 12 ++ tag ++ body.take off
  let plain := body.drop off
  l.take 12 ++ tag ++ body.take off ++ Config.aeadSeal s.key (xpnIv s s.pn) aad plain
    ++ beBytes 16 (Config.aeadTag s.key (xpnIv s s.pn) aad plain)

/-- The 64-bit packet number behind 32 received bits, by the lowest number still expected. -/
def xpnRecover (next low : Nat) : Nat :=
  let hi := next / 2 ^ 32 * 2 ^ 32 + low
  if hi + 2 ^ 31 ≤ next then hi + 2 ^ 32 else hi

/-- What MACsec makes of a received frame (without FCS). -/
inductive MacsecRes where
  | plain (l : List Byte) (pn : Nat)
  | icvFail | noSa | late
  deriving DecidableEq, Repr

/-- Checks a protected frame under the receive associations of its port (R270). -/
def macsecOpen (sas : List Sa) (off window : Nat) (l : List Byte) : MacsecRes × Option Sa :=
  let tci := fieldBE l 14 1
  let hasSci := flag tci 5
  let low := fieldBE l 16 4
  let sci := fieldBE l 20 8
  let hlen := if hasSci then 28 else 20
  match sas.find? (fun s => !s.tx && s.an == tci % 4 && (!hasSci || s.sci == sci)) with
  | none => (.noSa, none)
  | some s =>
    let pn := xpnRecover s.pn low
    if pn < max s.low (s.pn - window) then (.late, some s)
    else
      let body := l.drop hlen
      let tag := beNat (body.drop (body.length - 16))
      let data := body.take (body.length - 16)
      let aad := l.take hlen ++ data.take off
      if Config.aeadCheck s.key (xpnIv s pn) aad (data.drop off) tag then
        (.plain (l.take 12 ++ data.take off ++ Config.aeadOpen s.key (xpnIv s pn) aad (data.drop off)) pn, some s)
      else (.icvFail, some s)

end Sys2Proof.Machine
end

