-- ==== Sys2Proof/Machine/Net.lean ====
section
/-!
DEFINITION. Ports, lanes, meters, time gates and the routes of the native fabric (07_pacing_and_gates.md,
08_native_fabric.md, R255 of 09_ethernet_ports.md).
-/

namespace Sys2Proof.Machine

/-! ## Ports (R255) -/

/-- Lanes fitted in a network group (R2). -/
def lanesFitted (code g : Nat) : Nat :=
  if !flag (unitsOf code) (uNETGRP g) then 0 else if code < 3 then 8 else 4

/-- Lanes per port in the group's mode. -/
def laneWidth (d : Ix9) (g : Nat) : Nat :=
  let m := rget d Fld.ETH_GRP_CFG_MODE g
  let m := if m = 0 && 3 ≤ d.code then 1 else m
  8 / 2 ^ m

def portExists (d : Ix9) (p : Nat) : Bool :=
  p < 16 && p % 8 % laneWidth d (p / 8) == 0 && decide (p % 8 + laneWidth d (p / 8) ≤ lanesFitted d.code (p / 8))

def portOf (d : Ix9) (p : Nat) : Port := lookD d.net.ports p

def updPort (d : Ix9) (p : Nat) (g : Port → Port) : Ix9 := { d with net := { d.net with ports := updD d.net.ports p g } }

def isNative (d : Ix9) (p : Nat) : Bool := rflag d Fld.LINK_CFG_NATIVE p

/-- The port carries traffic: its native link or its Ethernet link is up. -/
def portUp (d : Ix9) (p : Nat) : Bool :=
  portExists d p && (if isNative d p then rflag d Fld.LINK_STATUS_UP p else rflag d Fld.ETH_STATUS_UP p)

/-- Lanes in use: a shed Ethernet port uses fewer (R273). -/
def portLanes (d : Ix9) (p : Nat) : Nat :=
  let n := rget d Fld.ETH_LS_STATUS_LANES p
  if !isNative d p && n != 0 then n else laneWidth d (p / 8)

/-- Present rate in Mb/s. -/
def portRate (d : Ix9) (p : Nat) : Nat := 200000 * portLanes d p

/-- A signed register field of `w` bits. -/
def rsigned (d : Ix9) (f : Fld) (i w : Nat) : Int := signed w (rget d f i)

/-- wire(k) of R202. PORT_OVERHEAD below -32 acts as -32. -/
def wireOf (d : Ix9) (p len : Nat) : Nat := ((len : Int) + max (-32) (rsigned d Fld.PORT_OVERHEAD p 7)).toNat

/-! ## Meters (R211 to R213) -/

inductive Colour where
  | green | yellow | red
  deriving DecidableEq, Repr

/-- The meter bound at an index of the binding table: egress 8f + n, ingress 8192 + 8p + n (R224). L0 is never bound. -/
def meterAt (d : Ix9) (idx : Nat) : Option Nat :=
  if idx % 8 = 0 || !rflag d Fld.METER_BIND_EN idx then none
  else some (rget d Fld.METER_BIND_METER idx)

/-- The function holds the meter in its allotment; a meter taken away acts as EN 0 (R436). -/
def meterHeld (d : Ix9) (f m : Nat) : Bool :=
  let fn := funcOf d f
  fn.meterFirst ≤ m && m < fn.meterFirst + fn.meterCount

/-- Mb/s over a time in ns, in 1/1024 byte. -/
def mbpsBytes (rate dt : Nat) : Nat := rate * dt * 1024 / 8000

/-- R212: colours a packet of `len` bytes and charges the buckets. `again`: it has been coloured red before, and waits; that
counts once (R223). A meter that is not enabled passes green (DESIGN CHOICE, log entry 8). -/
def meterColour (d : Ix9) (m len : Nat) (inc : Colour) (again : Bool) : Ix9 × Colour :=
  if !rflag d Fld.METER_EN m then (d, inc)
  else
    let cbs := max 9664 (rget d Fld.METER_CBS m) * 1024
    let pbs := max cbs (rget d Fld.METER_PBS m * 1024)
    let st := (look d.net.meters m).getD ⟨cbs, pbs, d.el⟩
    let dt := d.el - st.upTo
    let tc := min cbs (st.tc + mbpsBytes (rget d Fld.METER_CIR m) dt)
    let tp := min pbs (st.tp + mbpsBytes (rget d Fld.METER_PIR m) dt)
    let b := ((len : Int) + max (-32) (rsigned d Fld.METER_OVERHEAD m 7)).toNat * 1024
    let inc := if rflag d Fld.METER_AWARE m then inc else .green
    let (tc, tp, c) :=
      if inc = .red || tp < b then (tc, tp, Colour.red)
      else if inc = .yellow || tc < b then (tc, tp - b, Colour.yellow)
      else (tc - b, tp - b, Colour.green)
    let d := { d with net := { d.net with meters := put d.net.meters m ⟨tc, tp, d.el⟩ } }
    (match c with
     | .green => count d Fld.METER_GREEN m
     | .yellow => count d Fld.METER_YELLOW m
     | .red => if again then d else count d Fld.METER_RED m, c)

/-- A meter whose EN turns from 0 to 1 has both buckets full (R212, R223). -/
def meterFill (d : Ix9) (m : Nat) : Ix9 := { d with net := { d.net with meters := drop d.net.meters m } }

/-- New bursts clip the tokens present (R220). -/
def meterClip (d : Ix9) (m : Nat) : Ix9 :=
  let cbs := max 9664 (rget d Fld.METER_CBS m) * 1024
  let pbs := max cbs (rget d Fld.METER_PBS m * 1024)
  { d with net := { d.net with meters := upd d.net.meters m (fun s => { s with tc := min s.tc cbs, tp := min s.tp pbs }) } }

/-- What a colour does to a packet (R213): passes, passes marked, is discarded, or waits. -/
inductive MeterOut where
  | pass | mark | discard | hold
  deriving DecidableEq, Repr

/-- Applies a binding to a packet (R211, R213). -/
def meterApply (d : Ix9) (idx len : Nat) (inc : Colour) (egress : Bool) (again : Bool := false) : Ix9 × MeterOut × Colour :=
  match meterAt d idx with
  | none => (d, if inc = .green then .pass else .mark, inc)
  | some m =>
    if egress && !meterHeld d (idx / 8) m then (d, if inc = .green then .pass else .mark, inc)
    else
      match meterColour d m len inc again with
      | (d, .green) => (d, .pass, .green)
      | (d, .yellow) => (d, .mark, .yellow)
      | (d, .red) =>
        let a := rget d Fld.METER_RED_ACTION m
        if a = 1 then (d, .mark, .yellow) else if a = 2 && egress then (d, .hold, .red) else (d, .discard, .red)

/-- Marks a packet: ECN 0b10 or 0b01 becomes 0b11 (R204, R213). -/
def markEcn (e : Nat) : Nat := if e = 1 || e = 2 then 3 else e

def TxItem.mark : TxItem → TxItem
  | .native p => .native ({ p with ecn := markEcn p.ecn } : Packet).seal
  | .roce h r => .roce h { r with ecn := markEcn r.ecn }
  | .raw f r => .raw (frameMark f) r

/-- A yellow packet (R213): marked, and DEI 1 on a tagged frame. -/
def TxItem.yellow : TxItem → TxItem
  | .native p => (TxItem.native p).mark
  | .roce h r => (TxItem.roce { h with dei := true } r).mark
  | .raw f r => (TxItem.raw (frameDei f) r).mark

def TxItem.ecn : TxItem → Nat
  | .native p => p.ecn
  | .roce _ r => r.ecn
  | .raw f _ => frameEcn f

/-! ## Lane buffers (R199) -/

def laneQueue (d : Ix9) (p lane : Nat) : List QPkt := lookD (portOf d p).lanes lane

/-- The port's width follows its load (R273): EN, on a code that sheds, an Ethernet port that is up and does not retrain. -/
def sheds (d : Ix9) (p : Nat) : Bool :=
  d.code < 2 && rflag d Fld.ETH_LS_EN p && !isNative d p && portUp d p && !rflag d Fld.ETH_LS_STATUS_RETRAINING p

/-- Starts the retrain to another width (R274). -/
def lsRetrain (d : Ix9) (p n : Nat) : Ix9 :=
  rset (updPort d p (fun s => { s with lsTarget := some n, shedLow := 0 })) Fld.ETH_LS_STATUS_RETRAINING p 1

/-- A transmit lane queue that exceeds KMIN restores the full width (R273). -/
def shedQueue (d : Ix9) (p lane : Nat) : Ix9 :=
  if sheds d p && portLanes d p < laneWidth d (p / 8)
      && rget d Fld.PORT_ECN_KMIN p * 1024 < (laneQueue d p lane).foldl (fun a k => a + k.len) 0
  then lsRetrain d p (laneWidth d (p / 8))
  else d

/-- Puts a packet into a lane buffer of a port, past its egress meter (R211). Behind one of its function that waits for the
meter it waits too (R213) (DEDUCED, log entry 32). -/
def enqueue (d : Ix9) (p lane : Nat) (k : QPkt) : Ix9 :=
  let add (d : Ix9) (k : QPkt) : Ix9 := shedQueue (updPort d p (fun s => { s with lanes := updD s.lanes lane (· ++ [k]) })) p lane
  match k.func with
  | none => add d k
  | some f =>
    if (laneQueue d p lane).any (fun x => x.metered && x.func == some f) then add d { k with metered := true }
    else match meterApply d (8 * f + lane) k.len .green true with
    | (d, .pass, _) => add d k
    | (d, .mark, _) => add d { k with item := k.item.yellow }
    | (d, .discard, _) => d
    | (d, .hold, _) => add d { k with metered := true, counted := true }

/-! ## Time gates (R214 to R217) -/

/-- An entry of a gate list: list 0 A or 1 B (R214, R225). -/
def gateEntry (d : Ix9) (p list i : Nat) : Nat := rget d Fld.GATE_LIST (p * 4096 + list * 1024 + i)

def gateActive (d : Ix9) (p : Nat) : Nat := rget d Fld.GATE_STATUS_ACTIVE p

/-- The active list as pieces of one cycle: index, GATES and length in ns (R215). Entries of INTERVAL 0 are skipped; the
last lasts to the boundary; what lies beyond the boundary is cut. -/
def gateCycle (d : Ix9) (p : Nat) : List (Nat × Nat × Nat) :=
  let len := rget d Fld.GATE_ACT_LEN p
  let cyc := rget d Fld.GATE_ACT_CYCLE p
  let es := ((List.range len).map (fun i => (i, gateEntry d p (gateActive d p) i))).filter (fun e => bits e.2 63 32 != 0)
  let rec cut : List (Nat × Nat) → Nat → List (Nat × Nat × Nat)
    | [], _ => []
    | (i, e) :: r, left =>
      if left = 0 then []
      else if r.isEmpty then [(i, bits e 7 0, left)]
      else (i, bits e 7 0, min left (bits e 63 32)) :: cut r (left - bits e 63 32)
  cut es cyc

/-- How long a lane stays open along pieces of the cycle, from the first of them. -/
def openRun (lane : Nat) : List (Nat × Nat × Nat) → Nat
  | [] => 0
  | (_, g, n) :: r => if flag g lane then n + openRun lane r else 0

/-- The gates follow a list: EN is 1 and a list has become active (R215). -/
def gated (d : Ix9) (p : Nat) : Bool := rflag d Fld.GATE_CTRL_EN p && rflag d Fld.GATE_STATUS_LIST_ACTIVE p

/-- Time for which the lane's gate stays open from now; none: for ever. -/
def gateLeft (d : Ix9) (p lane : Nat) : Option Nat :=
  let cyc := gateCycle d p
  let g := (portOf d p).gate
  if cyc.all (fun e => flag e.2.1 lane) then none
  else
    match cyc.dropWhile (fun e => e.1 != g.entry) with
    | [] => some 0
    | (i, gs, _) :: r =>
      let rest := if g.realign then cyc else r ++ cyc.filter (fun e => e.1 ≤ i)
      some (if flag gs lane then (g.endAt - d.now) + openRun lane rest else 0)

/-- The longest open interval of the lane in the cycle. -/
def gateLongest (d : Ix9) (p lane : Nat) : Nat :=
  let cyc := gateCycle d p
  (List.range cyc.length).foldl (fun a i => max a (openRun lane (cyc.drop i ++ cyc.take i))) 0

/-- The port sends fragments: preemption active (R269). -/
def preemptive (d : Ix9) (p : Nat) : Bool := !isNative d p && rflag d Fld.ETH_PREEMPT_STATUS_ACTIVE p

def expressLane (lane : Nat) : Bool := lane == 0 || lane == 1 || lane == 4 || lane == 5

/-- ns that `n` bytes take at the port's rate. -/
def txTime (d : Ix9) (p n : Nat) : Nat := ceilDiv (n * 8000) (portRate d p)

/-- A gate permits a packet to begin (R216, R217), and whether it overruns. One longer than every open interval begins in
the opening that found it at the head. -/
def gatePermits (d : Ix9) (p lane : Nat) (k : QPkt) : Bool × Bool :=
  if lane = 0 || !gated d p then (true, false)
  else if preemptive d p && !expressLane lane then
    (flag (portOf d p).gate.gates lane && !(portOf d p).gate.hold, false)
  else if !flag (portOf d p).gate.gates lane then (false, false)
  else
    let t := txTime d p (wireOf d p k.len)
    match gateLeft d p lane with
    | none => (true, false)
    | some left => if t ≤ left then (true, false) else if gateLongest d p lane < t then (k.frag, k.frag) else (false, false)

/-! ## The port scheduler (R202, R203) -/

/-- Position of the packet a lane would send: the first that no meter holds back (R213). -/
def lanePick (l : List QPkt) : Option (Nat × QPkt) :=
  let rec go : List QPkt → Nat → List Nat → Option (Nat × QPkt)
    | [], _, _ => none
    | k :: r, i, blocked =>
      match k.func with
      | some f => if k.metered || blocked.contains f then go r (i + 1) (f :: blocked) else some (i, k)
      | none => some (i, k)
  go l 0 []

/-- Credits of a lane that the peer has free for us (R230). -/
def linkCredit (d : Ix9) (p lane : Nat) : Nat :=
  let l := (portOf d p).link
  num l.granted lane - num l.used lane

def QPkt.payLen (k : QPkt) : Nat := match k.item with | .native p => p.payLen | _ => 0

/-- The transmit association of a port (R270). -/
def txSa (d : Ix9) (p : Nat) : Option Sa := (portOf d p).sas.find? (fun s => s.tx && s.an == (portOf d p).txAn)

/-- The frame is left unprotected by MACsec: EAPOL and MKA, and PTP with PTP_BYPASS (R258, R270). -/
def macsecExempt (d : Ix9) (p : Nat) (l : List Byte) : Bool :=
  excClass (ethView l) == some 4 || (rflag d Fld.ETH_MACSEC_CFG_PTP_BYPASS p && excClass (ethView l) == some 3)

/-- MACsec lets the port begin frames: it is off, or the unit is ready and a transmit association is present (R270, R426). -/
def macsecReady (d : Ix9) (p : Nat) : Bool :=
  isNative d p || !rflag d Fld.ETH_MACSEC_CFG_EN p || (unitReady d uMACSEC && (txSa d p).isSome)

/-- MACsec lets a packet go: a frame that it leaves unprotected needs no association (R270). -/
def TxItem.clear (d : Ix9) (p : Nat) : TxItem → Bool
  | .raw f _ => macsecReady d p || macsecExempt d p f
  | _ => macsecReady d p

/-- The lane is ready (R202): its packet, whether the packet would overrun its gate. -/
def laneReady (d : Ix9) (p lane : Nat) : Option (Nat × QPkt × Bool) :=
  match lanePick (laneQueue d p lane) with
  | none => none
  | some (i, k) =>
    let (ok, overs) := gatePermits d p lane k
    if !ok then none
    else if isNative d p && !(portOf d p).link.resend.isEmpty then none
    else if isNative d p && linkCredit d p lane < creditsOf k.payLen then none
    else if isNative d p && (2048 ≤ (portOf d p).link.replay.length
        || 131072 * laneWidth d (p / 8) < (portOf d p).link.replay.foldl (fun a r => a + r.2.wireLen) 0 + k.len) then none
    else if has (portOf d p).paused lane || !k.item.clear d p then none
    else some (i, k, overs)

/-- Colours again, in order, the packets of a lane that wait for a meter, and lets those go on that it gives yellow or green
(R213): per function, up to the first that it holds. `blocked`: functions whose packets still wait; gives what stays. -/
def meterRetryFrom (d : Ix9) (lane : Nat) (blocked : List Nat) : List QPkt → Ix9 × List QPkt
  | [] => (d, [])
  | k :: r =>
    let on (d : Ix9) (blocked : List Nat) (l : List QPkt) : Ix9 × List QPkt :=
      match meterRetryFrom d lane blocked r with | (d, r) => (d, l ++ r)
    match k.func with
    | none => on d blocked [k]
    | some f =>
      if !k.metered || blocked.contains f then on d blocked [k]
      else
        match meterApply d (8 * f + lane) k.len .green true k.counted with
        | (d, .pass, _) => on d blocked [{ k with metered := false }]
        | (d, .mark, _) => on d blocked [{ k with metered := false, item := k.item.yellow }]
        | (d, .discard, _) => on d blocked []
        | (d, .hold, _) => on d (f :: blocked) [{ k with counted := true }]

def meterRetry (d : Ix9) (p lane : Nat) : Ix9 :=
  if (laneQueue d p lane).all (fun k => !k.metered) then d
  else
    match meterRetryFrom d lane [] (laneQueue d p lane) with
    | (d, l) => updPort d p (fun s => { s with lanes := put s.lanes lane l })

/-- Weight of a lane at a port; 0 acts as 1 (R225). -/
def portWeight (d : Ix9) (p lane : Nat) : Nat := max 1 (bits (rget d Fld.PORT_LANE_WEIGHT p) (8 * lane - 1) (8 * lane - 8))

/-- The lanes a run of port_pick is over (R203): every lane, those of the express MAC, or those of the preemptible MAC. -/
inductive PickCls where
  | all | express | preemptible
  deriving DecidableEq, Repr

def PickCls.has (c : PickCls) (lane : Nat) : Bool :=
  match c with | .all => true | .express => expressLane lane | .preemptible => !expressLane lane

/-- The lane whose turn it is in a run; each run of R203 keeps its own (DEDUCED, log entry 70). -/
def PickCls.cur (c : PickCls) (s : Port) : Nat := if c = .preemptible then s.curPre else s.cur

def PickCls.setCur (c : PickCls) (s : Port) (l : Nat) : Port :=
  if c = .preemptible then { s with curPre := l } else { s with cur := l }

/-- The lane of the run that follows lane `l`. -/
def PickCls.next (c : PickCls) (l : Nat) : Nat :=
  (((List.range 7).map (fun i => (l + i) % 7 + 1)).find? c.has).getD (l % 7 + 1)

/-- The deficit round robin of R202 over the lanes of a run; `fuel` bounds its turns. -/
def drr (fuel : Nat) (d : Ix9) (p : Nat) (cls : PickCls) : Ix9 × Option Nat :=
  match fuel with
  | 0 => (d, none)
  | n + 1 =>
    let s := portOf d p
    let l := cls.cur s
    let c := cls.next l
    match (if cls.has l then laneReady d p l else none) with
    | some (_, k, _) =>
      if wireOf d p k.len ≤ num s.deficit l then
        (updPort d p (fun s => { s with deficit := put s.deficit l (num s.deficit l - wireOf d p k.len) }), some l)
      else
        drr n (updPort d p (fun s => cls.setCur { s with deficit := bump s.deficit c (256 * portWeight d p c) } c)) p cls
    | none =>
      drr n (updPort d p (fun s => cls.setCur
        { s with deficit := bump (if cls.has l then put s.deficit l 0 else s.deficit) c (256 * portWeight d p c) } c)) p cls

/-- The L0 bucket after its refill, in 10^-6 bytes (R202): CAP % of the port rate, depth BURST (DESIGN CHOICE, log entry 8). -/
def l0Tokens (d : Ix9) (p : Nat) : Nat :=
  let depth := rget d Fld.PORT_L0_BURST p * 10 ^ 6
  match (portOf d p).l0 with
  | none => depth
  | some (t, at_) => min depth (t + portRate d p * rget d Fld.PORT_L0_CAP p * (d.el - at_) * 5 / 4)

/-- R204: whether a packet that leaves `q` bytes behind on its lane is marked. The draw is a free value. -/
def ecnMark (d : Ix9) (p lane q ecn : Nat) : Ix9 × Bool :=
  if lane = 0 || !(ecn = 1 || ecn = 2) then (d, false)
  else
    let kmin := rget d Fld.PORT_ECN_KMIN p * 1024
    let kmax := max (kmin + 1024) (rget d Fld.PORT_ECN_KMAX p * 1024)
    if q ≤ kmin then (d, false)
    else if kmax ≤ q then (count d Fld.PORT_ECN_MARKED p, true)
    else
      let (v, d) := draw d
      if v % (100 * (kmax - kmin)) < rget d Fld.PORT_ECN_PMAX p * (q - kmin) then (count d Fld.PORT_ECN_MARKED p, true)
      else (d, false)

/-- Timestamps a PTP event message on its way out (R271): one-step where it is set and the message is not protected, else
the timestamp enters the FIFO. The frame is given without its FCS. -/
def txStamp (d : Ix9) (p : Nat) (l : List Byte) (req : Bool) : Ix9 × List Byte :=
  match ptpEvent (ethView l) with
  | none => (d, l)
  | some (typ, dom, seq) =>
    let t := ((d.now : Int) + rsigned d Fld.ETH_TS_ADJ_TX p 16).toNat
    let one := (typ = 0 && rflag d Fld.ETH_TS_CFG_ONE_STEP_SYNC p) || (typ = 3 && rflag d Fld.ETH_TS_CFG_ONE_STEP_PDELAY p)
    if one && (!rflag d Fld.ETH_MACSEC_CFG_EN p || rflag d Fld.ETH_MACSEC_CFG_PTP_BYPASS p) then (d, oneStep l typ t)
    else if one || req then (d, l)
    else if 64 ≤ (portOf d p).tsFifo.length then (count d Fld.ETH_TS_LOST p, l)
    else (updPort d p (fun s => { s with tsFifo := s.tsFifo ++ [(seq, typ, dom, t / 10 ^ 9, t % 10 ^ 9)] }), l)

/-- A frame (without FCS) as it goes on the wire: timestamp, MACsec, FCS (R270, R271). -/
def wireFrame (d : Ix9) (p : Nat) (l : List Byte) (record : Option (Nat × Bool)) : Ix9 × List Byte :=
  let d := match record with
    | some (r, _) => { d with net := { d.net with txTimes := put d.net.txTimes r ((d.now : Int) + rsigned d Fld.ETH_TS_ADJ_TX p 16).toNat } }
    | none => d
  let (d, l) := txStamp d p l (match record with | some (_, q) => q | none => false)
  let (d, l) :=
    if !rflag d Fld.ETH_MACSEC_CFG_EN p || macsecExempt d p l then (d, l)
    else
      match txSa d p with
      | none => (d, l)
      | some s =>
        let sci := rget d Fld.ETH_MAC p * 2 ^ 16 + p + 1
        (updPort d p (fun q => { q with sas := q.sas.map (fun x => if x = s then { x with pn := x.pn + 1 } else x) }),
          macsecSeal { s with sci := sci } (confOffset (rget d Fld.ETH_MACSEC_CFG_CONF_OFFSET p))
            (rflag d Fld.ETH_MACSEC_CFG_INCLUDE_SCI p) l)
  (d, l ++ fcs l)

/-- Counts a frame that has been sent. -/
def frameSent (d : Ix9) (p len : Nat) : Ix9 := count (count d Fld.ETH_TX_FRAMES p) Fld.ETH_TX_BYTES p len

/-- Sends a frame (without FCS) whole. -/
def sendFrame (d : Ix9) (p : Nat) (l : List Byte) (record : Option (Nat × Bool)) : Ix9 :=
  match wireFrame d p l record with
  | (d, f) => emit (frameSent d p f.length) (.tx p (.raw f record) 0)

/-! ## Frame preemption (R203, R217, R269) -/

def updPre (d : Ix9) (p : Nat) (g : Preempt → Preempt) : Ix9 := updPort d p (fun s => { s with pre := g s.pre })

/-- The preemptible frame in progress is preempted: its fragment ends (R269). -/
def cutFrame (d : Ix9) (p : Nat) : Ix9 :=
  match (portOf d p).pre.inFrame with
  | none => d
  | some f =>
    if f.sent = f.from_ then d
    else
      let d := emit (count d Fld.ETH_TX_FRAG p) (.fragment p ((f.bytes.take f.sent).drop f.from_) false)
      updPre d p (fun s => { s with inFrame := some { f with from_ := f.sent, cut := true } })

/-- The preemptible frame in progress goes on to the next place where it may be preempted, or to its end: a fragment has at
least 64 × (1 + ADD_FRAG) bytes, and so that the last one is long enough 64 bytes remain (R269) (DEDUCED, log entry 70). -/
def runFrame (d : Ix9) (p : Nat) : Ix9 :=
  match (portOf d p).pre.inFrame with
  | none => d
  | some f =>
    let sent := f.sent + 64 * (1 + rget d Fld.ETH_PREEMPT_ADD_FRAG p)
    if preemptive d p && sent + 64 ≤ f.bytes.length then
      updPre d p (fun s => { s with inFrame := some { f with sent := sent } })
    else
      let d := frameSent (updPre d p (fun s => { s with inFrame := none })) p f.bytes.length
      if f.cut then emit (count d Fld.ETH_TX_FRAG p) (.fragment p (f.bytes.drop f.from_) true)
      else emit d (.tx p (.raw f.bytes f.record) 0)

/-- A frame (without FCS) leaves its lane: whole, or as a preemptible frame that begins (R269). -/
def beginFrame (d : Ix9) (p lane : Nat) (l : List Byte) (record : Option (Nat × Bool)) : Ix9 :=
  if !preemptive d p || expressLane lane then sendFrame d p l record
  else
    match wireFrame d p l record with
    | (d, f) => runFrame (updPre d p (fun s => { s with inFrame := some { bytes := f, record := record } })) p

/-- The packet at position `i` of a lane leaves the port: it is marked (R204), a native one takes its LSEQ and credits
and enters the replay buffer (R230, R231), and the overrun of R216 is counted (DEDUCED, log entry 32). -/
def transmit (d : Ix9) (p lane i : Nat) (k : QPkt) (overs : Bool) : Ix9 :=
  let rest := (laneQueue d p lane).eraseIdx i
  let d := updPort d p (fun s => { s with lanes := put s.lanes lane rest })
  let (d, mark) := ecnMark d p lane (rest.foldl (fun a k => a + k.len) 0) k.item.ecn
  let item := if mark then k.item.mark else k.item
  let d := if overs then count d Fld.GATE_OVERRUN p else d
  match item with
  | .native q =>
    let seq := (portOf d p).link.txSeq
    emit (updPort d p (fun s => { s with link := { s.link with
      txSeq := (seq + 1) % 4096, replay := s.link.replay ++ [(seq, q)], used := bump s.link.used lane (creditsOf q.payLen) } }))
      (.tx p item seq)
  | .roce h r => beginFrame d p lane (frameBytes h r) none
  | .raw f rec => beginFrame d p lane f rec

/-- Sends packets of the replay buffer again in order, each that the peer has credits for (R230, R232); the rest waits
(DEDUCED, log entry 30). -/
def resendFrom (d : Ix9) (p : Nat) : List Nat → Ix9
  | [] => updPort d p (fun s => { s with link := { s.link with resend := [] } })
  | seq :: r =>
    match (portOf d p).link.replay.find? (fun e => e.1 == seq) with
    | none => resendFrom d p r
    | some (_, k) =>
      let n := creditsOf k.payLen
      if linkCredit d p k.lane < n then updPort d p (fun s => { s with link := { s.link with resend := seq :: r } })
      else
        resendFrom (emit (count (updPort d p (fun s => { s with link := { s.link with used := bump s.link.used k.lane n } }))
          Fld.LINK_REPLAYS p) (.tx p (.native k) seq)) p r

/-- What is to be sent again goes on. -/
def resendGo (d : Ix9) (p : Nat) : Ix9 :=
  if (portOf d p).link.resend.isEmpty then d else resendFrom d p (portOf d p).link.resend

/-- What blocks at a meter of the port tries again (R211). -/
def retryMeters (d : Ix9) (p : Nat) : Ix9 := (List.range 8).foldl (fun d l => meterRetry d p l) d

/-- The port as a pick finds it: meters tried again, the tokens of lane 0 brought up to date (R203). -/
def pickStart (d : Ix9) (p : Nat) : Ix9 :=
  updPort (retryMeters d p) p (fun s => { s with l0 := some (l0Tokens (retryMeters d p) p, (retryMeters d p).el) })

/-- A packet that port_pick has chosen: the lane, the position, the packet, whether it overruns its gate. -/
abbrev Picked := Nat × Nat × QPkt × Bool

/-- port_pick() of R202 over the lanes of a run, from a port that `pickStart` has left: the block with the tokens and
deficits it charges, and the packet it takes. -/
def runPick (d : Ix9) (p : Nat) (cls : PickCls) : Ix9 × Option Picked :=
  let tok := l0Tokens d p
  let zero := match (if cls.has 0 then laneReady d p 0 else none) with
    | some (i, k, o) => if wireOf d p k.len * 10 ^ 6 ≤ tok then some (i, k, o) else none
    | none => none
  match zero with
  | some (i, k, o) => (updPort d p (fun s => { s with l0 := some (tok - wireOf d p k.len * 10 ^ 6, d.el) }), some (0, i, k, o))
  | none =>
    if (List.range 7).all (fun l => !cls.has (l + 1) || (laneReady d p (l + 1)).isNone) then (d, none)
    else
      match drr 600 d p cls with
      | (d, none) => (d, none)
      | (d, some l) => (d, (laneReady d p l).map (fun (i, k, o) => (l, i, k, o)))

/-- A picked packet leaves. -/
def sendPicked (d : Ix9) (p : Nat) : Option Picked → Ix9
  | some (l, i, k, o) => transmit d p l i k o
  | none => d

/-- The two runs of R203: the express class is served first, and preempts a preemptible frame in progress; without one that
frame goes on, unless hold is asserted (R217), or another begins. -/
def preemptPick (d : Ix9) (p : Nat) : Ix9 :=
  match runPick d p .express with
  | (d, some x) => sendPicked (cutFrame d p) p (some x)
  | (d, none) =>
    if (portOf d p).pre.inFrame.isSome then (if (portOf d p).gate.hold then cutFrame d p else runFrame d p)
    else
      match runPick d p .preemptible with
      | (d, x) => sendPicked d p x

/-- PORT_PICK: the port can begin a packet, or a fragment of one (R202, R203). -/
def portPick (d : Ix9) (p : Nat) : Ix9 :=
  if !portUp d p || rflag d Fld.ETH_LS_STATUS_RETRAINING p then d
  else if preemptive d p then preemptPick (pickStart d p) p
  else if (portOf d p).pre.inFrame.isSome then runFrame d p
  else
    match runPick (pickStart d p) p .all with
    | (d, x) => sendPicked d p x

/-! ## Routes (R240 to R245) -/

/-- What a router port leads to (R22). -/
inductive RouterEnd where
  | netgrp (g : Nat) | hostport | accel (n : Nat) | tile (n : Nat) | memDie (k : Nat) | otherHalf | mgmt | unused
  deriving DecidableEq, Repr

/-- The assignment of the 16 router ports of each half (R22). -/
def routerEnd (half port : Nat) : RouterEnd :=
  if port = 0 then .netgrp half
  else if port = 1 then (if half = 0 then .hostport else .unused)
  else if port < 4 then .accel (2 * half + port - 2)
  else if port < 6 then .tile (2 * half)
  else if port < 8 then .tile (2 * half + 1)
  else if port < 10 then .memDie half
  else if port < 14 then .otherHalf
  else if port = 14 then (if half = 0 then .mgmt else .unused)
  else .unused

/-- The first router port that leads to a tile, counted over both halves: 16 × half + port. What goes to a tile is held
there; its second port stands for the same buffers (DESIGN CHOICE, log entry 71). -/
def tilePort (t : Nat) : Nat := ((List.range 32).find? (fun i => routerEnd (i / 16) (i % 16) == .tile t)).getD 0

/-- Puts a packet for the transport of a tile into the router buffer of its lane (R21). -/
def arrive (d : Ix9) (t lane : Nat) (p : Pkt) : Ix9 :=
  { d with net := { d.net with arrived := updD d.net.arrived (8 * tilePort t + lane) (· ++ [p]) } }

/-- The same for a multicast or heat packet. -/
def arriveHeat (d : Ix9) (t : Nat) (k : Packet) : Ix9 :=
  { d with net := { d.net with toTile := updD d.net.toTile (8 * tilePort t + k.lane) (· ++ [k]) } }

/-- The tile that a router buffer leads to. -/
def bufTile (key : Nat) : Nat := match routerEnd (key / 8 / 16) (key / 8 % 16) with | .tile t => t | _ => 0

/-- Takes the oldest copy of `x` out of the buffers. -/
def takeFrom {α : Type} [BEq α] (t : Tbl (List α)) (x : α) : Tbl (List α) :=
  match t.find? (fun e => e.2.contains x) with
  | some (k, l) => if (removeFirst l x).isEmpty then drop t k else put t k (removeFirst l x)
  | none => t

def fabEp (d : Ix9) : Nat := rget d Fld.FAB_EP_ID
def fabGroup (d : Ix9) : Nat := fabEp d / 256

/-- Epoch state of R246: packets of this epoch are routed. -/
def epochRouted (d : Ix9) (e : Nat) : Bool :=
  e == rget d Fld.FAB_EPOCH_CUR || rflag d Fld.FAB_EPOCH_COMMITTED || rflag d Fld.FAB_EPOCH_SETTLING

def groupPorts (d : Ix9) (e g : Nat) : Nat :=
  if rflag d Fld.FAB_GROUP_V (e * 512 + g) then rget d Fld.FAB_GROUP_PORTS (e * 512 + g) else 0
def memberPorts (d : Ix9) (e m : Nat) : Nat :=
  if rflag d Fld.FAB_MEMBER_V (e * 256 + m) then rget d Fld.FAB_MEMBER_PORTS (e * 256 + m) else 0

/-- Where the algorithm of R241 sends a packet. -/
inductive Route where
  | local_
  | none_
  | port (p : Nat) (hopdone : Bool)
  deriving DecidableEq, Repr

def route (d : Ix9) (k : Packet) : Route :=
  if k.dst = fabEp d then .local_
  else
    let dg := k.dst / 256
    let ig := k.intm / 256
    let hopdone := k.hopdone || fabGroup d == ig
    let set := if !hopdone then groupPorts d k.epoch ig
      else if fabGroup d != dg then groupPorts d k.epoch dg
      else memberPorts d k.epoch (k.dst % 256)
    let n := popcount 16 set
    if n = 0 then .none_
    else
      match nthSetBit 16 set (((k.src ^^^ k.dst) + k.lane) % n) with
      | some p => .port p hopdone
      | none => .none_

/-- Hands a packet that goes out of a network port to its lane, or discards it (R233). -/
def toPort (d : Ix9) (p : Nat) (k : Packet) (func : Option Nat) : Ix9 :=
  if !portExists d p || !isNative d p || !rflag d Fld.LINK_STATUS_UP p then count d Fld.LINK_DOWN_DISCARDS p
  else enqueue d p k.lane { item := .native k, len := k.wireLen, func := func }

/-- PTP time in ms mod 65,536. -/
def nowMs (d : Ix9) : Nat := d.now / 10 ^ 6 % 2 ^ 16

/-- Age of a packet in ms (R239). -/
def ageMs (d : Ix9) (k : Packet) : Nat := (nowMs d + 65536 - k.birth % 65536) % 65536

/-! ## The pair table (R242, R243) -/

def pairIndex (dst lane : Nat) : Nat := ((dst / 2 ^ 16) ^^^ dst ^^^ (lane * 2 ^ 13)) % 2 ^ 16

/-- Groups that may serve as intermediates (R243). -/
def hopCandidates (d : Ix9) (e dst : Nat) : List Nat :=
  (List.range 512).filter (fun g => rflag d Fld.FAB_GROUP_V (e * 512 + g) && rflag d Fld.FAB_GROUP_HOP_OK (e * 512 + g)
    && g != fabGroup d && g != dst / 256)

/-- The pair entry of a packet, drawn afresh where R243 allows it. -/
def pairEntry (d : Ix9) (dst lane : Nat) (again : Bool) : Ix9 × PairEnt :=
  let i := pairIndex dst lane
  let e := lookD d.net.pairs i
  let quiet := match e.lastUncounted with | none => true | some t => t + 501000000 ≤ d.el
  if e.drawn && (again || e.count != 0 || !quiet) then (d, e)
  else
    let ep := rget d Fld.FAB_EPOCH_CUR
    let cand := hopCandidates d ep dst
    let (v, d) := if cand.isEmpty then (0, d) else draw d
    let e := { e with epoch := ep, drawn := true, hopdone := cand.isEmpty, intm := (cand[v % cand.length]?).getD (dst / 256) }
    ({ d with net := { d.net with pairs := put d.net.pairs i e } }, e)

/-- R243: the packet's lane is minimal-only, or the destination is in the source's own group. -/
def minimal (d : Ix9) (dst lane : Nat) : Bool :=
  lane == 0 || flag (rget d Fld.FAB_LANE_CFG_MIN_ONLY) lane || dst / 256 == fabGroup d

/-- While FWD_EN is 0 every pair entry holds the epoch CUR names and a count of 0 (R251). -/
def pairsToCur (d : Ix9) : Ix9 :=
  let cur := rget d Fld.FAB_EPOCH_CUR
  { d with net := { d.net with pairs := d.net.pairs.map (fun (i, e) =>
      (i, { e with epoch := cur, count := 0, drawn := e.drawn && e.epoch == cur })) } }

/-- A counted TYPE (R236). -/
def counted (typ : Nat) : Bool := 1 ≤ typ && typ ≤ 6

/-- Changes the count of a pair entry (R242). -/
def pairCount (d : Ix9) (i : Nat) (up : Bool) : Ix9 :=
  if !rflag d Fld.FAB_CTRL_FWD_EN then d else
  { d with net := { d.net with pairs := upd d.net.pairs i (fun e => { e with count := if up then e.count + 1 else e.count - 1 }) } }

/-- Sends a native packet from this device (R239, R241 to R243): sets the route fields and hands it to its port. `again`
marks a retransmission; `protect` adds the envelope of R412 where the packet has one. A packet to the device itself
arrives there. -/
def sendNative (d : Ix9) (k : Packet) (func : Option Nat) (again : Bool) (protect : Packet → Packet := id) : Ix9 :=
  let (d, e) := pairEntry d k.dst k.lane again
  let d := if counted k.typ then d
    else { d with net := { d.net with pairs := upd d.net.pairs (pairIndex k.dst k.lane) (fun e => { e with lastUncounted := some d.el }) } }
  let min := minimal d k.dst k.lane || e.hopdone
  let k := (protect { k with src := fabEp d, epoch := e.epoch, hopdone := min, intm := (if min then k.dst / 256 else e.intm) * 256,
                             hops := 0, birth := nowMs d }).seal
  match route d k with
  | .local_ => if rflag d Fld.FAB_CTRL_FWD_EN then arrive d (rget d Fld.CONN_STEER_HOME (k.conn / 65536)) k.lane (.native k)
      else count d Fld.FAB_TRANSIT_DISCARDS
  | .none_ => count d Fld.FAB_NO_ROUTE
  | .port p hd => toPort d p { k with hopdone := hd } func

end Sys2Proof.Machine
end

