-- ==== Sys2Proof/Machine/Xlate.lean ====
section
/-!
DEFINITION. Addresses and translation (04_translation.md): contexts, page tables and walks, the translation cache,
generations, fault records, remote windows.
-/

namespace Sys2Proof.Machine

/-! ## Contexts -/

def ctxOf (d : Ix9) (asid : Nat) : Ctx := lookD d.x.ctx asid

def updCtx (d : Ix9) (asid : Nat) (g : Ctx → Ctx) : Ix9 := { d with x := { d.x with ctx := updD d.x.ctx asid g } }

/-- The XLATE island that serves a tile (R15): 0 or 1. -/
def xisle (tile : Nat) : Nat := if tile < 2 then 0 else 1

/-- R109: the function may use the ASID. -/
def mayUse (d : Ix9) (f asid : Nat) : Bool := (ctxOf d asid).v && (ctxOf d asid).owner == f

/-- R120: a translation made at `xgen` for a page is older than the current generation of its mapping. -/
def older (c : Ctx) (xgen va len : Nat) : Bool :=
  c.log.any (fun (g, a, n) => xgen < g && a < va + len && va < a + n * 4096)
    || c.log.length < c.xgen - xgen

/-! ## Accesses and faults -/

/-- An access to translate: range, kind, and whether a remote target may serve it (R116). -/
structure Access where
  va : Nat
  len : Nat
  write : Bool := false
  atomic : Bool := false
  remote : Bool := false
  deriving DecidableEq, Repr

/-- A translation fault (R140, R142). -/
structure XFault where
  cause : Nat
  level : Nat
  gen : Nat
  va : Nat
  deriving DecidableEq, Repr

/-- A fault that stops before any entry is read: LEVEL of the root and GEN 0 (DESIGN CHOICE, log entry 60). -/
def noWalk (cause va : Nat) : XFault := ⟨cause, 3, 0, va⟩

/-- The result of a translation. -/
inductive XRes where
  | ok (segs : List Seg)
  /-- A walk or an ATS request is needed for the page at this address. -/
  | miss (page : Nat)
  | fault (f : XFault)
  /-- R119: the target unit is absent or not ready. -/
  | unit (status : Nat)
  deriving DecidableEq, Repr

/-- Status of a fault without FAULT_WAIT (R140). -/
def faultStatus (cause : Nat) : Nat :=
  if cause = 0x02 || cause = 0x08 || cause = 0x09 then ST_XLATE_PERM
  else if cause = 0x04 then ST_BUS_ERROR
  else if cause = 0x05 then ST_DATA_POISON
  else ST_XLATE_FAULT

/-- Level of a leaf by its size. -/
def levelOf (size : Nat) : Nat := if size = 4096 then 0 else if size = 2 ^ 21 then 1 else 2

/-- The cached leaf that covers an address (R117). -/
def leafAt (d : Ix9) (isl asid va : Nat) : Option Leaf :=
  (lookD d.x.leaves isl).find? (fun l => l.asid == asid && l.va ≤ va && va < l.va + l.size)

/-- Readiness of a target (R118 item 6, R119): none, or the status. -/
def targetStatus (d : Ix9) (p : Phys) : Option Nat :=
  match p.target with
  | .host => if unitReady d uHOST then none else some ST_NOT_READY
  | .landing => if stacksOf d.code = 0 then some ST_UNIT_ABSENT else if lmReady d then none else some ST_NOT_READY
  | .accel n => if !present d (uACCEL n) then some ST_UNIT_ABSENT
                else if unitReady d (uACCEL n) then none else some ST_NOT_READY
  | .remote .. => none

/-- Where the address lies in the leaf's page. -/
def leafPhys (l : Leaf) (va : Nat) : Phys := { l.phys with addr := l.phys.addr + (va - l.va) }

/-- R118 items 4 to 6 for one piece of an access inside a cached leaf. -/
def checkLeaf (d : Ix9) (l : Leaf) (a : Access) (va : Nat) : Option XRes :=
  if (if a.atomic then !l.at_ else if a.write then !l.w else !l.r) then some (.fault ⟨0x02, levelOf l.size, l.gen, va⟩)
  else
    match l.phys.target with
    | .landing =>
      if stacksOf d.code = 0 then some (.unit ST_UNIT_ABSENT)
      else if lmSpace d l.phys.func < l.phys.addr + l.size then some (.fault ⟨0x08, levelOf l.size, l.gen, va⟩)
      else (targetStatus d l.phys).map XRes.unit
    | .remote .. => if a.remote then none else some (.fault ⟨0x09, levelOf l.size, l.gen, va⟩)
    | _ => (targetStatus d l.phys).map XRes.unit

/-- A page that has no current translation: a walk is needed, or the walk has just failed (R117); in MODE 1 nothing can be
asked of a host that has not enabled ATS (R543). -/
def missAt (d : Ix9) (isl asid va : Nat) : XRes :=
  match d.x.found with
  | some (i, a, p, cause, level, gen) =>
    if i = isl && a = asid && p = va / 4096 * 4096 then .fault ⟨cause, level, gen, va⟩ else .miss (va / 4096 * 4096)
  | none =>
    if (ctxOf d asid).mode = 1 && !(funcOf d (ctxOf d asid).owner).atsEnable then .fault (noWalk 0x06 va)
    else .miss (va / 4096 * 4096)

/-- Translates a range piece by piece from the translation cache; `fuel` bounds the pieces (R117, R118). -/
def xlateFrom (fuel : Nat) (d : Ix9) (isl asid : Nat) (a : Access) (va len : Nat) : XRes :=
  match fuel with
  | 0 => .ok []
  | n + 1 =>
    if len = 0 then .ok []
    else if 2 ^ 48 ≤ va then .fault (noWalk 0x03 va)
    else
      match leafAt d isl asid va with
      | none => missAt d isl asid va
      | some l =>
        if older (ctxOf d asid) l.xgen va 1 then missAt d isl asid va
        else
          match checkLeaf d l a va with
          | some (.fault f) =>
            if f.cause = 0x02 && (ctxOf d asid).mode = 1 then
              (if (ctxOf d asid).pri then missAt d isl asid va else .fault { f with cause := 0x06 })
            else .fault f
          | some r => r
          | none =>
            let k := min len (l.va + l.size - va)
            match xlateFrom n d isl asid a (va + k) (len - k) with
            | .ok r => .ok (⟨va, k, leafPhys l va, asid, l.xgen, l.gen, l.size, l.pteAt, l.pte⟩ :: r)
            | r => r

/-- Translates an access in an ASID (R118). -/
def xlate (d : Ix9) (isl asid : Nat) (a : Access) : XRes :=
  if !(ctxOf d asid).v then .fault (noWalk 0x0A a.va)
  else xlateFrom (a.len / 4096 + 2) d isl asid a a.va a.len

/-! ## Walks -/

/-- The request is for this page. -/
def XReq.isFor (w : XReq) (isl asid page : Nat) : Bool := w.isle == isl && w.asid == asid && w.page == page

/-- Lets up to `n` waiting walks of an island run, in the order they were requested; gives how many. -/
def promote (isl : Nat) : Nat → List XReq → Nat × List XReq
  | _, [] => (0, [])
  | n, w :: r =>
    if w.isle = isl && !w.run && 0 < n then
      let (k, r) := promote isl (n - 1) r
      (k + 1, { w with run := true } :: r)
    else
      let (k, r) := promote isl n r
      (k, w :: r)

/-- An island runs up to 64 walks at once (R117). -/
def runWalks (d : Ix9) (isl : Nat) : Ix9 :=
  let (k, ws) := promote isl (64 - (d.x.walks.filter (fun w => w.isle == isl && w.run)).length) d.x.walks
  count { d with x := { d.x with walks := ws } } Fld.XLATE_WALKS 0 k

/-- The translation cache holds a current leaf of the page. -/
def leafCurrent (d : Ix9) (isl asid page : Nat) : Bool :=
  (leafAt d isl asid page).any (fun l => !older (ctxOf d asid) l.xgen page 1)

/-- Asks for a Page Request of the host (R129). -/
def askPage (d : Ix9) (isl asid page : Nat) : Ix9 :=
  emit { d with x := { d.x with pri := d.x.pri ++ [(isl, asid, page)] } } (.pageReq (ctxOf d asid).pasid page)

/-- Asks for a walk of a page, or in MODE 1 for an ATS request, unless one is under way; `ring`: for a queue create only
(R104). A page that MODE 1 has a current result for is denied to the access: with PRI a Page Request follows (R117, R127,
R129). -/
def startWalk (d : Ix9) (isl asid page : Nat) (ring : Bool := false) : Ix9 :=
  let c := ctxOf d asid
  let more (l : List XReq) : List XReq := l.map (fun w => if w.isFor isl asid page && !ring then { w with keep := true } else w)
  if c.mode = 1 then
    if d.x.pri.contains (isl, asid, page) then d
    else if d.x.ats.any (·.isFor isl asid page) then { d with x := { d.x with ats := more d.x.ats } }
    else if leafCurrent d isl asid page then (if c.pri then askPage d isl asid page else d)
    else emit { d with x := { d.x with ats := d.x.ats ++ [{ isle := isl, asid := asid, page := page, run := true, keep := !ring }] } }
      (.ats c.pasid page)
  else if d.x.walks.any (·.isFor isl asid page) then { d with x := { d.x with walks := more d.x.walks } }
  else
    let d := count d Fld.XLATE_TC_MISSES
    runWalks { d with x := { d.x with walks := d.x.walks ++ [{ isle := isl, asid := asid, page := page, keep := !ring }] } } isl

/-- Pages of a range that have no current translation, in order; `fuel` bounds the pieces (R117). -/
def missPages (fuel : Nat) (d : Ix9) (isl asid va len : Nat) : List Nat :=
  match fuel with
  | 0 => []
  | n + 1 =>
    if len = 0 || 2 ^ 48 ≤ va then []
    else
      let stop := match leafAt d isl asid va with | some l => l.va + l.size | none => va / 4096 * 4096 + 4096
      let k := min len (stop - va)
      let rest := missPages n d isl asid (va + k) (len - k)
      if leafCurrent d isl asid va then rest else va / 4096 * 4096 :: rest

/-- Page table entry fields (R111). -/
def pteV (e : Nat) : Bool := flag e 0
def pteLeaf (e : Nat) : Bool := flag e 1
def pteTarget (e : Nat) : Nat := bits e 10 8
def pteAddr (e : Nat) : Nat := bits e 51 12 * 4096
def pteGen (e : Nat) : Nat := bits e 59 52

/-- Page size of a leaf at level 3, 2 or 1 (R110). -/
def leafSize (level : Nat) : Nat := if level = 3 then 2 ^ 30 else if level = 2 then 2 ^ 21 else 4096

/-- Index of a virtual address at a level (R110). -/
def levelIndex (level va : Nat) : Nat := va / 2 ^ (12 + 9 * (level - 1)) % 512

/-- R112: the entry is well formed at its level. -/
def pteFormed (level e : Nat) : Bool :=
  let isLeaf := level = 1 || pteLeaf e
  if level = 4 && pteLeaf e then false
  else if !isLeaf then pteTarget e < 2
  else pteTarget e != 7 && pteAddr e % leafSize level == 0

/-- How a walk ended. -/
inductive WalkRes where
  | leaf (l : Leaf) (branches : List Branch)
  | fault (f : XFault)
  /-- A read the walk needs was not brought back. -/
  | stuck
  deriving DecidableEq, Repr

/-- Reads `n` bytes of a table at a host bus address (loc 0) or landing offset of `owner` (loc 1). -/
def tableRead (m : List Host.Cell) (d : Ix9) (owner loc addr n : Nat) (r : ReadData) : ReadData :=
  memRead m d ⟨if loc = 1 then .landing else .host, addr, owner, false, false⟩ n r

/-- The read brought back for a level. -/
def readAt (reads : List (Nat × ReadData)) (k : Nat) : Option ReadData := (reads.find? (fun r => r.1 == k)).map (·.2)

/-- Cause of a failed table read (R140). -/
def tableFault (r : ReadData) : Nat := match r with | .poisoned _ => 0x05 | _ => 0x04

/-- The remote descriptor behind a TARGET 6 leaf (R115, R116). Its read comes as level 0. One that lies beyond the owner's
landing space is a table read beyond quota, cause 0x08 (DEDUCED, log entry 59). -/
def remoteDesc (m : List Host.Cell) (d : Ix9) (c : Ctx) (e level va : Nat) (reads : List (Nat × ReadData)) : Sum WalkRes Phys :=
  let idx := bits e 35 12
  if c.rdtCount ≤ idx then .inl (.fault ⟨0x09, level - 1, pteGen e, va⟩)
  else if c.rdtLoc = 1 && lmSpace d c.owner < c.rdtBase + 32 * idx + 32 then .inl (.fault ⟨0x08, level - 1, pteGen e, va⟩)
  else
    match readAt reads 0 with
    | none => .inl .stuck
    | some r =>
      match tableRead m d c.owner c.rdtLoc (c.rdtBase + 32 * idx) 32 r with
      | .ok b =>
        let v := leNat b
        .inr ⟨.remote (bits v 23 0) (bits v 55 32) (bits v 95 64), bits v 191 128, c.owner, false, false⟩
      | r => .inl (.fault ⟨tableFault r, level - 1, pteGen e, va⟩)

/-- The walk from `level` downwards (R110 to R113, R118). -/
def walkFrom (m : List Host.Cell) (d : Ix9) (isl asid : Nat) (c : Ctx) (va : Nat) (reads : List (Nat × ReadData)) :
    (level loc table : Nat) → (r w at_ : Bool) → (gen : Nat) → List Branch → WalkRes
  | 0, _, _, _, _, _, _, _ => .stuck
  | level + 1, loc, table, r, w, at_, gen, br =>
    let lv := level + 1
    if loc = 1 && lmSpace d c.owner < table + 4096 then .fault ⟨0x08, level, gen, va⟩
    else
      let addr := table + 8 * levelIndex lv va
      let cached := (lookD d.x.branches isl).find? (fun b => b.asid == asid && b.level == lv && b.va == va / leafSize 1 / 512 ^ level)
      let got : Option (Sum Nat Nat) := match readAt reads lv, cached with
        | some rd, _ => (match tableRead m d c.owner loc addr 8 rd with
            | .ok b => some (.inr (leNat b))
            | rr => some (.inl (tableFault rr)))
        | none, some b => some (.inr b.pte)
        | none, none => none
      match got with
      | none => .stuck
      | some (.inl cause) => .fault ⟨cause, level, gen, va⟩
      | some (.inr e) =>
        if !pteV e then .fault ⟨0x01, level, pteGen e, va⟩
        else if !pteFormed lv e then .fault ⟨0x03, level, pteGen e, va⟩
        else
          let r := r && flag e 2
          let w := w && flag e 3
          let at_ := at_ && flag e 4
          if lv = 1 || pteLeaf e then
            let size := leafSize lv
            let base := va / size * size
            let mk (p : Phys) : WalkRes :=
              .leaf ⟨asid, base, size, r, w, at_, p, pteGen e, c.xgen, ⟨if loc = 1 then .landing else .host, addr, c.owner, false, false⟩, e⟩ br
            let t := pteTarget e
            if t = 6 then
              (match remoteDesc m d c e lv va reads with
               | .inl x => x
               | .inr p => mk p)
            else mk ⟨if t = 0 then .host else if t = 1 then .landing else .accel (t - 2), pteAddr e, c.owner, flag e 5, false⟩
          else walkFrom m d isl asid c va reads level (pteTarget e) (pteAddr e) r w at_ (pteGen e)
                 (br ++ [⟨asid, lv, va / leafSize 1 / 512 ^ level, e⟩])

/-- A whole walk (R117, R118). -/
def walk (m : List Host.Cell) (d : Ix9) (isl asid va : Nat) (reads : List (Nat × ReadData)) : WalkRes :=
  let c := ctxOf d asid
  walkFrom m d isl asid c va reads 4 c.rootLoc (c.root / 4096 * 4096) true true true 0 []

/-- R139 HINT 1: the leaf lies in a read-mostly range. Of the advice that overlaps it the most recent counts, so a later hint
of another kind hides an earlier HINT 1 (DEDUCED, log entry 61). -/
def readMostly (d : Ix9) (l : Leaf) : Bool :=
  match (ctxOf d l.asid).advice.find? (fun a => a.va < l.va + l.size && l.va < a.va + a.pages * 4096 && a.hint != 3) with
  | some a => a.hint == 1
  | none => false

/-- Caches a leaf. A full cache gives up one that is not read-mostly first; which one is a free value (R117, R139). A full
walk cache gives up its oldest entries (DESIGN CHOICE, log entry 62). -/
def cacheLeaf (d : Ix9) (isl : Nat) (l : Leaf) (br : List Branch) : Ix9 :=
  let ls := (lookD d.x.leaves isl).filter (fun o => !(o.asid == l.asid && o.va == l.va && o.size == l.size))
  let (ls, d) := if ls.length < 65536 then (ls, d)
    else
      let (v, d) := draw d
      let pool := let n := ls.filter (fun o => !readMostly d o); if n.isEmpty then ls else n
      (match pool[v % pool.length]? with
       | some x => (removeFirst ls x, d)
       | none => (ls, d))
  let old := (lookD d.x.branches isl).filter (fun o => !br.any (fun b => b.asid == o.asid && b.level == o.level && b.va == o.va))
  { d with x := { d.x with leaves := put d.x.leaves isl (l :: ls), branches := put d.x.branches isl ((br ++ old).take 4096) } }

/-! ## Generations and invalidation -/

/-- R123 steps 1 and 2: raises XGEN, logs the range, drops cached translations of it in both islands and makes walks in
the range start again (R120). -/
def bumpGen (d : Ix9) (asid va pages : Nat) : Ix9 :=
  let d := updCtx d asid (fun c => { c with xgen := c.xgen + 1, log := ((c.xgen + 1, va, pages) :: c.log).take 64 })
  let hit (a n : Nat) : Bool := a < va + pages * 4096 && va < a + n
  { d with x := { d.x with
      leaves := d.x.leaves.map (fun (i, ls) => (i, ls.filter (fun l => !(l.asid == asid && hit l.va l.size))))
      branches := d.x.branches.map (fun (i, bs) =>
        (i, bs.filter (fun b => !(b.asid == asid && hit (b.va * 512 ^ (b.level - 1) * 4096) (512 ^ (b.level - 1) * 4096)))))
      walks := d.x.walks.map (fun w => if w.asid = asid && hit w.page 4096 then { w with again := true } else w)
      ats := d.x.ats.map (fun w => if w.asid = asid && hit w.page 4096 then { w with again := true } else w) } }

/-- The piece is of the ASID and overlaps the range. -/
def Seg.inRange (s : Seg) (asid va pages : Nat) : Bool :=
  s.asid == asid && s.va < va + pages * 4096 && va < s.va + s.len

def Entry.segs (e : Entry) : List Seg := e.bufs.flatMap (·.segs)

/-- Started entries that still run with translations of the range older than `xgen` (R62): queue and slot. -/
def runningOld (d : Ix9) (asid va pages xgen : Nat) : List (Nat × Nat) :=
  d.q.sqs.flatMap (fun (k, s) =>
    (s.entries.filter (fun e => e.stage = .started && e.segs.any (fun g => g.inRange asid va pages && g.xgen < xgen))).map
      (fun e => (k, e.slot)))

/-! ## Fault records (R140 to R143) -/

/-- PREF of a fault record: the most recent preferred location that covers the address; advice of other kinds holds none
(R139, R142; DEDUCED, log entry 61). -/
def prefOf (d : Ix9) (asid va : Nat) : Nat :=
  match (ctxOf d asid).advice.find? (fun a => a.hint == 0 && a.va ≤ va && va < a.va + a.pages * 4096) with
  | some a => a.arg % 8
  | none => 7

def fctxOf (d : Ix9) (f : Nat) : Fctx := lookD d.x.fctx f

/-- A translation fault to record. -/
structure FaultRec where
  fault : XFault
  write : Bool := false
  atomic : Bool := false
  paused : Bool := false
  remote : Bool := false
  asid : Nat := 0
  sqId : Nat := 0xFFFF
  tag : Nat := 0
  slot : Nat := 0
  object : Nat := 0
  deriving DecidableEq, Repr

/-- The 32 bytes of a fault record (R142). -/
def FaultRec.encode (r : FaultRec) (pref phase time : Nat) : List Byte :=
  leBytes 4 (r.fault.cause + b2n r.write * 2 ^ 8 + b2n r.atomic * 2 ^ 9 + b2n r.paused * 2 ^ 10 + b2n r.remote * 2 ^ 11
    + r.fault.level % 4 * 2 ^ 12 + pref * 2 ^ 14 + phase * 2 ^ 31)
  ++ leBytes 4 (r.asid % 2 ^ 20 + r.fault.gen % 256 * 2 ^ 20)
  ++ leBytes 4 (r.sqId % 2 ^ 16 + r.tag % 2 ^ 16 * 2 ^ 16) ++ leBytes 4 r.slot ++ leBytes 8 r.fault.va
  ++ leBytes 4 (r.object % 2 ^ 24) ++ leBytes 4 time

/-- Where record `k` of a function's fault ring lies. -/
def faultSlot (f : Nat) (c : Fctx) (k : Nat) : Phys :=
  ⟨if c.fqLoc = 1 then .landing else .host, c.fqBase + 32 * (k % 2 ^ c.fqLog2), f, false, false⟩

/-- A record can be written (R143): the fault queue is enabled and not full, and its slot lies in the space. -/
def faultRoom (d : Ix9) (f : Nat) : Bool :=
  let c := fctxOf d f
  c.fqV && decide (c.prod - c.cons < 2 ^ c.fqLog2)
    && (c.fqLoc != 1 || decide ((faultSlot f c c.prod).addr + 32 ≤ lmSpace d f))

/-- Where the byte of the FAULT_PENDING bitmap lies that holds a queue's bit (R141). -/
def pendingAt (d : Ix9) (f k : Nat) : Phys :=
  ⟨if (fctxOf d f).fpLoc = 1 then .landing else .host, (fctxOf d f).fpBase + k / 8, f, false, false⟩

/-- Writes that byte (R143): IX9's own view of the bits. -/
def writePending (d : Ix9) (f k : Nat) : Ix9 :=
  let byte := (List.range 8).foldl (fun a i =>
    a + b2n (match sqAt d (k / 8 * 8 + i) with
             | some s => s.func == f && (match s.paused with | some (_, _, p) => p | none => false)
             | none => false) * 2 ^ i) 0
  (memWrite d (pendingAt d f k) [BitVec.ofNat 8 byte]).1

/-- A record is lost to overflow (R143). -/
def faultLost (d : Ix9) (f : Nat) : Ix9 :=
  let first := !rflag d Fld.FAULT_STATUS_OVERFLOW f
  let d := count (rset d Fld.FAULT_STATUS_OVERFLOW f 1) Fld.FAULT_LOST f
  if first then eqRaise d (fctxOf d f).eqId ⟨EV_FAULT_OVERFLOW, f, 0⟩ else d

/-- Records a translation failure for a function (R142, R143). -/
def recordFault (d : Ix9) (f : Nat) (r : FaultRec) : Ix9 :=
  let c := fctxOf d f
  if faultRoom d f then
    let p := faultSlot f c c.prod
    let d := (memWrite d p (r.encode (prefOf d r.asid r.fault.va) (phaseOf c.prod c.fqLog2) (d.now % 2 ^ 32))).1
    let d := { d with x := { d.x with fctx := put d.x.fctx f { c with prod := c.prod + 1 } } }
    needDest d (pathOf d p) (.fault f)
  else faultLost d f

/-- An entry that has not started fails: it completes with this status when its turn comes (R89). -/
def failEntry (d : Ix9) (k slot status : Nat) (cause result : Nat := 0) : Ix9 :=
  updEntry d k slot (fun e => { e with stage := .ready, status := status, cause := cause, result := result, wait := none })

/-- ASID in which an entry's addresses are translated: a queue create names the one of its ring (R104). -/
def Entry.asid (s : Sq) (e : Entry) : Nat := if e.op = 0x60 || e.op = 0x61 || e.op = 0x62 then e.fld 1 83 64 else s.asid

/-- Outcome of a translation failure of an entry that has not started (R140): under FAULT_WAIT a fault of cause 0x01 or
0x02 pauses the queue, else the entry fails. A queue that is paused already lets the entry wait untranslated. FAULT_LOST counts
a record that a pause could not write once the FAULT_PENDING bit is acknowledged (R143). -/
def entryFault (d : Ix9) (k slot : Nat) (a : Access) (f : XFault) : Ix9 :=
  match sqAt d k, entryAt d k slot with
  | some s, some e =>
    let pause := s.faultWait && !s.isRq && (f.cause = 0x01 || f.cause = 0x02)
    let r : FaultRec := { fault := f, write := a.write, atomic := a.atomic, paused := pause, asid := e.asid s,
                          sqId := sqIdOf k, tag := e.tag, slot := e.slot % 2 ^ 32, object := e.object }
    if pause && s.paused.isSome then updEntry d k slot (fun e => { e with wait := none })
    else if pause then
      let room := faultRoom d s.func
      let d := updSq d k (fun s => { s with paused := some (slot, f.va, !room) })
      let d := updEntry d k slot (fun e => { e with wait := none, cause := f.cause })
      if room then recordFault d s.func r
      else needDest (writePending d s.func k) (pathOf d (pendingAt d s.func k)) (.pendingBit s.func)
    else failEntry (recordFault d s.func r) k slot (faultStatus f.cause) f.cause f.va
  | _, _ => d

/-! ## Remote windows (R130 to R134) -/

/-- Number of windows the table holds; entries beyond PF0's landing space are outside it (R133). -/
def winTableSize (d : Ix9) : Nat :=
  let n := 2 ^ rget d Fld.XLATE_WIN_CFG_LOG2_ENTRIES
  if rflag d Fld.XLATE_WIN_BASE_LOC then min n ((lmSpace d 0 - rget d Fld.XLATE_WIN_BASE_ADDR * 4096) / 32) else n

def winOf (d : Ix9) (w : Nat) : Win := lookD d.x.wins w

/-- The 32 bytes of a window table entry (R130). -/
def Win.encode (w : Win) : List Byte :=
  leBytes 4 (b2n w.v + b2n w.rd * 2 + b2n w.wr * 4 + b2n w.at_ * 8 + b2n w.held * 16 + b2n w.quar * 32 + w.pd % 2 ^ 24 * 2 ^ 8)
  ++ leBytes 4 w.rkey ++ leBytes 8 w.base ++ leBytes 4 w.pages ++ leBytes 4 w.quarEnd
  ++ leBytes 4 (w.asid % 2 ^ 20 + w.owner % 2 ^ 10 * 2 ^ 20) ++ leBytes 4 0

/-- Sets a window and writes its table entry (R130). -/
def setWin (d : Ix9) (n : Nat) (w : Win) : Ix9 :=
  let p : Phys := ⟨if rflag d Fld.XLATE_WIN_BASE_LOC then .landing else .host,
                   rget d Fld.XLATE_WIN_BASE_ADDR * 4096 + 32 * n, 0, false, false⟩
  (memWrite { d with x := { d.x with wins := put d.x.wins n w } } p w.encode).1

/-- Checks 1 to 5 of R134 on a window; none where they pass, else the cause. `need` selects RD, WR or AT. -/
def winCheck (d : Ix9) (n rkey pd : Nat) (need : Nat) (offset len : Nat) : Option Nat :=
  let w := winOf d n
  if !d.x.winReady || winTableSize d ≤ n || !w.v || w.quar then some 0x01
  else if w.rkey != rkey then some 0x02
  else if w.pd != pd then some 0x03
  else if !(if need = 0 then w.rd else if need = 1 then w.wr else w.at_) then some 0x04
  else if 4096 * w.pages < offset + len then some 0x05
  else none

/-- Windows of a function in use, quarantine included (R432). -/
def winsOf (d : Ix9) (f : Nat) : Nat := (d.x.wins.filter (fun (_, w) => w.owner == f && (w.v || w.quar))).length

end Sys2Proof.Machine
end

