-- ==== Sys2Proof/Machine/Conn.lean ====
section
/-!
DEFINITION. Connections (05_connections.md): the documented state, the connection cache, the Pacer (R206 to R210), working
keys and envelopes (R410 to R413), answers (R181, R238, R262) and the way into ERROR (R151).
-/

namespace Sys2Proof.Machine

/-! ## The documented state (R158) -/

/-- Bits [msb:lsb] of the word at byte offset `off`. -/
def Conn.get (c : Conn) (off msb lsb : Nat) : Nat := bits c.doc (8 * off + msb) (8 * off + lsb)

def Conn.set (c : Conn) (off msb lsb v : Nat) : Conn := { c with doc := setBits c.doc (8 * off + msb) (8 * off + lsb) v }

def Conn.state (c : Conn) : Nat := c.get 0 2 0
def Conn.roce (c : Conn) : Bool := c.get 0 3 3 == 1
def Conn.lane (c : Conn) : Nat := c.get 0 6 4
def Conn.pin (c : Conn) : Bool := c.get 0 7 7 == 1
def Conn.enc (c : Conn) : Bool := c.get 0 8 8 == 1
def Conn.heldSends (c : Conn) : Bool := c.get 0 9 9 == 1
def Conn.owner (c : Conn) : Nat := c.get 0 25 16
def Conn.pd (c : Conn) : Nat := c.get 4 23 0
def Conn.incarn (c : Conn) : Nat := c.get 4 31 24
def Conn.rq (c : Conn) : Nat := c.get 8 15 0
def Conn.errCause (c : Conn) : Nat := c.get 8 23 16
def Conn.peerConn (c : Conn) : Nat := c.get 0xC 23 0
def Conn.peerEp (c : Conn) : Nat := c.get 0x10 16 0
def Conn.txPsn (c : Conn) : Nat := c.get 0x14 23 0
def Conn.txUna (c : Conn) : Nat := c.get 0x18 23 0
def Conn.rxEpsn (c : Conn) : Nat := c.get 0x1C 23 0
def Conn.rxCount (c : Conn) : Nat := c.get 0x20 10 0
def Conn.rnrHint (c : Conn) : Nat := c.get 0x20 23 16
def Conn.mtu (c : Conn) : Nat := 256 * 2 ^ c.get 0x24 2 0
def Conn.keyEpoch (c : Conn) : Nat := c.get 0x24 15 8
def Conn.tenant (c : Conn) : Nat := c.get 0x24 23 16
def Conn.windowBytes (c : Conn) : Nat := c.get 0x28 31 0
def Conn.peerIp (c : Conn) : Nat := beNat (leBytes 16 (c.get 0x30 127 0))
def Conn.netPort (c : Conn) : Nat := c.get 0x40 3 0
def Conn.profile (c : Conn) : Nat := c.get 0x50 11 0

/-- State codes (R149). -/
def csRESET : Nat := 0
def csINIT : Nat := 1
def csREADY_RX : Nat := 2
def csREADY : Nat := 3
def csDRAIN : Nat := 4
def csERROR : Nat := 5
def csQUARANTINE : Nat := 6

def connOf (d : Ix9) (n : Nat) : Conn := lookD d.c.conns n
def updConn (d : Ix9) (n : Nat) (g : Conn → Conn) : Ix9 := { d with c := { d.c with conns := updD d.c.conns n g } }

def setState (d : Ix9) (n st : Nat) : Ix9 := updConn d n (fun c => c.set 0 2 0 st)

/-- Home tile of a connection (R24, R148). -/
def homeTile (d : Ix9) (n : Nat) : Nat := rget d Fld.CONN_STEER_HOME (n / 65536)

/-- R147: the block holds connections. -/
def blockValid (d : Ix9) (n : Nat) : Bool := n / 65536 < rget d Fld.CONN_CFG_BLOCKS

/-- The tile's transport engine runs. -/
def xportReady (d : Ix9) (tile : Nat) : Bool := islandReady d (iXPORT tile)

/-- Connections of a function that count against its CONN quota (R432): every state but RESET. -/
def connsOf (d : Ix9) (f : Nat) : Nat := (d.c.conns.filter (fun (_, c) => c.owner == f && c.state != csRESET)).length

/-- Connections in any state other than RESET and QUARANTINE (R249). -/
def liveConns (d : Ix9) : Nat := (d.c.conns.filter (fun (_, c) => c.state != csRESET && c.state != csQUARANTINE)).length

/-! ## The connection cache (R169 to R175) -/

def setOf (n : Nat) : Nat := (n % 2048) ^^^ (n / 2048 % 2048)

/-- The connection's fill goes to the pinned array (R171). -/
def fillsPinned (d : Ix9) (n : Nat) : Bool := (connOf d n).pin || d.c.pinFill.contains n

/-- Connections of a tile that take a way of a set. -/
def waysOf (d : Ix9) (tile set : Nat) : List Nat :=
  (d.c.place.filter (fun (n, p) => homeTile d n == tile && setOf n == set
    && (p == .cached || (p == .filling && !fillsPinned d n) || p == .spilling))).map (·.1)

def placeOf (d : Ix9) (n : Nat) : Option Place2 := look d.c.place n

def setPlace (d : Ix9) (n : Nat) (p : Place2) : Ix9 := { d with c := { d.c with place := put d.c.place n p } }

/-- The state is in the cache or the pinned array. -/
def cachedConn (d : Ix9) (n : Nat) : Bool := placeOf d n == some .cached || placeOf d n == some .pinned

/-- The number holds state (R162): it is outside RESET and its state was not discarded. -/
def holdsState (d : Ix9) (n : Nat) : Bool := (placeOf d n).isSome && !(connOf d n).discarded

/-- Marks a connection as the most recently used. -/
def touch (d : Ix9) (n : Nat) : Ix9 := { d with c := { d.c with lru := (d.c.lru.filter (· != n)) ++ [n] } }

def parkedOf (d : Ix9) (n : Nat) : List Parked := d.c.parked.filter (fun p => p.conn == n)

/-- A way that R170 calls busy. -/
def wayBusy (d : Ix9) (n : Nat) : Bool :=
  placeOf d n != some .cached || !(parkedOf d n).isEmpty || !(connOf d n).rxPend.isEmpty

def countPlace (d : Ix9) (tile : Nat) (p : Place2) : Nat := (d.c.place.filter (fun (n, q) => q == p && homeTile d n == tile)).length

/-- Deadlines the tile keeps for spilled connections (R170). -/
def timerList (d : Ix9) (tile : Nat) : Nat :=
  (d.c.place.filter (fun (n, q) => q == .spilled && homeTile d n == tile && !(connOf d n).txOut.isEmpty)).length

/-- The victim of R170. -/
def victim (d : Ix9) (tile set : Nat) : Option Nat :=
  let ws := waysOf d tile set
  let idle := d.c.lru.filter (fun n => ws.contains n && !wayBusy d n)
  match idle.find? (fun n => (connOf d n).txOut.isEmpty) with
  | some n => some n
  | none => if timerList d tile < 65536 then idle.head? else none

/-- Counts a connection's parked bytes in CONN_MISS_BYTES. -/
def missBytes (d : Ix9) (tile : Nat) : Nat := (d.c.parked.filter (fun p => p.tile == tile)).foldl (fun a p => a + p.bytes) 0

/-- The spill region lies in landing memory (R173), in its first 4 GiB (R365). -/
def spillLanding (d : Ix9) : Bool := stacksOf d.code != 0

/-- Where the state of a connection spills to (R173). -/
def spillAddr (d : Ix9) (n : Nat) : Nat := (if spillLanding d then 0 else rget d Fld.CONN_SPILL_BASE_ADDR * 4096) + 256 * n

/-- The memory behind the spill region runs: until then fills and spills wait (R28). -/
def spillTierUp (d : Ix9) : Bool := !spillLanding d || lmReady d

/-- Writes the state of a connection to the spill region: counted in CONN_SPILLS (R177); the Pacer notes the time (R208). -/
def writeSpill (d : Ix9) (n : Nat) : Ix9 :=
  let d := updConn d n (fun c => { c with pacer := { c.pacer with spillAt := d.el, spillRc := c.pacer.rc } })
  emit (count d Fld.CONN_SPILLS (homeTile d n)) (.spill n (spillLanding d) (spillAddr d n))

/-- Starts the spill of a connection (R172), where one of the 32 is free. -/
def startSpill (d : Ix9) (n : Nat) : Ix9 :=
  if 32 ≤ countPlace d (homeTile d n) .spilling || !spillTierUp d then d else setPlace (writeSpill d n) n .spilling

/-- A way for connection `n` is free; else a victim begins to spill (R170). `ahead` others that wait for a way of the set come
first: each takes a way that is free, or one that a spill is freeing. -/
def makeWay (d : Ix9) (n ahead : Nat) : Ix9 × Bool :=
  let tile := homeTile d n
  let ways := waysOf d tile (setOf n)
  let free := 14 - ways.length
  if ahead < free then (d, true)
  else if ahead < free + (ways.filter (fun v => placeOf d v == some .spilling)).length then (d, false)
  else
    match victim d tile (setOf n) with
    | some v => (startSpill d v, false)
    | none => (d, false)

/-- Fills that wait for a way of the connection's set, before it. -/
def fillsAhead (d : Ix9) (n : Nat) : Nat :=
  ((d.c.fillq.takeWhile (· != n)).filter (fun x =>
    homeTile d x == homeTile d n && setOf x == setOf n && !fillsPinned d x)).length

/-- The fill of a connection is issued: it reads the spill region (R173). -/
def beginFill (d : Ix9) (n : Nat) : Ix9 :=
  let d := count (setPlace d n .filling) Fld.CONN_MISSES (homeTile d n)
  emit { d with c := { d.c with fillq := d.c.fillq.filter (· != n), fillAt := put d.c.fillAt n d.el } }
    (.fill n (spillLanding d) (spillAddr d n))

/-- Starts the fill of a spilled connection, or lets it wait for a slot, a way or its spill (R170, R172). -/
def startFill (d : Ix9) (n : Nat) : Ix9 :=
  let wait (d : Ix9) : Ix9 := if d.c.fillq.contains n then d else { d with c := { d.c with fillq := d.c.fillq ++ [n] } }
  match placeOf d n with
  | some .spilling => wait d
  | some .spilled =>
    if 32 ≤ countPlace d (homeTile d n) .filling || !spillTierUp d then wait d
    else if fillsPinned d n then beginFill d n
    else
      match makeWay d n (fillsAhead d n) with
      | (d, true) => beginFill d n
      | (d, false) => wait d
  | _ => d

/-- The typical time of a fill (R172). -/
def fillTime (d : Ix9) : Nat := if spillLanding d then 600 else 2000

/-- The expected time until the state of a connection is present, in whole µs, at least 1 (R172, R175) (DEDUCED, log entry 19):
what is left of the fill that runs, or the waiting time for a fill slot and a fill. -/
def fillHint (d : Ix9) (n : Nat) : Nat :=
  let left : Nat := match placeOf d n with
    | some .filling => fillTime d - (d.el - num d.c.fillAt n)
    | some .cached => 0
    | some .pinned => 0
    | _ => fillTime d * (1 + (d.c.fillq.takeWhile (· != n)).length / 32)
  max 1 (ceilDiv left 1000)

/-- Tries the fills that wait, in order of arrival. -/
def retryFills (d : Ix9) : Ix9 := d.c.fillq.foldl startFill d

/-- Takes a connection out of the cache. -/
def dropPlace (d : Ix9) (n : Nat) : Ix9 :=
  { d with c := { d.c with place := drop d.c.place n, lru := d.c.lru.filter (· != n), fillq := d.c.fillq.filter (· != n),
                           fillAt := drop d.c.fillAt n, pinFill := d.c.pinFill.filter (· != n) } }

/-! ## The Pacer (R206 to R210) -/

/-- line(p) of R207 for a connection. -/
def lineRate (d : Ix9) (c : Conn) : Nat :=
  let l := rget d Fld.PACER_PROF_LINE_RATE c.profile
  if l != 0 then l
  else if c.roce then 200000 * laneWidth d (c.netPort / 8)
  else 200000 * lanesFitted d.code 0

/-- The profile of a connection as its registers stand (R222). -/
def profOf (d : Ix9) (c : Conn) : Prof :=
  let p := c.profile
  { line := lineRate d c, ai := rget d Fld.PACER_PROF_AI p, hai := rget d Fld.PACER_PROF_HAI p,
    hyper := rget d Fld.PACER_PROF_HYPER_AFTER p, low := rget d Fld.PACER_PROF_MIN p,
    period := rget d Fld.PACER_PROF_PERIOD p * 1000, g := rget d Fld.PACER_PROF_G_SHIFT p,
    react := rflag d Fld.PACER_PROF_REACT p, burst := rget d Fld.PACER_PROF_BURST p * 1024 * 8000 }

/-- The Pacer of a connection that enters INIT (R208). -/
def pacerInit (d : Ix9) (c : Conn) : Pacer :=
  let f := profOf d c
  { prof := f, rc := f.line, alpha := 65536, quiet := 0, tokens := f.burst, grid := d.el, upTo := d.el }

/-- Brings the tokens up to date (R209). -/
def accrue (d : Ix9) (c : Conn) : Pacer :=
  let p := c.pacer
  { p with tokens := min (p.prof.burst : Int) (p.tokens + (p.rc * (d.el - p.upTo) : Nat)), upTo := d.el }

/-- A change of the profile applies at a notification or period: RC is first clipped to the new line(p) (R210). With REACT 0
RC is line(p) (R209). -/
def Pacer.renew (p : Pacer) (f : Prof) : Pacer := { p with prof := f, rc := if f.react then min p.rc f.line else f.line }

/-- on_period of R207. With REACT 0 α and the quiet count stay as they are (DESIGN CHOICE, log entry 67). -/
def onPeriod (d : Ix9) (c : Conn) (p : Pacer) : Pacer :=
  let f := profOf d c
  let p := p.renew f
  if !f.react then p
  else
    let q := p.quiet + 1
    let step := if q ≤ f.hyper then f.ai else f.hai
    { p with alpha := p.alpha - p.alpha / 2 ^ f.g, quiet := q, rc := min (p.rc + f.line * step / 1000) f.line }

/-- A notification for a connection (R206, R207). -/
def pacerNotify (d : Ix9) (n : Nat) : Ix9 :=
  let c := connOf d n
  let tile := homeTile d n
  let merged := match c.pacer.lastDec with
    | some t => decide (d.el < t + rget d Fld.PACER_CFG_DEC_INTERVAL * 1000)
    | none => false
  if merged then count d Fld.PACER_MERGED tile
  else
    let d := count d Fld.PACER_NOTIFY tile
    let f := profOf d c
    let p := (accrue d c).renew f
    if !f.react then updConn d n (fun c => { c with pacer := p })
    else
      let alpha := p.alpha - p.alpha / 2 ^ f.g + 65536 / 2 ^ f.g
      let rc := p.rc - p.rc * alpha / 2 ^ 17
      let floor := f.line * f.low / 1000
      let d := if rc < floor then count d Fld.PACER_FLOORED tile else d
      updConn d n (fun c => { c with pacer :=
        { p with alpha := alpha, rc := max rc floor, quiet := 0, lastDec := some d.el, grid := d.el } })

/-- PACER_PERIOD: a period of a connection has passed; none runs while its state is spilled (R207, R208). -/
def pacerPeriod (d : Ix9) (n : Nat) : Ix9 :=
  if cachedConn d n && holdsState d n then updConn d n (fun c => { c with pacer := onPeriod d c (accrue d c) }) else d

/-- R208 on a fill: the periods missed while spilled, up to 255, and the tokens of that time. -/
def pacerFill (d : Ix9) (n : Nat) : Ix9 :=
  updConn d n (fun c =>
    let p := c.pacer
    -- the first boundary follows the period in effect, at it the profile as it stands takes over (R210)
    let old := max 1 p.prof.period
    let per := max 1 (profOf d c).period
    let first := (p.spillAt - p.grid) / old * old + old
    let missed := if d.el - p.grid < first then 0 else min 255 (1 + ((d.el - p.grid) / per - first / per))
    let q := (List.range missed).foldl (fun p _ => onPeriod d c p) p
    let tok := min (p.prof.burst : Int) (p.tokens + (p.rc * (p.spillAt - p.upTo) + p.spillRc * (d.el - p.spillAt) : Nat))
    { c with pacer := { q with tokens := tok, upTo := d.el } })

/-! ## Working keys and envelopes (R410 to R413, R420) -/

/-- The Vault can derive keys (R411). -/
def vaultReady (d : Ix9) : Bool :=
  islandReady d 0 && rflag d Fld.VAULT_STATUS_ES_OK && rflag d Fld.VAULT_STATUS_DRBG_OK

/-- The tenant root key a connection may use (R422, R423). -/
def rootKey (d : Ix9) (c : Conn) : Option Nat :=
  match look d.ciph.slots c.tenant with
  | some (k, f) => if f = c.owner then some k else none
  | none => none

/-- Receive epoch of a direction (R420): 1 data, 2 answers. -/
def Conn.re (c : Conn) (dir : Nat) : Nat := if dir = 1 then c.rxEpoch.1 else c.rxEpoch.2

def Conn.setRe (c : Conn) (dir e : Nat) : Conn :=
  { c with rxEpoch := if dir = 1 then (e, c.rxEpoch.2) else (c.rxEpoch.1, e) }

def Conn.txcOf (c : Conn) (dir : Nat) : Nat := if dir = 1 then c.txc.1 else c.txc.2

def Conn.bumpTxc (c : Conn) (dir : Nat) : Conn :=
  { c with txc := if dir = 1 then (c.txc.1 + 1, c.txc.2) else (c.txc.1, c.txc.2 + 1) }

/-- The cached value of a key. -/
def keyValue (d : Ix9) (tile : Nat) (k : KeyId) : Option Nat :=
  ((lookD d.ciph.keys tile).find? (fun e => e.1 == k)).map (·.2)

/-- Marks a cached key as used. -/
def keyUse (d : Ix9) (tile : Nat) (k : KeyId) : Ix9 :=
  match keyValue d tile k with
  | none => d
  | some v => { d with ciph := { d.ciph with keys := updD d.ciph.keys tile (fun l => (k, v) :: l.filter (fun e => e.1 != k)) } }

/-- Asks the Vault for a key (R411). -/
def keyFetch (d : Ix9) (tile : Nat) (k : KeyId) : Ix9 :=
  if d.ciph.fetching.contains (tile, k) then d
  else count { d with ciph := { d.ciph with fetching := d.ciph.fetching ++ [(tile, k)] } } Fld.CIPH_KEY_MISSES tile

/-- How a key stands. -/
inductive KeyState where
  | have (key : Nat)
  /-- It is being fetched, or can be. -/
  | wait
  /-- The Vault is not ready or the slot is empty (R411). -/
  | none_
  deriving DecidableEq, Repr

def keyState (d : Ix9) (n : Nat) (k : KeyId) : KeyState :=
  match keyValue d (homeTile d n) k with
  | some v => .have v
  | none => if vaultReady d && (rootKey d (connOf d n)).isSome then .wait else .none_

/-- The 64-bit prefix of an envelope, which is also the IV (R412, R413). -/
def envIv (epoch txc : Nat) : Nat := epoch % 256 * 2 ^ 56 + txc % 2 ^ 56

/-- Associated data of a native packet (R413): the header as sent with ECN 0. -/
def nativeAad (p : Packet) : List Byte := beBytes 16 (Packet.header { p with ecn := 0, len := p.payLen })

/-- Puts the envelope of a direction on a native packet (R412). -/
def protectNative (key epoch txc : Nat) (p : Packet) : Packet :=
  let q := { p with prot := some ⟨epoch, txc, 0⟩ }
  let aad := nativeAad q
  { q with payload := Config.aeadSeal key (envIv epoch txc) aad p.payload,
           prot := some ⟨epoch, txc, Config.aeadTag key (envIv epoch txc) aad p.payload⟩ }

/-- The same for a RoCEv2-compatible packet: the associated data are the BTH bytes. -/
def protectRoce (key epoch txc : Nat) (r : Roce) : Roce :=
  let aad := Roce.bth r
  { r with body := Config.aeadSeal key (envIv epoch txc) aad r.body,
           prot := some ⟨epoch, txc, Config.aeadTag key (envIv epoch txc) aad r.body⟩ }

/-! ## Sending a packet of a connection -/

/-- Headers of R260 for a connection; L0 frames take the L0 marking (R279). -/
def ethHdr (d : Ix9) (c : Conn) (lane : Nat) : EthHdr :=
  let p := c.netPort
  let i := p * 4096 + c.get 0x40 15 8
  let v6 := c.get 0x40 16 16 = 1
  let src := beNat (leBytes 16 (rget d Fld.ETH_LOCAL_ADDR i))
  let pcp := if lane = 0 then rget d Fld.ETH_L0_MARK_PCP p else c.get 0x48 30 28
  { dmac := c.get 0x44 31 0 + c.get 0x48 15 0 * 2 ^ 32, smac := rget d Fld.ETH_MAC p,
    tag := if c.get 0x48 31 31 = 1 then some (c.get 0x48 27 16, pcp) else none,
    ipv6 := v6, dscp := if lane = 0 then rget d Fld.ETH_L0_MARK_DSCP p else c.get 0x2C 5 0,
    ttl := c.get 0x2C 15 8, flow := c.get 0x4C 19 0,
    src := if v6 then src else src % 2 ^ 32, dst := if v6 then c.peerIp else c.peerIp % 2 ^ 32,
    sport := c.get 0x2C 31 16 }

/-- Hands a RoCEv2-compatible packet to its port. Its length is that of the frame before MACsec adds SecTAG and ICV
(DESIGN CHOICE, log entry 69). -/
def sendRoce (d : Ix9) (c : Conn) (lane : Nat) (r : Roce) (func : Option Nat) : Ix9 :=
  let h := ethHdr d c lane
  enqueue d c.netPort lane { item := .roce h r, len := frameLen h r, func := func }

/-- A direction's envelope for the next transmission of a connection: the block with the counter moved, and the key, epoch
and counter; none where the key is not at hand. -/
def envelope (d : Ix9) (n dir : Nat) : Ix9 × Option (Nat × Nat × Nat) :=
  let c := connOf d n
  let k : KeyId := ⟨n, dir, c.keyEpoch, true⟩
  match keyState d n k with
  | .have v =>
    let d := count (keyUse d (homeTile d n) k) Fld.CIPH_ENC_PKTS (homeTile d n)
    (updConn d n (fun c => c.bumpTxc dir), some (v, c.keyEpoch, c.txcOf dir))
  | .wait => (keyFetch d (homeTile d n) k, none)
  | .none_ => (count d Fld.CIPH_KEY_MISSES (homeTile d n), none)

/-- RNR timer codes in µs, code 1 upwards (InfiniBand Architecture Specification). -/
def rnrTimes : List Nat :=
  [10, 20, 30, 40, 60, 80, 120, 160, 240, 320, 480, 640, 960, 1280, 1920, 2560, 3840, 5120, 7680, 10240, 15360, 20480, 30720,
   40960, 61440, 81920, 122880, 163840, 245760, 327680, 491520]

/-- The time of an RNR timer code in µs; code 0 is 655,360 µs. -/
def rnrTime (t : Nat) : Nat := if t = 0 then 655360 else (rnrTimes[t - 1]?).getD 655360

/-- The smallest code whose time is at least `h` (R262). -/
def rnrCode (h : Nat) : Nat :=
  match findAt rnrTimes (fun t => h ≤ t) with
  | some (i, _) => i + 1
  | none => 0

/-- TYPE and payload of an answer (R238). -/
def ansNative : Answer → Nat × Nat × List Byte
  | .ack p ce => (0x09, p, beBytes 1 (min 255 ce) ++ [0, 0, 0])
  | .atomicAck p r => (0x0A, p, leBytes 8 r)
  | .readResp p data _ _ => (0x08, p, data)
  | .nakSeq p => (0x0B, p, [])
  | .busy p h r => (0x0C, p, leBytes 2 h ++ leBytes 1 r ++ [0])
  | .nakFatal p s c => (0x0E, p, leBytes 1 s ++ leBytes 1 c ++ [0, 0])
  | .abort => (0x0F, 0, [])
  | .ctrl b => (0x11, 0, b)

/-- Opcode, PSN and body of an answer (R262): AETH, then AtomicAckETH or data. -/
def ansRoce (msn : Nat) (a : Answer) : Nat × Nat × List Byte :=
  let aeth (s m : Nat) : List Byte := beBytes 1 s ++ beBytes 3 m
  match a with
  | .ack p _ => (0x11, psnAdd p (2 ^ 24 - 1), aeth 0x1F msn)
  | .atomicAck p r => (0x12, p, aeth 0x1F msn ++ beBytes 8 r)
  | .readResp p data first last =>
    (if first && last then 0x10 else if first then 0x0D else if last then 0x0F else 0x0E, p,
     (if first || last then aeth 0x1F msn else []) ++ data)
  | .nakSeq p => (0x11, p, aeth 0x60 msn)
  | .busy p h _ => (0x11, p, aeth (0x20 + rnrCode h) msn)
  | .nakFatal p s c =>
    (0x11, p, aeth (if s = ST_REMOTE_ACCESS then 0x62 else if s = ST_REMOTE_OP_ERROR && c = 6 then 0x61 else 0x63)
      (0xF0 * 2 ^ 16 + s * 2 ^ 8 + c))
  | .abort => (0x11, 0, aeth 0x63 0xF02304)
  | .ctrl b => (0x11, 0, b)

/-- Sends an answer at once; `env` is its envelope, if it has one. READ_RESP travels on the request's lane (R236); it takes no
grant of the responder's Pacer (DESIGN CHOICE, log entry 68). -/
def sendAnswer (d : Ix9) (n : Nat) (a : Answer) (env : Option (Nat × Nat × Nat)) : Ix9 :=
  let c := connOf d n
  let lane := match a with | .readResp .. => c.lane | _ => 0
  if c.roce then
    let (op, psn, body) := ansRoce (c.msn % 2 ^ 24) a
    let r : Roce := ⟨c.netPort, lane, 0, false, 2, op, false, 0, c.peerConn, false, psn, none, body, 0⟩
    sendRoce d c lane (match env with | some (k, e, t) => protectRoce k e t r | none => r) none
  else
    let (typ, psn, pay) := ansNative a
    let last := match a with | .readResp _ _ _ l => l | _ => true
    let p : Packet := ⟨c.peerEp, 0, 0, lane, typ, 2, 0, c.peerConn, psn, pay.length, false, last, false, false, none, pay, 0, false, 0, n, 0⟩
    sendNative d p none false (fun p => match env with | some (k, e, t) => protectNative k e t p | none => p)

/-- R181: sends an answer of a connection, under its envelope with ENC set; it waits while its key is fetched (R411) or the
cipher slice is not ready (R28). READ_RESP is data and takes the keys of DIR 1 (R410). -/
def answer (d : Ix9) (n : Nat) (a : Answer) : Ix9 :=
  let c := connOf d n
  if !c.enc then sendAnswer d n a none
  else
    let dir := match a with | .readResp .. => 1 | _ => 2
    let wait (d : Ix9) : Ix9 := updConn d n (fun c => { c with ansWait := c.ansWait ++ [a] })
    if !c.ansWait.isEmpty || !unitReady d uCIPHER then wait d
    else
      match envelope d n dir with
      | (d, some e) => sendAnswer d n a (some e)
      | (d, none) => wait d

/-- Sends the answers that waited, as far as their keys are at hand. -/
def flushAnswers (d : Ix9) (n : Nat) : Ix9 :=
  let l := (connOf d n).ansWait
  l.foldl (fun d a => answer d n a) (updConn d n (fun c => { c with ansWait := [] }))

/-! ## Entries and messages that end -/

/-- Ends a message with a failure or without local writes: its entry, or word to its engine. -/
def endMsg (d : Ix9) (m : TxMsg) (status cause result : Nat) : Ix9 :=
  match m.org with
  | .entry k s => endEntry d k s status cause 0 result
  | o => { d with c := { d.c with ended := d.c.ended ++ [(o, status, cause)] } }

/-- A message has been acknowledged in full (R45): a read or atomic still awaits the acknowledgement of its local write. -/
def finishMsg (d : Ix9) (m : TxMsg) (result : Nat) : Ix9 :=
  match m.org with
  | .entry k s => issuedEntry d k s ST_OK 0 m.total result
  | o => { d with c := { d.c with ended := d.c.ended ++ [(o, ST_OK, 0)] } }

/-- Transport entries on a connection that have started and not completed: queue and slot. -/
def startedOn (d : Ix9) (n : Nat) : List (Nat × Nat) :=
  d.q.sqs.flatMap (fun (k, s) =>
    (s.entries.filter (fun e => e.stage = .started && e.op < 0x16 && e.conn == some n)).map (fun e => (k, e.slot)))

/-- The number of the PSN's message in the pair table falls when it is abandoned or acknowledged (R242). -/
def unpair (d : Ix9) (l : List TxPkt) : Ix9 :=
  l.foldl (fun d t => match t.pair with | some i => pairCount d i false | none => d) d

/-- Releases the completion slot of a send that was in progress, and its bytes in the held buffer. -/
def dropRx (d : Ix9) (n : Nat) : Ix9 :=
  let c := connOf d n
  let d := match c.rxMsg with
    | some m =>
      let d := match m.rq with | some (cq, _, _) => cqRelease d cq | none => d
      (match m.held with
       | some _ => rset d Fld.CIPH_HELD_BYTES (homeTile d n) (rget d Fld.CIPH_HELD_BYTES (homeTile d n) - 65536)
       | none => d)
    | none => d
  let d := c.rxPend.foldl (fun d p => match p.act with | .cqe cq .. => cqRelease d cq | _ => d) d
  { updConn d n (fun c => { c with rxMsg := none, rxPend := [] }) with
    c := { (updConn d n (fun c => { c with rxMsg := none, rxPend := [] })).c with rxReads := d.c.rxReads.filter (fun r => r.conn != n) } }

/-- R151: a connection enters ERROR. `cause`: the entry's message that caused it with its status, cause and RESULT. -/
def enterError (d : Ix9) (n errCause : Nat) (causing : Option (TxMsg × Nat × Nat × Nat)) (abort : Bool) : Ix9 :=
  let c := connOf d n
  let d := updConn d n (fun c => ((c.set 0 2 0 csERROR).set 8 23 16 errCause))
  let d := match causing with | some (m, s, cs, r) => endMsg d m s cs r | none => d
  let rest := c.txMsgs.filter (fun m => match causing with | some (x, _) => m.org != x.org | none => true)
  let d := rest.foldl (fun d m => endMsg d m ST_CONN_ABORTED errCause 0) d
  let d := ((startedOn d n).filter (fun e => !halted d e.1 e.2)).foldl (fun d (k, s) => endEntry d k s ST_CONN_ABORTED errCause) d
  let d := unpair d c.txOut
  let d := dropRx d n
  let d := updConn d n (fun c => { c with txMsgs := [], txOut := [], resend := [], hold := none, waiter := [], busy := none })
  let d := c.waiter.foldl (fun d (k, s) => endEntry d k s ST_CONN_ABORTED errCause) d
  if abort then answer d n .abort else d

/-- The message whose entry R150 calls the causing entry: the one of the oldest unacknowledged packet. -/
def oldestMsg (c : Conn) : Option TxMsg :=
  match c.txOut with
  | t :: _ => c.txMsgs.find? (fun m => m.org == t.org)
  | [] => c.txMsgs.head?

/-- R150 row 10: a responder check fails: NAK_FATAL, then R151 (DESIGN CHOICE, log entry 21). -/
def responderFail (d : Ix9) (n psn status cause : Nat) : Ix9 :=
  enterError (answer d n (.nakFatal psn status cause)) n 3 none true

/-- A write of a receive of the connection still lacks its destination acknowledgement. -/
def receiving (d : Ix9) (n : Nat) : Bool :=
  d.paths.any (fun (_, p) => (p.waiting ++ p.writing ++ p.port ++ p.reqs.flatMap (·.covers)).any
    (fun t => match t with | .rx c _ => c == n | _ => false))

/-- Modifies to DRAIN complete once no started entry is left on the connection (R150 row 4), a destroy once no receive is
in progress either (R156). -/
def drainDone (d : Ix9) (n : Nat) : Ix9 :=
  let c := connOf d n
  if c.waiter.isEmpty || !(startedOn d n).isEmpty || (c.state = csQUARANTINE && receiving d n) then d
  else
    c.waiter.foldl (fun d (k, s) =>
      match entryAt d k s with
      | some e => issuedEntry d k s ST_OK 0 e.bytes 0
      | none => d) (updConn d n (fun c => { c with waiter := [] }))

/-- The number goes to QUARANTINE (R58, R150): what is parked for it is discarded and its pinned-array entry is freed
(R171); with `discard` its state is gone (R152, R153), a fill or a spill that runs completes first (R178). `lost`: a reset has
cleared the engine, and with it the ABORT that waits for its key (R151 to R153). -/
def toQuarantine (d : Ix9) (n : Nat) (discard lost : Bool) : Ix9 :=
  let d := unpair d (connOf d n).txOut
  let engine := (connOf d n).txMsgs.filter (fun m => match m.org with | .entry .. => false | _ => true)
  let d := { d with c := { d.c with ended := d.c.ended ++ engine.map (fun m => (m.org, ST_CONN_ABORTED, 0)) } }
  let dead := (parkedOf d n).length
  let d := count d Fld.CONN_DEAD_DISCARDS (homeTile d n) dead
  let d := setState (dropRx d n) n csQUARANTINE
  let d := updConn d n (fun c => { c with quarEnd := d.now + rget d Fld.CONN_QUARANTINE * 10 ^ 6, txMsgs := [], txOut := [],
                                          resend := [], hold := none, busy := none, waiter := [], discarded := discard,
                                          ansWait := if lost then [] else c.ansWait.filter (· == .abort) })
  let d := { d with c := { d.c with parked := d.c.parked.filter (fun p => p.conn != n) } }
  let moving := placeOf d n = some .filling || placeOf d n = some .spilling
  if (discard && (lost || !moving)) || placeOf d n = some .pinned then dropPlace d n else d

end Sys2Proof.Machine
end

