-- ==== Sys2Proof/Machine/Send.lean ====
section
/-!
DEFINITION. The sending side of the transport: messages of entries, PACKET_SEND (R179, R180, R190, R192, R237, R261), the
answers a sender receives (R187) and its timers (R188).
-/

namespace Sys2Proof.Machine

/-! ## Bytes of a buffer -/

/-- The pieces of a translated buffer that hold bytes [off, off + n). -/
def slice (off n : Nat) : List Seg → List Seg
  | [] => []
  | s :: r =>
    if n = 0 then []
    else if s.len ≤ off then slice (off - s.len) n r
    else
      let k := min n (s.len - off)
      { s with va := s.va + off, len := k, phys := { s.phys with addr := s.phys.addr + off } } :: slice 0 (n - k) r

def segsLen (l : List Seg) : Nat := l.foldl (fun a s => a + s.len) 0

/-- Reads pieces in order: landing pieces from the landing memory, the others from the bytes brought along. The first
failure decides (R371). -/
def readSegs (m : List Host.Cell) (d : Ix9) (l : List Seg) (r : ReadData) : ReadData :=
  match r with
  | .poisoned _ => .poisoned []
  | .fail w => .fail w
  | .domainDown => .domainDown
  | _ =>
    let given : List Byte := match r with | .ok b => b | _ => []
    let rec go : List Seg → List Byte → List Byte → ReadData
      | [], _, acc => .ok acc
      | s :: r, g, acc =>
        match s.phys.target with
        | .landing =>
          (match lmRead m d s.phys.func s.phys.addr s.len with
           | .ok b => go r g (acc ++ b)
           | x => x)
        | _ => if g.length < s.len then .own else go r (g.drop s.len) (acc ++ g.take s.len)
    go l given []

/-- Every piece lies in landing memory. -/
def allLanding (l : List Seg) : Bool := l.all (fun s => s.phys.target = .landing)

/-- Writes bytes over pieces in order; says whether one met poison (R370). -/
def writeSegs (d : Ix9) : List Seg → List Byte → Ix9 × Bool
  | [], _ => (d, false)
  | s :: r, b =>
    if b.isEmpty then (d, false)
    else
      let (d, p) := memWrite d s.phys (b.take s.len)
      let (d, q) := writeSegs d r (b.drop s.len)
      (d, p || q)

/-- The distinct paths of pieces, in order of last use. -/
def pathsOf (d : Ix9) (l : List Seg) : List Path :=
  l.foldl (fun acc s => let p := pathOf d s.phys; (acc.filter (· != p)) ++ [p]) []

/-! ## Messages -/

/-- The message of a transport entry (R80). -/
def entryMsg (k : Nat) (e : Entry) : TxMsg :=
  let inl := e.op = 0x10 && flag e.opflags 0
  let buf := (e.bufs.head?.map (·.segs)).getD []
  let r := e.remoteAt 2
  { org := .entry k e.slot, op := e.op, buf := buf, inl := if inl then some e.inlineBytes else none,
    window := r.window, rkey := r.rkey, offset := r.offset,
    total := if inl then e.oparg0 else if e.op = 0x14 || e.op = 0x15 then 8 else segsLen buf,
    immVal := if e.op = 0x12 then e.operandAt 3 else 0,
    arg1 := if e.op = 0x14 || e.op = 0x15 then e.operandAt 3 else 0,
    arg2 := if e.op = 0x15 then e.operandAt 4 else 0,
    scope := e.scope, barrier := e.barrier, solicit := e.solicit }

/-- Puts a message on its connection; its packets follow in order (R30, R34). -/
def postMsg (d : Ix9) (n : Nat) (m : TxMsg) : Ix9 := updConn d n (fun c => { c with txMsgs := c.txMsgs ++ [m] })

/-- OP_SEND to OP_CMP_SWAP: a started transport entry of this opcode hands its message to the connection. -/
def opTransport (d : Ix9) (op k slot : Nat) : Ix9 :=
  match startedEntry d op k slot with
  | none => d
  | some (_, e) => postMsg (updEntry d k slot (fun e => { e with phase := 1 })) e.object (entryMsg k e)

/-! ## The next packet -/

/-- A packet to be sent: what it carries (R179, R237). -/
structure Plan where
  msg : TxMsg
  off : Nat
  n : Nat
  first : Bool
  last : Bool
  npsn : Nat
  cost : Nat
  deriving DecidableEq, Repr

/-- Bytes of the message extension on a native packet (R237), of extension headers on a RoCEv2-compatible one (R261). -/
def extLen (roce : Bool) (op : Nat) (first : Bool) : Nat :=
  if !first then 0
  else if roce then (if op = 0x10 then 0 else if op = 0x14 || op = 0x15 then 28 else 16)
  else if op = 0x10 then 4 else if op = 0x13 then 20 else if op = 0x14 then 24 else if op = 0x15 then 32 else 16

/-- The next packet of a message (R179, R237). A read of more than 1,024 responses is asked for in parts of 1,024, so that
R56 holds (DESIGN CHOICE, log entry 18). -/
def planMsg (c : Conn) (m : TxMsg) : Plan :=
  let first := m.sent = 0
  let ext := extLen c.roce m.op first
  if m.op = 0x13 then
    let n := min (m.total - m.sent) (1024 * c.mtu)
    { msg := m, off := m.sent, n := n, first := true, last := m.total ≤ m.sent + n, npsn := max 1 (ceilDiv n c.mtu), cost := n }
  else if m.op = 0x14 || m.op = 0x15 then
    { msg := m, off := 0, n := 0, first := true, last := true, npsn := 1, cost := ext }
  else
    let imm := if m.op = 0x12 then (if c.roce then 4 else 8) else 0
    let room := if c.roce then c.mtu else min c.mtu (8192 - ext - (if c.enc then 24 else 0))
    let roomLast := if c.roce then c.mtu else min c.mtu (8192 - ext - imm - (if c.enc then 24 else 0))
    let left := m.total - m.sent
    let last := left ≤ roomLast
    let n := if last then left else min left room
    { msg := m, off := m.sent, n := n, first := first, last := last, npsn := 1, cost := n + ext + (if last then imm else 0) }

/-- The next new packet of a connection. -/
def planConn (c : Conn) : Option Plan := (c.txMsgs.find? (fun m => !m.allSent)).map (planMsg c)

def outstanding (c : Conn) : Nat := c.txOut.foldl (fun a t => a + t.cost) 0
def outPsns (c : Conn) : Nat := c.txOut.foldl (fun a t => a + t.npsn) 0

def isAtomic (op : Nat) : Bool := op == 0x14 || op == 0x15

/-- R56, R184 and R192 hold the packet back: the window only while something is outstanding. -/
def planHeld (c : Conn) (p : Plan) : Bool :=
  (!c.txOut.isEmpty && c.windowBytes < outstanding c + p.cost) || 1024 < outPsns c + p.npsn
    || (isAtomic p.msg.op
        && (16 ≤ (c.txOut.filter (fun t => isAtomic t.op)).length
            || c.txOut.any (fun t => isAtomic t.op && t.psn % 16 == c.txPsn % 16)))

/-- The packet that the connection would send next is held (R180). -/
def nextHeld (c : Conn) : Bool := (planConn c).any (planHeld c)

/-- The first PSN of a read's packet whose response is still to come (R185); none where all have come. -/
def readLacks (c : Conn) (t : TxPkt) : Option Nat :=
  let m := c.txMsgs.find? (fun m => m.org == t.org)
  let left := match m with
    | some m => if t.len = 0 then (if m.answered then 0 else 1) else ceilDiv (t.off + t.len - max t.off m.got) c.mtu
    | none => 0
  if left = 0 then none else some (psnAdd t.psn (t.npsn - left))

/-- The data bytes of a packet: inline, from landing memory, or brought by the source reads; `own` where they are not at
hand yet. -/
def packetData (m : List Host.Cell) (d : Ix9) (msg : TxMsg) (off n : Nat) : ReadData :=
  match msg.inl with
  | some l => .ok ((l.drop off).take n)
  | none =>
    let pieces := slice off n msg.buf
    match msg.src.find? (fun s => s.1 == off && n ≤ s.2.length) with
    | some (_, b) => if allLanding pieces then readSegs m d pieces .own else .ok (b.take n)
    | none => if allLanding pieces then readSegs m d pieces .own else .own

/-- FLAGS of an extension (R237): SCOPE, BARRIER, SOLICIT. -/
def msgFlags (m : TxMsg) : Nat := m.scope % 4 + b2n m.barrier * 4 + b2n m.solicit * 8

/-- TYPE of a native request (R236). -/
def nativeType (op : Nat) : Nat := op - 0x0F

/-- The extension of R237; a read names the bytes [got, upTo) of its message (R185). -/
def nativeExt (m : TxMsg) (got upTo : Nat) : List Byte :=
  if m.op = 0x10 then leBytes 4 (msgFlags m)
  else
    let base := leBytes 8 (m.offset + got) ++ leBytes 4 m.rkey ++ leBytes 3 m.window ++ leBytes 1 (msgFlags m)
    if m.op = 0x13 then base ++ leBytes 4 (upTo - got)
    else if m.op = 0x14 then base ++ leBytes 8 m.arg1
    else if m.op = 0x15 then base ++ leBytes 8 m.arg1 ++ leBytes 8 m.arg2
    else base

/-- A native request packet, before its route and envelope. -/
def nativePacket (c : Conn) (n psn : Nat) (m : TxMsg) (first last ackreq : Bool) (got upTo : Nat) (data : List Byte) : Packet :=
  let imm := m.op = 0x12 && last
  let pay := (if imm then leBytes 8 m.immVal else []) ++ (if first then nativeExt m got upTo else []) ++ data
  ⟨c.peerEp, 0, 0, c.lane, nativeType m.op, 2, 0, c.peerConn, psn, pay.length, false, last, ackreq, imm, none, pay, 0, false, 0, n, 0⟩

/-- BTH opcode of a request (R261). -/
def roceOpcode (op : Nat) (first last : Bool) : Nat :=
  if op = 0x10 then (if first && last then 4 else if first then 0 else if last then 2 else 1)
  else if op = 0x11 then (if first && last then 0x0A else if first then 6 else if last then 8 else 7)
  else if op = 0x12 then (if first && last then 0x0B else if first then 6 else if last then 9 else 7)
  else if op = 0x13 then 0x0C
  else if op = 0x14 then 0x14 else 0x13

/-- A RoCEv2-compatible request (R261). -/
def rocePacket (c : Conn) (psn : Nat) (m : TxMsg) (first last ackreq : Bool) (got upTo : Nat) (data : List Byte) : Roce :=
  let va := m.window * 2 ^ 40 + m.offset + got
  let ext :=
    if !first || m.op = 0x10 then []
    else if isAtomic m.op then
      beBytes 8 va ++ beBytes 4 m.rkey ++ (if m.op = 0x14 then beBytes 8 m.arg1 ++ beBytes 8 0 else beBytes 8 m.arg2 ++ beBytes 8 m.arg1)
    else beBytes 8 va ++ beBytes 4 m.rkey ++ beBytes 4 (if m.op = 0x13 then upTo - got else m.total)
  let imm := if m.op = 0x12 && last then beBytes 4 m.immVal else []
  ⟨c.netPort, c.lane, 0, false, 2, roceOpcode m.op first last, (m.op = 0x10 && m.solicit) || m.op = 0x12,
   m.scope % 4 + b2n m.barrier * 4, c.peerConn, ackreq, psn, none, ext ++ imm ++ data, 0⟩

/-- R372: a source read failed: before the first packet the entry ends alone; later the connection enters ERROR. -/
def sourceFailed (d : Ix9) (n : Nat) (m : TxMsg) (status : Nat) : Ix9 :=
  if m.sent = 0 then
    endMsg (updConn d n (fun c => { c with txMsgs := c.txMsgs.filter (fun x => x.org != m.org) })) m status 0 0
  else enterError d n 3 (some (m, status, 0, 0)) true

/-- Hands a packet of a connection to its port: the Pacer's charge (R209), the envelope, the route or frame. -/
def launch (d : Ix9) (n : Nat) (m : TxMsg) (psn : Nat) (first last ackreq again : Bool) (got upTo : Nat) (data : List Byte)
    (env : Option (Nat × Nat × Nat)) : Ix9 :=
  let c := connOf d n
  let len (pay : Nat) : Nat := pay + 20
  if c.roce then
    let r := rocePacket c psn m first last ackreq got upTo data
    let r := match env with | some (k, e, t) => protectRoce k e t r | none => r
    let size := frameLen (ethHdr d c c.lane) r
    let d := updConn d n (fun c => { c with pacer := { accrue d c with tokens := (accrue d c).tokens - (8000 * (len size) : Nat) } })
    sendRoce d c c.lane r (some c.owner)
  else
    let p := nativePacket c n psn m first last ackreq got upTo data
    let size := p.wireLen + (if env.isSome then 24 else 0)
    let d := updConn d n (fun c => { c with pacer := { accrue d c with tokens := (accrue d c).tokens - (8000 * (len size) : Nat) } })
    sendNative d p (some c.owner) again (fun p => match env with | some (k, e, t) => protectNative k e t p | none => p)

/-- The connection may put a packet on the wire: its state is cached, it is in READY or DRAIN, no hold runs (a reset
back-off lets its probe pass), the Pacer grants (R187, R192, R209) and its cipher slice is ready (R28). -/
def maySend (d : Ix9) (n : Nat) : Bool :=
  let c := connOf d n
  cachedConn d n && xportReady d (homeTile d n) && (c.state = csREADY || c.state = csDRAIN)
    && (match c.hold with | none => true | some (.backoff p) => !p && !c.resend.isEmpty | some (.busy _) => false)
    && 0 ≤ (accrue d c).tokens && (!c.enc || unitReady d uCIPHER)

/-- The envelope of a data packet where the connection has one: none in the outer option where the packet must wait. -/
def dataEnvelope (d : Ix9) (n : Nat) : Ix9 × Option (Option (Nat × Nat × Nat)) :=
  if !(connOf d n).enc then (d, some none)
  else
    match envelope d n 1 with
    | (d, some e) => (d, some (some e))
    | (d, none) => (d, none)

/-- Sends the next packet of a connection again (R190). -/
def sendAgain (m : List Host.Cell) (d : Ix9) (n psn : Nat) : Ix9 :=
  let c := connOf d n
  let skip (d : Ix9) : Ix9 := updConn d n (fun c => { c with resend := c.resend.drop 1 })
  match c.txOut.find? (fun t => t.psn == psn) with
  | none => skip d
  | some t =>
    match c.txMsgs.find? (fun x => x.org == t.org) with
    | none => skip d
    | some msg =>
      -- a read asks again from the first response it lacks (R185)
      match (if t.op = 0x13 then readLacks c t else some psn) with
      | none => skip d
      | some q =>
      match packetData m d msg t.off (if t.op = 0x13 || isAtomic t.op then 0 else t.len) with
      | .ok data =>
        (match dataEnvelope d n with
         | (d, none) => d
         | (d, some env) =>
           let ackreq := t.last || c.forceAck || 63 ≤ c.sinceAck || (c.resend.length = 1 && nextHeld c)
           let d := count (skip d) Fld.RD_RETRANS (homeTile d n)
           let d := updConn d n (fun c =>
             { c with txOut := c.txOut.map (fun x => if x.psn = psn then { x with sentAt := d.el, ep := c.keyEpoch } else x)
                      sinceAck := if ackreq then 0 else c.sinceAck + 1
                      hold := match c.hold with | some (.backoff _) => some (.backoff true) | h => h
                      resend := match c.hold with | some (.backoff _) => [] | _ => c.resend
                      txMsgs := c.txMsgs.map (fun x => if x.org = t.org then { x with src := x.src.filter (fun s => s.1 != t.off) } else x) })
           launch d n msg q t.first t.last ackreq true (if t.op = 0x13 then max t.off msg.got else 0) (t.off + t.len) data env)
      | .own => d
      | .poisoned _ => enterError d n 3 (some (msg, ST_DATA_POISON, 0, 0)) true
      | .fail _ => enterError d n 3 (some (msg, ST_BUS_ERROR, 0, 0)) true
      | .domainDown => enterError d n 3 (some (msg, ST_BUS_ERROR, 0, 0)) true

/-- Sends the next new packet of a connection (R192). -/
def sendNew (m : List Host.Cell) (d : Ix9) (n : Nat) : Ix9 :=
  let c := connOf d n
  match planConn c with
  | none => d
  | some p =>
    if planHeld c p then d
    else
      match packetData m d p.msg p.off (if p.msg.op = 0x13 then 0 else p.n) with
      | .own => d
      | .poisoned _ => sourceFailed d n p.msg ST_DATA_POISON
      | .fail _ => sourceFailed d n p.msg ST_BUS_ERROR
      | .domainDown => sourceFailed d n p.msg ST_BUS_ERROR
      | .ok data =>
        match dataEnvelope d n with
        | (d, none) =>
          if keyState d n ⟨n, 1, c.keyEpoch, true⟩ = .none_ then
            (if p.first then
               endMsg (updConn d n (fun c => { c with txMsgs := c.txMsgs.filter (fun x => x.org != p.msg.org) })) p.msg ST_KEY_UNAVAILABLE 2 0
             else enterError d n 3 (some (p.msg, ST_KEY_UNAVAILABLE, 2, 0)) true)
          else d
        | (d, some env) =>
          let psn := c.txPsn
          let pair := if c.roce then none else some (pairIndex c.peerEp c.lane)
          let t : TxPkt := { psn := psn, npsn := p.npsn, org := p.msg.org, op := p.msg.op, off := p.off,
                             len := p.n, first := p.first, last := p.last,
                             cost := p.cost, pair := pair, sentAt := d.el, ep := c.keyEpoch }
          let c1 : Conn := { (connOf d n).set 0x14 23 0 (psnAdd psn p.npsn) with
            txOut := c.txOut ++ [t],
            txMsgs := c.txMsgs.map (fun x => if x.org = p.msg.org then
              { x with sent := x.sent + p.n, allSent := p.last, src := x.src.filter (fun s => s.1 != p.off) } else x) }
          let ackreq := p.last || c.forceAck || 63 ≤ c.sinceAck || nextHeld c1
          let d := updConn d n (fun _ => { c1 with sinceAck := if ackreq then 0 else c.sinceAck + 1 })
          let d := launch d n p.msg psn p.first p.last ackreq false (if p.msg.op = 0x13 then p.off else 0) (p.off + p.n) data env
          match pair with | some i => pairCount d i true | none => d

/-- PACKET_SEND: the connection's next packet, a retransmission first (R190, R192). -/
def packetSend (m : List Host.Cell) (d : Ix9) (n : Nat) : Ix9 :=
  if !maySend d n then d
  else
    match (connOf d n).resend with
    | psn :: _ => sendAgain m d n psn
    | [] => sendNew m d n

/-! ## What a sender receives (R187) -/

/-- The PSN lies in [TX_UNA, TX_PSN): the outstanding range. -/
def inRange (c : Conn) (psn : Nat) : Bool := psnSub psn c.txUna < psnSub c.txPsn c.txUna

/-- Go-back from PSN n: every packet from it is sent again in order (R187) (DEDUCED, log entry 18). -/
def goBack (c : Conn) (psn : Nat) : Conn :=
  { c with resend := ((c.txOut.filter (fun t => psnSub psn c.txUna < psnSub t.psn c.txUna + t.npsn))).map (·.psn) }

/-- Every packet sent from now carries ACKREQ, until what has been sent so far is acknowledged (R180) (DEDUCED, log entry 18). -/
def force (c : Conn) : Conn := { c with forceAck := true, forceTo := c.txPsn }

/-- TX_UNA moves to `una`: packets before it are acknowledged, messages whose PSNs are all acknowledged end, a read whose
responses are at hand included (DEDUCED, log entry 20). -/
def ackTo (d : Ix9) (n una : Nat) : Ix9 :=
  let c := connOf d n
  if una = c.txUna then d
  else
    let k := psnSub una c.txUna
    let gone := c.txOut.filter (fun t => psnSub t.psn c.txUna + t.npsn ≤ k)
    let kept := c.txOut.filter (fun t => !(psnSub t.psn c.txUna + t.npsn ≤ k))
    let cut := kept.map (fun t => if psnSub t.psn c.txUna < k
      then (let m := k - psnSub t.psn c.txUna
            { t with psn := una, npsn := t.npsn - m, cost := t.cost - min t.cost (m * c.mtu), off := t.off + min t.len (m * c.mtu)
                     len := t.len - min t.len (m * c.mtu) })
      else t)
    let d := unpair d gone
    let d := updConn d n (fun c => { c.set 0x18 23 0 una with
      txOut := cut, retryCnt := 0, resetCnt := 0, forceAck := c.forceAck && psnSub una c.forceTo ≥ 2 ^ 23
      epAcked := c.epAcked || (c.txOut.filter (fun t => psnSub t.psn c.txUna < k)).any (fun t => t.ep == c.keyEpoch)
      resend := (c.resend.filter (fun p => k ≤ psnSub p c.txUna)) ++
                (if c.resend.any (fun p => psnSub p c.txUna < k) && cut.any (fun t => t.psn == una) && !c.resend.contains una then [una] else []) })
    let ended := c.txMsgs.filter (fun m => m.allSent && gone.any (fun t => t.org == m.org) && !cut.any (fun t => t.org == m.org))
    let d := updConn d n (fun c => { c with txMsgs := c.txMsgs.filter (fun m => !ended.any (fun x => x.org == m.org)) })
    drainDone (ended.foldl (fun d m => finishMsg d m m.result) d) n

/-- How far an acknowledgement of every PSN before `p` moves TX_UNA: a read that lacks response data or an atomic that lacks
its result stops it (R181, R185; DEDUCED, log entry 20). -/
def ackCap (c : Conn) (p : Nat) : Nat :=
  let lacks (t : TxPkt) : Option Nat :=
    if t.op = 0x13 then readLacks c t
    else if isAtomic t.op && !c.txMsgs.any (fun m => m.org == t.org && m.got == 8) then some t.psn else none
  match (c.txOut.filterMap lacks).find? (fun q => psnSub q c.txUna < psnSub p c.txUna) with
  | some q => q
  | none => p

/-- Every PSN before `p` is acknowledged: TX_UNA moves to the first that is not (R187). What an earlier answer acknowledged
beyond a read or an atomic counts once the answer to that has come. -/
def ackUpTo (d : Ix9) (n p : Nat) : Ix9 :=
  let c := connOf d n
  let hi := match c.ackHi with
    | some q => if psnSub q c.txUna ≤ psnSub c.txPsn c.txUna && psnSub p c.txUna < psnSub q c.txUna then q else p
    | none => p
  ackTo (updConn d n (fun c => { c with ackHi := some hi })) n (ackCap c hi)

/-- Any answer but RESETTING ends a reset back-off (R187). -/
def endBackoff (d : Ix9) (n : Nat) : Ix9 :=
  updConn d n (fun c => match c.hold with | some (.backoff _) => force { c with hold := none, resetCnt := 0 } | _ => c)

/-- An ACK naming PSN `p`: every PSN before it is complete. A PSN outside TX_UNA to TX_PSN is ignored. -/
def onAck (d : Ix9) (n p ce : Nat) : Ix9 :=
  let c := connOf d n
  if psnSub p c.txUna ≤ psnSub c.txPsn c.txUna then
    let d := endBackoff d n
    let d := if c.roce || ce = 0 then d else pacerNotify d n
    ackUpTo d n p
  else d

/-- The piece of the local target that takes response bytes at offset `off`, written and acknowledged as SCOPE and BARRIER
ask (R164). -/
def writeResponse (d : Ix9) (msg : TxMsg) (off : Nat) (data : List Byte) : Ix9 × Bool :=
  let pieces := slice off data.length msg.buf
  let (d, poison) := writeSegs d pieces data
  match msg.org with
  | .entry k s => ((pathsOf d pieces).foldl (fun d p =>
      let d := updEntry d k s (fun e => { e with acks := e.acks + 1 })
      needAck d p (.entry k s) msg.scope msg.barrier) d, poison)
  | _ => (d, poison)

/-- An ATOMIC_ACK: the atomic and every PSN before it are complete; RESULT goes to the entry and its buffer (R80, R168). -/
def onAtomicAck (d : Ix9) (n p result : Nat) : Ix9 :=
  let c := connOf d n
  if !inRange c p then d
  else
    match c.txOut.find? (fun t => t.psn == p && isAtomic t.op) with
    | none => d
    | some t =>
      let d := endBackoff d n
      let d := match c.txMsgs.find? (fun m => m.org == t.org) with
        | some msg => if segsLen msg.buf = 0 then d else (writeResponse d msg 0 (leBytes 8 result)).1
        | none => d
      let d := updConn d n (fun c => { c with txMsgs := c.txMsgs.map (fun m => if m.org = t.org then { m with result := result, got := 8 } else m) })
      ackUpTo d n (psnAdd p 1)

/-- A READ_RESP with PSN p (R181, R185): data for the first PSN the read lacks is written; data ahead of it draws a
go-back, data for a PSN already written is discarded. -/
def onReadResp (d : Ix9) (n p : Nat) (data : List Byte) : Ix9 :=
  let c := connOf d n
  if !inRange c p then d
  else
    match c.txOut.find? (fun t => t.op == 0x13 && (readLacks c t).isSome) with
    | none => endBackoff d n
    | some t =>
      let q := (readLacks c t).getD t.psn
      if psnSub p c.txUna < psnSub q c.txUna then endBackoff d n
      else
      -- every PSN before the request is acknowledged
      let d := ackUpTo (endBackoff d n) n t.psn
      if p = q then
        (match c.txMsgs.find? (fun m => m.org == t.org) with
         | none => d
         | some msg =>
           if data.length != min c.mtu (t.off + t.len - max t.off msg.got) then d
           else
             let (d, poison) := writeResponse d msg msg.got data
             if poison then enterError d n 3 (some (msg, ST_DATA_POISON, 0, 0)) true
             else
               let d := updConn d n (fun c => { c with txMsgs := c.txMsgs.map (fun m => if m.org = t.org then { m with got := m.got + data.length, answered := true } else m) })
               ackUpTo d n (psnAdd p 1))
      else
        let c := connOf d n
        if c.retryCnt = rget d Fld.RD_TIMER_RETRY_LIMIT then
          (match oldestMsg c with
           | some msg => enterError (count d Fld.RD_GIVEUPS (homeTile d n)) n 3 (some (msg, ST_RETRY_EXCEEDED, 2, 0)) true
           | none => d)
        else
          match c.backAt with
          | some (b, at_) => if b = q && d.el < at_ + rget d Fld.RD_TIMER_RTO_BASE * 500 then d
              else updConn d n (fun c => { goBack c q with retryCnt := c.retryCnt + 1, backAt := some (q, d.el) })
          | none => updConn d n (fun c => { goBack c q with retryCnt := c.retryCnt + 1, backAt := some (q, d.el) })

/-- A NAK_SEQ naming PSN p (R187). -/
def onNakSeq (d : Ix9) (n p : Nat) : Ix9 :=
  let c := connOf d n
  if !inRange c p then d
  else
    let d := endBackoff d n
    let recent := match c.backAt with
      | some (q, at_) => q == p && decide (d.el < at_ + rget d Fld.RD_TIMER_RTO_BASE * 500)
      | none => false
    if recent then d
    else
    let d := count d Fld.RD_NAK_RCVD (homeTile d n)
    if c.retryCnt = rget d Fld.RD_TIMER_RETRY_LIMIT then
      match oldestMsg c with
      | some msg => enterError (count d Fld.RD_GIVEUPS (homeTile d n)) n 3 (some (msg, ST_RETRY_EXCEEDED, 2, 0)) true
      | none => enterError (count d Fld.RD_GIVEUPS (homeTile d n)) n 3 none true
    else
      updConn d n (fun c =>
        { goBack c p with retryCnt := c.retryCnt + 1, backAt := some (p, d.el) })

/-- A BUSY naming PSN p (R187): sending stops until the hold ends. -/
def onBusy (d : Ix9) (n p : Nat) : Ix9 :=
  let d := count d Fld.RD_BUSY_RCVD (homeTile d n)
  if !inRange (connOf d n) p then d
  else
    let d := endBackoff d n
    updConn d n (fun c => { c with hold := some (.busy p), resend := [] })

/-- The busy hold is over: every PSN from p is sent again. For the RTO_BASE/2 of a later NAK_SEQ this is no go-back (DESIGN CHOICE, log entry 65). -/
def busyHoldEnd (d : Ix9) (n : Nat) : Ix9 :=
  updConn d n (fun c => match c.hold with | some (.busy p) => force (goBack { c with hold := none } p) | _ => c)

/-- A RESETTING answer (R187). -/
def onResetting (d : Ix9) (n p : Nat) : Ix9 :=
  let c := connOf d n
  let running := match c.hold with | some (.backoff false) => true | _ => false
  if !inRange c p || running then d
  else
    let d := count d Fld.RD_RESET_RCVD (homeTile d n)
    if rget d Fld.RD_RESET_LIMIT < c.resetCnt + 1 then
      let d := count d Fld.RD_GIVEUPS (homeTile d n)
      match oldestMsg c with
      | some msg => enterError d n 3 (some (msg, ST_ENDPOINT_RESETTING, 0, 0)) true
      | none => enterError d n 3 none true
    else updConn d n (fun c => { c with resetCnt := c.resetCnt + 1, hold := some (.backoff false), resend := [] })

/-- The reset back-off is over: one probe, PSN TX_UNA with ACKREQ. -/
def resetBackoffEnd (d : Ix9) (n : Nat) : Ix9 :=
  updConn d n (fun c =>
    match c.hold, c.txOut with
    | some (.backoff false), t :: _ => force { c with resend := [t.psn] }
    | _, _ => c)

/-- RESULT of a sender's entry that ends with ST_AUTH_UNTRUSTED (R419): the range its failing PSN and message give. -/
def untrustedRange (c : Conn) (psn : Nat) : Nat :=
  match c.txOut.find? (fun t => t.psn == psn) with
  | some t =>
    (match c.txMsgs.find? (fun m => m.org == t.org) with
     | some m => (t.off + (if t.op = 0x10 then 0 else m.offset)) % 2 ^ 40 + min 8192 t.len * 2 ^ 40
     | none => 0)
  | none => 0

/-- A NAK_FATAL (R150 row 9): the entry of its PSN ends with the status it carries. -/
def onNakFatal (d : Ix9) (n p status cause : Nat) : Ix9 :=
  let c := connOf d n
  if !inRange c p then d
  else
    let msg := match c.txOut.find? (fun t => psnSub p t.psn < t.npsn) with
      | some t => c.txMsgs.find? (fun m => m.org == t.org)
      | none => oldestMsg c
    let result := if status = ST_AUTH_UNTRUSTED then untrustedRange c p else 0
    match msg with
    | some m => enterError d n 3 (some (m, status, cause, result)) true
    | none => enterError d n 3 none true

/-- An ABORT of the peer (R150 row 11). -/
def onAbort (d : Ix9) (n : Nat) : Ix9 := enterError d n 4 none false

/-- The retransmission timer of a connection expires (R187, R188): it runs while a PSN is unacknowledged and no hold
runs; a probe counts as sent. -/
def retransExpiry (d : Ix9) (n : Nat) : Ix9 :=
  let c := connOf d n
  let runs := !c.txOut.isEmpty && (c.state = csREADY || c.state = csDRAIN)
    && (match c.hold with | none => true | some (.backoff p) => p | some (.busy _) => false)
    && !(c.roce && rflag d Fld.ETH_LS_STATUS_RETRAINING c.netPort)
  if !runs then d
  else
    let d := if cachedConn d n then d else startFill d n
    let d := count d Fld.RD_TIMEOUTS (homeTile d n)
    if c.retryCnt < rget d Fld.RD_TIMER_RETRY_LIMIT then
      updConn d n (fun c => { force (goBack { c with hold := none } c.txUna) with retryCnt := c.retryCnt + 1, backAt := some (c.txUna, d.el) })
    else
      let d := count d Fld.RD_GIVEUPS (homeTile d n)
      match oldestMsg c with
      | some msg => enterError d n 3 (some (msg, ST_RETRY_EXCEEDED, 1, 0)) true
      | none => enterError d n 3 none true

/-- The source bytes of a message at an offset are being read: rate and window have been granted for the packet that carries
them (R27 steps 5 and 6). -/
def sourceDue (d : Ix9) (n : Nat) (o : Origin) (off : Nat) : Bool :=
  let c := connOf d n
  maySend d n && (match c.resend with
    | psn :: _ => c.txOut.any (fun t => t.psn == psn && t.org == o && t.off == off)
    | [] => (planConn c).any (fun p => p.msg.org == o && p.off == off && !planHeld c p))

/-- Bytes of a source that a message of a connection needs have been read (R27 step 6). -/
def sourceForMsg (d : Ix9) (n : Nat) (o : Origin) (off : Nat) (r : ReadData) : Ix9 :=
  if !sourceDue d n o off then d
  else
  match (connOf d n).txMsgs.find? (fun m => m.org == o) with
  | none => d
  | some msg =>
    match r with
    | .ok b => updConn d n (fun c => { c with txMsgs := c.txMsgs.map (fun m => if m.org = o then
        { m with src := (m.src.filter (fun s => s.1 != off)) ++ [(off, b)] } else m) })
    | .own => d
    | .poisoned _ => sourceFailed d n msg ST_DATA_POISON
    | .fail _ => sourceFailed d n msg ST_BUS_ERROR
    | .domainDown => sourceFailed d n msg ST_BUS_ERROR

end Sys2Proof.Machine
end

