-- ==== Sys2Proof/Machine/Receive.lean ====
section
/-!
DEFINITION. The receiving side of the transport: the checks of R162, sequence and duplicates (R183), execution of requests
(R164 to R168, R237, R261), completion of PSNs (R181, R182), answers that arrive (R187), held messages and tag failures
(R415 to R420), RESETTING answers (R186).
-/

namespace Sys2Proof.Machine

/-! ## A packet as the checks see it -/

/-- What the headers of a packet say. Operation codes: 0x10 to 0x15 requests as in R80; 0x20 ACK, 0x21 ATOMIC_ACK, 0x22
READ_RESP, 0x23 NAK_SEQ, 0x24 BUSY, 0x25 RESETTING, 0x26 NAK_FATAL, 0x27 ABORT, 0x28 an answer in an AETH, 0x29 CNP, 0x2F an
opcode that R266 does not support. -/
structure Hdr where
  op : Nat
  psn : Nat
  /-- First and last packet of its message, as a RoCEv2-compatible opcode says; a native one is first by its place. -/
  first : Option Bool
  last : Bool
  imm : Bool
  ackreq : Bool
  marked : Bool
  solicit : Bool
  flags : Nat
  deriving DecidableEq, Repr

def nativeHdr (p : Packet) : Hdr :=
  let op := if p.typ ≤ 6 then p.typ + 0x0F else if p.typ = 8 then 0x22 else if p.typ = 9 then 0x20 else if p.typ = 0xA then 0x21
    else if p.typ = 0xB then 0x23 else if p.typ = 0xC then 0x24 else if p.typ = 0xD then 0x25 else if p.typ = 0xE then 0x26 else 0x27
  ⟨op, p.psn, none, p.last, p.imm, p.ackreq, p.ecn = 3, false, 0⟩

/-- The opcodes of R261 and R262. -/
def roceHdr (r : Roce) : Hdr :=
  let mk (op : Nat) (first last imm : Bool) : Hdr := ⟨op, r.psn, some first, last, imm, r.ackreq, r.ecn = 3, r.se, r.flags⟩
  match r.op with
  | 0x00 => mk 0x10 true false false | 0x01 => mk 0x10 false false false | 0x02 => mk 0x10 false true false
  | 0x03 => mk 0x10 false true true | 0x04 => mk 0x10 true true false | 0x05 => mk 0x10 true true true
  | 0x06 => mk 0x11 true false false | 0x07 => mk 0x11 false false false | 0x08 => mk 0x11 false true false
  | 0x09 => mk 0x12 false true true | 0x0A => mk 0x11 true true false | 0x0B => mk 0x12 true true true
  | 0x0C => mk 0x13 true true false
  | 0x0D => mk 0x22 true false false | 0x0E => mk 0x22 false false false | 0x0F => mk 0x22 false true false
  | 0x10 => mk 0x22 true true false
  | 0x11 => mk 0x28 true true false | 0x12 => mk 0x21 true true false
  | 0x13 => mk 0x15 true true false | 0x14 => mk 0x14 true true false
  | 0x81 => mk 0x29 true true false
  | _ => mk 0x2F true true false

def pktHdr : Pkt → Hdr
  | .native p => nativeHdr p
  | .roce r => roceHdr r

def pktConn : Pkt → Nat
  | .native p => p.conn
  | .roce r => r.destQp

/-- Bytes of a packet in the miss buffer (R174). -/
def pktBytes : Pkt → Nat
  | .native p => p.wireLen
  | .roce r => r.wire

def isRequest (op : Nat) : Bool := op < 0x20 || op == 0x2F

/-- The payload of a packet, and its envelope. -/
def pktBody : Pkt → Option Envelope × List Byte
  | .native p => (p.prot, p.payload)
  | .roce r => (r.prot, r.body)

/-- The bytes a receiver without ENC sees as payload. -/
def pktPlain : Pkt → List Byte
  | .native p => p.wireBytes
  | .roce r => match r.prot with
    | none => r.body
    | some e => beBytes 1 e.epoch ++ beBytes 7 e.txc ++ r.body ++ beBytes 16 e.tag

def pktAad : Pkt → List Byte
  | .native p => nativeAad p
  | .roce r => Roce.bth r

/-- What the headers and extension of a request's payload say (R237, R261). -/
structure Req where
  offset : Nat := 0
  rkey : Nat := 0
  window : Nat := 0
  flags : Nat := 0
  length : Nat := 0
  arg1 : Nat := 0
  arg2 : Nat := 0
  imm : Option Nat := none
  data : List Byte := []
  deriving DecidableEq, Repr

/-- Little-endian field of a byte list. -/
def fieldLE (l : List Byte) (off n : Nat) : Nat := leNat ((l.drop off).take n)

def nativeReq (h : Hdr) (first : Bool) (l : List Byte) : Req :=
  let imm := if h.imm then some (fieldLE l 0 8) else none
  let l := if h.imm then l.drop 8 else l
  if !first then { imm := imm, data := l }
  else if h.op = 0x10 then { imm := imm, flags := fieldLE l 0 1, data := l.drop 4 }
  else
    let b : Req := { offset := fieldLE l 0 8, rkey := fieldLE l 8 4, window := fieldLE l 12 3, flags := fieldLE l 15 1, imm := imm }
    if h.op = 0x13 then { b with length := fieldLE l 16 4 }
    else if h.op = 0x14 then { b with arg1 := fieldLE l 16 8 }
    else if h.op = 0x15 then { b with arg1 := fieldLE l 16 8, arg2 := fieldLE l 24 8 }
    else { b with data := l.drop 16 }

def roceReq (h : Hdr) (first : Bool) (l : List Byte) : Req :=
  let fl := h.flags % 8 + b2n h.solicit * 8
  if isAtomic h.op then
    let va := fieldBE l 0 8
    let b : Req := { offset := va % 2 ^ 40, window := va / 2 ^ 40, rkey := fieldBE l 8 4, flags := fl }
    if h.op = 0x14 then { b with arg1 := fieldBE l 12 8 } else { b with arg1 := fieldBE l 20 8, arg2 := fieldBE l 12 8 }
  else
    let reth := h.op != 0x10 && first
    let b : Req := if reth then
        let va := fieldBE l 0 8
        { offset := va % 2 ^ 40, window := va / 2 ^ 40, rkey := fieldBE l 8 4, length := fieldBE l 12 4, flags := fl }
      else { flags := fl }
    let l := if reth then l.drop 16 else l
    if h.op = 0x13 then b
    else if h.imm then { b with imm := some (fieldBE l 0 4), data := l.drop 4 } else { b with data := l }

def pktReq (pkt : Pkt) (h : Hdr) (first : Bool) (l : List Byte) : Req :=
  match pkt with
  | .native _ => nativeReq h first l
  | .roce _ => roceReq h first l

/-! ## Envelopes (R416, R418, R420) -/

inductive Opened where
  | pass (l : List Byte)
  /-- The tag fails; the bytes are what decryption gives. -/
  | fail (l : List Byte)
  | wait
  | unavailable
  /-- An epoch that R420 rejects. -/
  | stale
  deriving DecidableEq, Repr

/-- Opens a packet of a connection. A packet without an envelope on an ENC connection has no tag that passes. -/
def openPkt (d : Ix9) (n dir : Nat) (pkt : Pkt) : Ix9 × Opened :=
  let c := connOf d n
  let tile := homeTile d n
  if !c.enc then (d, .pass (pktPlain pkt))
  else
    match pktBody pkt with
    | (none, l) => (d, .fail l)
    | (some e, l) =>
      if e.epoch != c.re dir && e.epoch != (c.re dir + 1) % 256 then (count d Fld.CIPH_EPOCH_DISCARDS tile, .stale)
      else
        let k : KeyId := ⟨n, dir, e.epoch, false⟩
        match keyState d n k with
        | .wait => (keyFetch d tile k, .wait)
        | .none_ => (count d Fld.CIPH_KEY_MISSES tile, .unavailable)
        | .have v =>
          let d := keyUse d tile k
          let iv := envIv e.epoch e.txc
          let plain := Config.aeadOpen v iv (pktAad pkt) l
          if Config.aeadCheck v iv (pktAad pkt) l e.tag then
            (updConn (count d Fld.CIPH_DEC_PKTS tile) n (fun c => c.setRe dir e.epoch), .pass plain)
          else (d, .fail plain)

/-- TAG_LIMIT; 0 acts as 1 (R428). -/
def tagLimit (d : Ix9) : Nat := max 1 (rget d Fld.CIPH_CFG_TAG_LIMIT)

/-- Counts a tag failure of a connection (R418); says whether the limit is reached. -/
def tagFail (d : Ix9) (n : Nat) : Ix9 × Bool :=
  let c := connOf d n
  let k := (if c.tagFails.2 + 10 ^ 9 < d.el then 0 else c.tagFails.1) + 1
  (updConn (count d Fld.CIPH_TAG_FAIL (homeTile d n)) n (fun c => { c with tagFails := (k, d.el) }), tagLimit d ≤ k)

def tagClear (d : Ix9) (n : Nat) : Ix9 := updConn d n (fun c => { c with tagFails := (0, c.tagFails.2) })

/-! ## Answers of the receiver -/

/-- Sends an ACK carrying C (R181, R182). -/
def sendAck (d : Ix9) (n : Nat) : Ix9 :=
  let c := connOf d n
  updConn (answer d n (.ack c.cpsn c.ceCount)) n (fun c => { c with ceCount := 0, unacked := 0 })

/-- R175, R189: answers BUSY for a PSN, or NAK_FATAL at the limit. -/
def sendBusy (d : Ix9) (n psn hint reason : Nat) : Ix9 :=
  let c := connOf d n
  let k := (match c.busy with | some (p, k) => if p = psn then k else 0 | none => 0) + (if reason = 0 then 0 else 1)
  let lim := rget d Fld.RD_BUSY_LIMIT
  if reason != 0 && lim != 0 && lim ≤ k then responderFail d n psn ST_REMOTE_BUSY reason
  else
    let d := count d Fld.CONN_BUSY_SENT (homeTile d n)
    answer (updConn d n (fun c => { c with busy := some (psn, k) })) n (.busy psn hint reason)

/-- A NAK_SEQ naming RX_EPSN, unless one was sent for it within RTO_BASE / 2 (R183). -/
def sendNakSeq (d : Ix9) (n : Nat) : Ix9 :=
  let c := connOf d n
  let recent := match c.nakAt with
    | some (p, t) => p == c.rxEpsn && decide (d.el < t + rget d Fld.RD_TIMER_RTO_BASE * 500)
    | none => false
  if recent then d
  else
    let d := count d Fld.RD_NAK_SENT (homeTile d n)
    answer (updConn d n (fun c => { c with nakAt := some (c.rxEpsn, d.el) })) n (.nakSeq c.rxEpsn)

/-- An ABORT for a packet of a connection in ERROR, at most once per 100 µs (R149). -/
def abortAnswer (d : Ix9) (n : Nat) : Ix9 :=
  let c := connOf d n
  match c.abortAt with
  | some t => if d.el < t + 100000 then d else answer (updConn d n (fun c => { c with abortAt := some d.el })) n .abort
  | none => answer (updConn d n (fun c => { c with abortAt := some d.el })) n .abort

/-- The CNP a marked packet draws on a RoCEv2-compatible connection (R205, R265). -/
def sendCnp (d : Ix9) (n : Nat) : Ix9 :=
  let c := connOf d n
  let due := match c.cnpAt with
    | some t => decide (t + rget d Fld.PACER_CFG_CNP_INTERVAL * 1000 ≤ d.el)
    | none => true
  if !due then d
  else
    let d := updConn (count d Fld.ETH_CNP_SENT c.netPort) n (fun c => { c with cnpAt := some d.el })
    sendRoce d c 0 ⟨c.netPort, 0, 0, false, 0, 0x81, false, 0, c.peerConn, false, 0, none, List.replicate 16 0, 0⟩ none

/-- A mark on an arriving packet (R181, R205). -/
def noteMark (d : Ix9) (n : Nat) (h : Hdr) : Ix9 :=
  if !h.marked then d
  else if (connOf d n).roce then sendCnp d n
  else updConn d n (fun c => { c with ceCount := min 255 (c.ceCount + 1) })

/-- A packet whose mark has been noted: one that parks after that is not noted again. -/
def unmarked : Pkt → Pkt
  | .native p => .native (if p.ecn = 3 then { p with ecn := 2 } else p)
  | .roce r => .roce (if r.ecn = 3 then { r with ecn := 2 } else r)

/-! ## Completion of PSNs (R181, R182) -/

/-- Does what follows a PSN that is complete (DESIGN CHOICE, log entry 21). -/
def rxAct (d : Ix9) (n : Nat) (p : RxPend) : Ix9 :=
  let d := match p.wrote with
    | some (w, off, len) => { d with c := { d.c with landed := d.c.landed ++ [(w, off, len, n)] } }
    | none => d
  match p.act with
  | .nothing => d
  | .cqe cq tag st cause bytes imm sol op =>
    cqWrite (cqRelease d cq) cq
      { tag := tag, status := st, op := op, cause := cause, immValid := imm.isSome, solicited := sol, remote := true,
        bytes := bytes, result := imm.getD 0, object := n }
  | .atomicAck r => answer d n (.atomicAck p.psn r)

/-- Completes PSNs in order while nothing is lacking, and sends the ACKs that R182 asks for. -/
def rxProgress (fuel : Nat) (d : Ix9) (n : Nat) : Ix9 :=
  match fuel with
  | 0 => d
  | k + 1 =>
    match (connOf d n).rxPend with
    | [] => d
    | p :: r =>
      if p.left != 0 then d
      else
        let d := updConn d n (fun c =>
          { c with rxPend := r, cpsn := psnAdd p.psn p.npsn, unacked := c.unacked + p.npsn, msn := c.msn + b2n p.last })
        let d := rxAct d n p
        let d := if p.ackreq || rget d Fld.RD_ACK_COALESCE ≤ (connOf d n).unacked then sendAck d n else d
        rxProgress k d n

/-- One acknowledgement of an executed packet's writes has come (R44). -/
def rxAcked (d : Ix9) (n psn : Nat) : Ix9 :=
  let d := updConn d n (fun c => { c with rxPend := c.rxPend.map (fun p => if p.psn = psn then { p with left := p.left - 1 } else p) })
  rxProgress 2048 d n

/-- A packet has executed: RX_EPSN and RX_COUNT move (R183), its PSN waits for `left` acknowledgements. -/
def rxAccept (d : Ix9) (n : Nat) (p : RxPend) : Ix9 :=
  updConn d n (fun c =>
    let c := if c.rxPend.isEmpty then { c with cpsn := c.rxEpsn } else c
    { (c.set 0x1C 23 0 (psnAdd c.rxEpsn p.npsn)).set 0x20 10 0 (min 1024 (c.rxCount + p.npsn)) with
      rxPend := c.rxPend ++ [p], busy := none })

/-- The writes of an executed packet on each path, with the acknowledgement its message asks for (R44). -/
def rxNeedAcks (d : Ix9) (n psn : Nat) (paths : List Path) (scope : Nat) (barrier : Bool) : Ix9 :=
  paths.foldl (fun d p => needAck d p (.rx n psn) scope barrier) d

/-! ## Parking (R174, R175) -/

/-- Parks a packet: while its state is filled, its window is walked, or its key is fetched. A packet that does not fit is
answered BUSY (R175); an answer that does not fit is discarded (DEDUCED, log entry 19). -/
def park (d : Ix9) (n : Nat) (pkt : Pkt) (again : Bool) : Ix9 :=
  let tile := homeTile d n
  let own := (parkedOf d n).foldl (fun a p => a + p.bytes) 0
  let b := pktBytes pkt
  let h := pktHdr pkt
  if !again && (2 ^ 21 < missBytes d tile + b || 2 ^ 21 / 2 ^ rget d Fld.CONN_MISS_CFG_SHARE < own + b) then
    if isRequest h.op then sendBusy d n h.psn (fillHint d n) 0 else d
  else { d with c := { d.c with parked := d.c.parked ++ [⟨tile, n, b, pkt⟩] } }

/-! ## Windows (R134, R135) -/

/-- The result of the window checks on a packet's range. -/
inductive WinRes where
  | ok (segs : List Seg)
  | park
  | busy
  | fail (status cause : Nat)
  deriving DecidableEq, Repr

/-- Translates a range page by page; a page of `kept` keeps its translation (R61, R64). `fuel` bounds the pages. -/
def xlateKept (fuel : Nat) (d : Ix9) (isl asid : Nat) (kept : List Seg) (a : Access) (va len : Nat) : XRes :=
  if kept.isEmpty then xlate d isl asid a
  else
    match fuel with
    | 0 => .ok []
    | f + 1 =>
      if len = 0 then .ok []
      else
        let k := min len (4096 - va % 4096)
        let one : XRes := match kept.find? (fun s => s.asid == asid && s.va / s.page == va / s.page) with
          | some s => .ok [{ s with va := va, len := k, phys := { s.phys with addr := s.phys.addr + va - s.va } }]
          | none => xlate d isl asid { a with va := va, len := k }
        match one with
        | .ok l =>
          (match xlateKept f d isl asid kept a (va + k) (len - k) with
           | .ok r => .ok (l ++ r)
           | r => r)
        | r => r

/-- Check 6 of R134 on a range of a window, with the walk or the fault record it leads to. While a page request is
outstanding for a page of it the answer is "receiver busy" (R135). -/
def winXlate (d : Ix9) (n w : Nat) (win : Win) (kept : List Seg) (offset len : Nat) (write atomic : Bool) : Ix9 × WinRes :=
  let isl := xisle (homeTile d n)
  match xlateKept (len / 4096 + 2) d isl win.asid kept { va := win.base + offset, len := len, write := write, atomic := atomic }
      (win.base + offset) len with
  | .ok s => (d, .ok s)
  | .miss p =>
    let d := startWalk d isl win.asid p
    (d, if d.x.pri.contains (isl, win.asid, p) then .busy else .park)
  | .unit _ => (d, .fail ST_REMOTE_OP_ERROR 5)
  | .fault f =>
    let d := { d with h := { d.h with faulted := d.h.faulted ++ [(w, f.cause, f.va)] } }
    (recordFault d win.owner { fault := f, write := write, atomic := atomic, remote := true, asid := win.asid, object := w },
      .fail ST_REMOTE_ACCESS 6)

/-- All checks of R134 on a message's first packet. -/
def winFirst (d : Ix9) (n : Nat) (r : Req) (need len : Nat) : Ix9 × WinRes :=
  let c := connOf d n
  match winCheck d r.window r.rkey c.pd need r.offset len with
  | some cause => (d, .fail ST_REMOTE_ACCESS cause)
  | none => winXlate d n r.window (winOf d r.window) [] r.offset len (need = 1) (need = 2)

/-- Checks 5 to 7 of R134 on a later packet: bounds, translation, drains. -/
def winLater (d : Ix9) (n : Nat) (msg : RxMsg) (offset len : Nat) : Ix9 × WinRes :=
  if 4096 * msg.win.pages < offset + len then (d, .fail ST_REMOTE_ACCESS 5)
  else
    match winXlate d n msg.window msg.win msg.kept offset len true false with
    | (d, .ok s) => (d, if msg.win.begun < (winOf d msg.window).drained then .fail ST_REMOTE_ACCESS 7 else .ok s)
    | r => r

/-! ## Receive queues (R165, R166) -/

/-- The head of a receive queue. -/
inductive RqHead where
  | entry (e : Entry)
  | empty
  deriving DecidableEq, Repr

def rqHead (s : Sq) : RqHead :=
  match s.entries with
  | e :: _ => if e.stage = .translating || s.err.isSome then .empty else .entry e
  | [] => .empty

/-- R166: the entry is no 2-slot OP_SEND without INLINE, or failed its checks (DEDUCED, log entry 17). -/
def rqMalformed (e : Entry) : Bool :=
  e.op != 0x10 || e.len != 2 || flag e.opflags 0
    || (e.status != 0 && e.status != ST_XLATE_FAULT && e.status != ST_XLATE_PERM && e.status != ST_BUS_ERROR)

def popRq (d : Ix9) (k : Nat) : Ix9 := updSq d k (fun s => { s with entries := s.entries.drop 1 })

/-- What the first packet of a send finds in its receive queue. -/
inductive RqRes where
  /-- A buffer: completion queue, tag, length, pieces; a completion slot is reserved. -/
  | buf (cq tag len : Nat) (segs : List Seg)
  | busy (reason : Nat)
  | park
  | fault (cq tag status cause va : Nat)
  deriving DecidableEq, Repr

/-- Takes the head receive entry (phase 1: translated for writing), skipping malformed ones with a completion each (R96, R166), translating again what is
older than its mapping (R60). `fuel` bounds the entries skipped (DEDUCED, log entry 17) (DEDUCED, log entry 55). -/
def rqTake (fuel : Nat) (d : Ix9) (n k : Nat) : Ix9 × RqRes :=
  match fuel with
  | 0 => (d, .busy 1)
  | f + 1 =>
    match sqAt d k with
    | none => (d, .busy 1)
    | some s =>
      match rqHead s with
      | .empty => (d, .busy 1)
      | .entry e =>
        if !cqFree d s.cq then (d, .busy 2)
        else if rqMalformed e then
          let d := cqReserve d s.cq
          if !cqFree d s.cq then (cqRelease d s.cq, .busy 2)
          else
            let d := cqRelease d s.cq
            let d := cqWrite d s.cq { tag := e.tag, status := ST_BAD_ENTRY, op := 0x10, cause := 0x59, remote := true, object := n }
            rqTake f (popRq d k) n k
        else if e.status != 0 then
          (popRq d k, .fault s.cq e.tag ST_XLATE_FAULT e.cause e.result)
        else
          let segs := e.segs
          if e.phase != 1 || segs.any (fun (g : Seg) => older (ctxOf d g.asid) g.xgen g.va g.len) then
            let va := (e.localAt 1).addr
            match (match (e.bufs.head?.bind (·.list)) with
                   | some _ => (segs.foldl (fun (acc : XRes) (g : Seg) => match acc with
                       | .ok l => (match xlate d (xisle s.tile) s.asid { va := g.va, len := g.len, write := true } with
                                   | .ok l2 => .ok (l ++ l2)
                                   | x => x)
                       | x => x) (.ok []))
                   | none => xlate d (xisle s.tile) s.asid { va := va, len := segsLen segs, write := true }) with
            | .ok l => (cqReserve (popRq d k) s.cq, .buf s.cq e.tag (segsLen l) l)
            | .miss p => (startWalk d (xisle s.tile) s.asid p, .park)
            | .unit st => (popRq d k, .fault s.cq e.tag st 0 0)
            | .fault x =>
              let d := recordFault d s.func { fault := x, write := true, asid := s.asid, sqId := sqIdOf k, tag := e.tag,
                                              slot := e.slot % 2 ^ 32, object := e.object }
              (popRq d k, .fault s.cq e.tag ST_XLATE_FAULT x.cause x.va)
          else (cqReserve (popRq d k) s.cq, .buf s.cq e.tag (segsLen segs) segs)

/-! ## Execution of requests -/

/-- Space of a tile's held buffer (R417). -/
def heldRoom (d : Ix9) (tile n : Nat) : Bool := rget d Fld.CIPH_HELD_BYTES tile + n ≤ 2 ^ 22

def heldAdd (d : Ix9) (tile n : Nat) : Ix9 := rset d Fld.CIPH_HELD_BYTES tile (rget d Fld.CIPH_HELD_BYTES tile + n)
def heldSub (d : Ix9) (tile n : Nat) : Ix9 := rset d Fld.CIPH_HELD_BYTES tile (rget d Fld.CIPH_HELD_BYTES tile - n)

/-- Writes the data of a packet of a send or write over its pieces; the packet is executed (R32, R166, R167). -/
def landData (d : Ix9) (n : Nat) (h : Hdr) (msg : RxMsg) (segs : List Seg) (data : List Byte) (p0 : RxPend) : Ix9 :=
  match writeSegs d segs data with
  | (d, true) => responderFail d n h.psn ST_REMOTE_OP_ERROR 4
  | (d, false) =>
    let paths := pathsOf d (slice 0 data.length segs)
    let d := rxAccept d n { p0 with left := paths.length, segs := segs }
    let d := rxNeedAcks d n p0.psn paths msg.scope msg.barrier
    rxProgress 2048 d n

/-- The message of a held class keeps the plaintext until its LAST packet has passed, then all of it is written (R417). -/
def holdData (d : Ix9) (n : Nat) (h : Hdr) (msg : RxMsg) (segs : List Seg) (data : List Byte) (p0 : RxPend) : Ix9 :=
  let held := msg.held.getD [] ++ [(msg.moved, data)]
  if !h.last then
    rxAccept (updConn d n (fun c => { c with rxMsg := some { msg with held := some held, moved := msg.moved + data.length } })) n
      { p0 with left := 1, heldBack := true, act := .nothing, wrote := none }
  else
    let d := heldSub d (homeTile d n) 65536
    let all := held.flatMap (·.2)
    match writeSegs d segs all with
    | (d, true) => responderFail d n h.psn ST_REMOTE_OP_ERROR 4
    | (d, false) =>
      let paths := pathsOf d (slice 0 all.length segs)
      let d := updConn d n (fun c => { c with rxMsg := none })
      let back := (connOf d n).rxPend.filter (·.heldBack)
      let d := rxAccept d n { p0 with left := paths.length, segs := segs }
      let first := match back with | b :: _ => b.psn | [] => p0.psn
      let total := psnSub (psnAdd p0.psn p0.npsn) first
      let d := updConn d n (fun c => { c with rxPend := (c.rxPend.filter (fun p => !p.heldBack)).map (fun p =>
        if p.psn = p0.psn then { p with psn := first, npsn := total } else p) })
      let d := rxNeedAcks d n first paths msg.scope msg.barrier
      rxProgress 2048 d n

/-- A packet of OP_SEND whose tag passes: checks 7 and 9 of R162 passed, `msg` is its message (DEDUCED, log entry 54). -/
def execSendData (d : Ix9) (n : Nat) (h : Hdr) (r : Req) (msg : RxMsg) (held : Bool) : Ix9 :=
  match msg.rq with
  | none => d
  | some (cq, tag, len) =>
    if len < msg.moved + r.data.length then
      -- the first `len` bytes are written, those that were held included
      let d := match msg.held with
        | some l => (writeSegs (heldSub d (homeTile d n) 65536) (slice 0 len msg.buf) ((l.flatMap (·.2) ++ r.data).take len)).1
        | none => (writeSegs d (slice msg.moved (len - msg.moved) msg.buf) (r.data.take (len - msg.moved))).1
      let d := updConn d n (fun c => { c with rxMsg := none })
      let d := cqWrite (cqRelease d cq) cq
        { tag := tag, status := ST_BAD_ENTRY, op := 0x10, cause := 0x58, remote := true, solicited := msg.solicit, bytes := len, object := n }
      responderFail d n h.psn ST_REMOTE_OP_ERROR 2
    else
      let act := if h.last then RxAct.cqe cq tag ST_OK 0 (msg.moved + r.data.length) r.imm msg.solicit 0x10 else .nothing
      let p0 : RxPend := { psn := h.psn, npsn := 1, left := 0, ackreq := h.ackreq, act := act, last := h.last }
      if held then holdData d n h msg (slice 0 (msg.moved + r.data.length) msg.buf) r.data p0
      else
        let d := updConn d n (fun c => { c with rxMsg := if h.last then none else some { msg with moved := msg.moved + r.data.length } })
        landData d n h msg (slice msg.moved r.data.length msg.buf) r.data p0

/-- A packet of OP_WRITE or OP_WRITE_IMM whose tag passes; `segs` are its pieces, of the whole message in the held class. -/
def execWriteData (d : Ix9) (n : Nat) (h : Hdr) (r : Req) (msg : RxMsg) (segs : List Seg) (held : Bool) : Ix9 :=
  let total := msg.moved + r.data.length
  let act := match h.op, h.last, msg.rq with
    | 0x12, true, some (cq, _, _) => RxAct.cqe cq 0 ST_OK 0 total (some (r.imm.getD 0)) true 0x12
    | _, _, _ => .nothing
  let p0 : RxPend := { psn := h.psn, npsn := 1, left := 0, ackreq := h.ackreq, act := act, last := h.last,
                       wrote := if h.last then some (msg.window, msg.offset, total) else none, win := some (msg.window, msg.rkey) }
  if held then holdData d n h msg segs r.data p0
  else
    let d := updConn d n (fun c => { c with rxMsg := if h.last then none else some { msg with moved := total } })
    landData d n h msg segs r.data p0

/-- A read or an atomic whose checks have passed: its PSNs are executed; its memory access follows once the writes of
earlier packets are visible (R33). -/
def execReadReq (d : Ix9) (n : Nat) (h : Hdr) (r : Req) (segs : List Seg) : Ix9 :=
  let c := connOf d n
  let npsn := if h.op = 0x13 then max 1 (ceilDiv r.length c.mtu) else 1
  let rd : RxRead := { conn := n, psn := h.psn, segs := segs, win := some (r.window, r.rkey), scope := r.flags % 4,
                       barrier := flag r.flags 2, op := h.op, len := if h.op = 0x13 then r.length else 8,
                       arg1 := r.arg1, arg2 := r.arg2 }
  let d := rxAccept d n { psn := h.psn, npsn := npsn, left := 1, ackreq := h.ackreq, act := .nothing, last := true, win := rd.win, segs := segs }
  { d with c := { d.c with rxReads := d.c.rxReads ++ [rd] } }

/-- R418 at the limit, at the receiver. -/
def receiverTagLimit (d : Ix9) (n : Nat) (h : Hdr) (r : Req) (msg : RxMsg) (held : Bool) : Ix9 :=
  if held then responderFail d n h.psn ST_AUTH_FAIL 0
  else
    let c := connOf d n
    let off := if h.op = 0x10 then msg.moved else msg.offset + msg.moved
    let len := min 8192 r.data.length
    let tile := homeTile d n
    let d := rset (rset (rset d Fld.CIPH_UNTRUSTED_CONN tile n) Fld.CIPH_UNTRUSTED_OFF tile (off % 2 ^ 40)) Fld.CIPH_UNTRUSTED_LEN tile len
    let (cq, tag, slot) := match msg.rq with
      | some (cq, tag, _) => (some cq, tag, true)
      | none => if c.rq = 0xFFFF then (none, 0, false) else ((sqAt d c.rq).map Sq.cq, 0, false)
    let d := match cq with
      | none => d
      | some q =>
        if slot || cqFree d q then
          let unbind (c : Conn) : Conn := { c with rxMsg := c.rxMsg.map (fun m => { m with rq := none }) }
          let d := if slot then updConn (cqRelease d q) n unbind else d
          cqWrite d q { tag := tag, status := ST_AUTH_UNTRUSTED, op := if h.op = 0x10 then 0x10 else 0x12, remote := true,
                        result := off % 2 ^ 40 + len * 2 ^ 40, object := n }
        else d
    responderFail d n h.psn ST_AUTH_UNTRUSTED 0

/-- What a tag that fails does to a request (R416 to R418): in the open class its bytes have been written. The state of the
connection, its receive queue included, stays as it was (R163); at the limit the message goes with what it has taken, `taken`. -/
def requestTagFail (d taken : Ix9) (n : Nat) (h : Hdr) (r : Req) (msg : RxMsg) (segs : List Seg) (held : Bool) : Ix9 :=
  let d := if (tagFail d n).2 then taken else d
  let d := if held || h.op = 0x13 || isAtomic h.op then d else (writeSegs d segs r.data).1
  match tagFail d n with
  | (d, true) => receiverTagLimit d n h r msg (held || h.op = 0x13 || isAtomic h.op)
  | (d, false) => d

/-- Checks 7 to 10 of R162 on a packet with the expected PSN, and its execution. `op` 0x2F fails as an invalid request
(R266), and so does a packet that does not continue the message in progress (DESIGN CHOICE, log entry 21). -/
def execRequest (d : Ix9) (n : Nat) (pkt : Pkt) (h : Hdr) (again : Bool) : Ix9 :=
  let c := connOf d n
  match openPkt d n 1 pkt with
  | (d, .stale) => d
  | (d, .wait) => park d n pkt again
  | (d, .unavailable) => sendBusy d n h.psn 1000 0
  | (d, opened) =>
    let passed := match opened with | .pass _ => true | _ => false
    let bytes := match opened with | .pass l => l | .fail l => l | _ => []
    let first := c.rxMsg.isNone
    let r := pktReq pkt h first bytes
    -- a failure of checks 7 and 8 counts only once the tag has passed (R163)
    let fail (d : Ix9) (st cause : Nat) : Ix9 :=
      if passed then responderFail (tagClear d n) n h.psn st cause else (match tagFail d n with
        | (d, true) => responderFail d n h.psn ST_AUTH_FAIL 0
        | (d, false) => d)
    let wrong := h.op = 0x2F
      || (match c.rxMsg with
          | some m => !(m.op = h.op || (m.op = 0x11 && h.op = 0x12 && c.roce)) || h.first = some true
          | none => h.first = some false)
      || (isAtomic h.op && r.offset % 8 != 0)
    if wrong then fail d ST_REMOTE_OP_ERROR 6
    else if c.roce && h.op = 0x11 && first && r.window = 0xFFFFFF then
      -- a control message of a MODE 1 connection goes to the collective engine (R297)
      if !passed then requestTagFail d d n h r { op := h.op } [] false
      else
        let k : Packet := ⟨0, 0, 0, 0, 0x11, 0, 0, n, 0, r.data.length, false, true, false, false, none, r.data, 0, false, 0, 0, 0⟩
        let d := arriveHeat d (homeTile d n) k
        rxProgress 2048 (rxAccept (tagClear d n) n
          { psn := h.psn, npsn := 1, left := 0, ackreq := h.ackreq, act := .nothing, last := true }) n
    else if h.op = 0x13 || isAtomic h.op then
      let len := if h.op = 0x13 then r.length else 8
      match winFirst d n r (if h.op = 0x13 then 0 else 2) len with
      | (d, .fail st cause) => fail d st cause
      | (d, .park) => park d n pkt again
      | (d, .busy) => sendBusy d n h.psn c.rnrHint 0
      | (d, .ok segs) =>
        let full := isAtomic h.op && c.enc && !heldRoom d (homeTile d n) 8
        if full then sendBusy (count d Fld.CIPH_HELD_BUSY (homeTile d n)) n h.psn 1 0
        else if !passed then requestTagFail d d n h r { op := h.op } segs true
        else execReadReq (tagClear d n) n h r segs
    else
      let rqs := sqAt d c.rq
      -- check 7; a WRITE of a RoCEv2-compatible message becomes OP_WRITE_IMM with its last packet
      if (h.op = 0x10 || h.op = 0x12) && (c.rq = 0xFFFF || rqs.isNone) then fail d ST_REMOTE_OP_ERROR 1
      else
        let m0 : RxMsg := match c.rxMsg with
          | some m => { m with op := h.op }
          | none => { op := h.op, window := r.window, offset := r.offset, scope := r.flags % 4, barrier := flag r.flags 2,
                      solicit := flag r.flags 3, win := winOf d r.window, rkey := r.rkey }
        let held := c.enc && (if h.op = 0x10 then c.heldSends else m0.win.held)
        -- check 8
        let (d, wr) : Ix9 × WinRes :=
          if h.op = 0x10 then (d, if m0.stale then .fail ST_REMOTE_ACCESS 7 else .ok [])
          else if held then
            (if 65536 < m0.moved + r.data.length then (d, .fail ST_REMOTE_ACCESS 8)
             else if first then winFirst d n r 1 r.data.length
             else
               match winLater d n m0 (m0.offset + m0.moved) r.data.length with
               | (d, .ok _) => winXlate d n m0.window m0.win m0.kept m0.offset (m0.moved + r.data.length) true false
               | x => x)
          else if first then winFirst d n r 1 r.data.length
          else winLater d n m0 (m0.offset + m0.moved) r.data.length
        match wr with
        | .fail st cause => fail d st cause
        | .park => park d n pkt again
        | .busy => sendBusy d n h.psn c.rnrHint 0
        | .ok segs =>
          let reserve := held && first
          if reserve && !heldRoom d (homeTile d n) 65536 then sendBusy (count d Fld.CIPH_HELD_BUSY (homeTile d n)) n h.psn 1 0
          else
            -- check 9
            let base := d
            let needSlot := (h.op = 0x10 || h.op = 0x12) && m0.rq.isNone
            let (d, rq) : Ix9 × Option RqRes :=
              if !needSlot then (d, none)
              else if h.op = 0x10 then (match rqTake 64 d n c.rq with | (d, x) => (d, some x))
              else
                match rqs with
                | some s => if cqFree d s.cq then (cqReserve d s.cq, some (.buf s.cq 0 0 [])) else (d, some (.busy 2))
                | none => (d, some (.busy 2))
            match rq with
            | some (.busy reason) => sendBusy d n h.psn c.rnrHint reason
            | some .park => park d n pkt again
            | some (.fault cq tag st cause va) =>
              if !passed then fail base ST_REMOTE_OP_ERROR 3
              else
                let d := cqWrite d cq { tag := tag, status := st, op := 0x10, cause := cause, remote := true, result := va, object := n }
                fail d ST_REMOTE_OP_ERROR 3
            | x =>
              let m1 := match x with
                | some (.buf cq tag len segs) => { m0 with rq := some (cq, tag, len), buf := segs }
                | _ => m0
              let d := if reserve then heldAdd d (homeTile d n) 65536 else d
              let m1 := if reserve then { m1 with held := some [] } else m1
              let m1 := if h.op = 0x10 then m1 else { m1 with kept := m1.kept ++ segs }
              let d := updConn d n (fun c => { c with rxMsg := some m1 })
              if !passed then
                requestTagFail base d n h r m1 (if h.op = 0x10 then slice m1.moved r.data.length m1.buf else segs) held
              else if h.op = 0x10 then execSendData (tagClear d n) n h r m1 held
              else execWriteData (tagClear d n) n h r m1 segs held

/-- A duplicate read request runs again (R164, R183): its responses, no PSN. -/
def execReadAgain (d : Ix9) (n : Nat) (pkt : Pkt) (h : Hdr) (again : Bool) : Ix9 :=
  match openPkt d n 1 pkt with
  | (d, .pass l) =>
    let r := pktReq pkt h true l
    (match winFirst d n r 0 r.length with
     | (d, .ok segs) =>
       { d with c := { d.c with rxReads := d.c.rxReads ++ [{ conn := n, psn := h.psn, segs := segs, win := some (r.window, r.rkey), op := 0x13, len := r.length, dup := true }] } }
     | (d, .park) => park d n pkt again
     | (d, .busy) => sendBusy d n h.psn (connOf d n).rnrHint 0
     | (d, .fail st cause) => responderFail d n h.psn st cause)
  | (d, .fail _) => (match tagFail d n with
      | (d, true) => responderFail d n h.psn ST_AUTH_FAIL 0
      | (d, false) => d)
  | (d, .wait) => park d n pkt again
  | (d, .unavailable) => sendBusy d n h.psn 1000 0
  | (d, .stale) => d

/-- The epoch of a packet is one that R420 rejects. -/
def staleEpoch (c : Conn) (dir : Nat) (pkt : Pkt) : Bool :=
  c.enc && (match (pktBody pkt).1 with
    | some e => e.epoch != c.re dir && e.epoch != (c.re dir + 1) % 256
    | none => false)

/-- The packet comes behind a read or an atomic whose memory access is still out and which it may not overtake (R32): a read
waits for an atomic, anything else for both. Where it waits is the model's choice (DEDUCED, log entry 31). -/
def behindRead (d : Ix9) (n op : Nat) : Bool :=
  d.c.rxReads.any (fun r => r.conn == n && !r.dup && (op != 0x13 || r.op != 0x13))

/-- Check 6 of R162 (R183), and what follows it (DEDUCED, log entry 31). -/
def rxSequence (d : Ix9) (n : Nat) (pkt : Pkt) (h : Hdr) (again : Bool) : Ix9 :=
  let c := connOf d n
  let tile := homeTile d n
  let ahead := psnSub h.psn c.rxEpsn
  if staleEpoch c 1 pkt then count d Fld.CIPH_EPOCH_DISCARDS tile
  else if ahead = 0 then (if behindRead d n h.op then park d n pkt again else execRequest d n pkt h again)
  else if ahead < 2 ^ 23 then
    let d := count d Fld.RD_AHEAD tile
    if ahead < 1024 then sendNakSeq d n else d
  else if c.rxCount < 2 ^ 24 - ahead then count d Fld.RD_STALE tile
  else
    let d := count d Fld.RD_DUP tile
    if h.op = 0x13 then execReadAgain d n pkt h again
    else if c.rxPend.isEmpty || psnSub c.cpsn h.psn < 2 ^ 23 && c.cpsn != h.psn then
      if isAtomic h.op then answer d n (.atomicAck h.psn (num c.alog (h.psn % 16)))
      else
        let d := if c.rxPend.isEmpty then updConn d n (fun c => { c with cpsn := c.rxEpsn }) else d
        sendAck d n
    else d

/-! ## Answers that arrive -/

/-- What an answer says (R238, R263). -/
inductive AnsView where
  | ack (psn ce : Nat)
  | atomic (psn result : Nat)
  | resp (psn : Nat) (data : List Byte)
  | nakSeq (psn : Nat)
  | busy (psn hint : Nat)
  | resetting (psn : Nat)
  | fatal (psn status cause : Nat)
  | abort
  deriving DecidableEq, Repr

/-- Decodes an answer from its headers and plaintext (R238, R262, R263). -/
def ansView (pkt : Pkt) (h : Hdr) (l : List Byte) : AnsView :=
  match pkt with
  | .native _ =>
    if h.op = 0x20 then .ack h.psn (fieldLE l 0 1)
    else if h.op = 0x21 then .atomic h.psn (fieldLE l 0 8)
    else if h.op = 0x22 then .resp h.psn l
    else if h.op = 0x23 then .nakSeq h.psn
    else if h.op = 0x24 then .busy h.psn (fieldLE l 0 2)
    else if h.op = 0x25 then .resetting h.psn
    else if h.op = 0x26 then .fatal h.psn (fieldLE l 0 1) (fieldLE l 1 1)
    else .abort
  | .roce _ =>
    if h.op = 0x22 then .resp h.psn (if h.first = some true || h.last then l.drop 4 else l)
    else if h.op = 0x21 then .atomic h.psn (fieldBE l 4 8)
    else
      let s := fieldBE l 0 1
      let msn := fieldBE l 1 3
      if s < 0x20 then .ack (psnAdd h.psn 1) 0
      else if s < 0x40 then .busy h.psn (rnrTime (s - 0x20))
      else if s = 0x60 then .nakSeq h.psn
      else
        let st := msn / 256 % 256
        let known := msn / 65536 = 0xF0 && (st = 0x20 || st = 0x21 || st = 0x23 || st = 0x25)
        if (s = 0x61 || s = 0x62 || s = 0x63) && known then
          (if st = 0x23 && msn % 256 = 4 then .abort else .fatal h.psn st (msn % 256))
        else if s = 0x61 then .fatal h.psn ST_REMOTE_OP_ERROR 0x10
        else if s = 0x62 then .fatal h.psn ST_REMOTE_ACCESS 0
        else if s = 0x63 then .fatal h.psn ST_REMOTE_OP_ERROR 0x11
        else .fatal h.psn ST_REMOTE_OP_ERROR 0x12

/-- R418 at the limit, at the requester: the read's entry or the causing entry ends. -/
def requesterTagLimit (d : Ix9) (n : Nat) (h : Hdr) : Ix9 :=
  let c := connOf d n
  let msg := match c.txOut.find? (fun t => psnSub h.psn t.psn < t.npsn) with
    | some t => c.txMsgs.find? (fun m => m.org == t.org)
    | none => oldestMsg c
  match msg with
  | some m =>
    if h.op = 0x22 then enterError d n 3 (some (m, ST_AUTH_UNTRUSTED, 0, m.got % 2 ^ 40 + min 8192 (min c.mtu (m.total - m.got)) * 2 ^ 40)) true
    else enterError d n 3 (some (m, ST_AUTH_FAIL, 0, 0)) true
  | none => enterError d n 3 none true

/-- Acts on an answer (R187). -/
def actAnswer (d : Ix9) (n : Nat) (v : AnsView) : Ix9 :=
  match v with
  | .ack p ce => onAck d n p ce
  | .atomic p r => onAtomicAck d n p r
  | .resp p data => onReadResp d n p data
  | .nakSeq p => onNakSeq d n p
  | .busy p _ => onBusy d n p
  | .resetting p => onResetting d n p
  | .fatal p st cause => onNakFatal d n p st cause
  | .abort => onAbort d n

/-- An answer that has passed checks 1 to 5: its tag is checked with ENC set, RESETTING apart (R163, R191). -/
def rxAnswer (d : Ix9) (n : Nat) (pkt : Pkt) (h : Hdr) (again : Bool) : Ix9 :=
  let c := connOf d n
  if h.op = 0x25 then actAnswer d n (.resetting h.psn)
  else if h.op = 0x29 then (if c.roce then pacerNotify (count d Fld.ETH_CNP_RCVD c.netPort) n else d)
  else
    let dir := if h.op = 0x22 then 1 else 2
    match openPkt d n dir pkt with
    | (d, .pass l) => actAnswer (if c.enc then tagClear d n else d) n (ansView pkt h l)
    | (d, .fail l) =>
      let d := if h.op = 0x22 then
          (match ansView pkt h l, c.txOut.find? (fun t => t.op == 0x13 && (readLacks c t).isSome) with
           | .resp p data, some t =>
             if readLacks c t = some p then
               (match c.txMsgs.find? (fun m => m.org == t.org) with
                | some m => (writeSegs d (slice m.got data.length m.buf) data).1
                | none => d)
             else d
           | _, _ => d)
        else d
      (match tagFail d n with
       | (d, true) => requesterTagLimit d n h
       | (d, false) => d)
    | (d, .wait) => park d n pkt again
    | (d, .unavailable) => d
    | (d, .stale) => d

/-! ## The checks of R162 in order -/

/-- Check 4: source endpoint and connection, or source address with its IP version (R264). -/
def peerMatches (c : Conn) : Pkt → Bool
  | .native p => !c.roce && p.src == c.peerEp && p.srcConn == c.peerConn
  | .roce r => c.roce && r.ipv6 == (c.get 0x40 16 16 == 1) && r.srcIp == (if c.get 0x40 16 16 = 1 then c.peerIp else c.peerIp % 2 ^ 32)

/-- A request packet that arrives after a busy answer for another PSN that has not been accepted yet (R175) (DEDUCED, log entry 19). -/
def behindBusy (c : Conn) (h : Hdr) : Bool := isRequest h.op && c.busy.any (fun b => b.1 != h.psn)

/-- Discards a packet behind a busy answer (R175): its mark counts all the same (R181). -/
def discardBehind (d : Ix9) (n : Nat) (pkt : Pkt) : Ix9 :=
  count (if peerMatches (connOf d n) pkt then noteMark d n (pktHdr pkt) else d) Fld.CONN_BUSY_DISCARDS (homeTile d n)

/-- Checks 3 to 10 on a packet whose state is at hand. `again`: it was parked. -/
def rxChecked (d : Ix9) (n : Nat) (pkt : Pkt) (again : Bool) : Ix9 :=
  let c := connOf d n
  let h := pktHdr pkt
  let tile := homeTile d n
  if c.discarded || !(c.state = csREADY_RX || c.state = csREADY || c.state = csDRAIN || c.state = csERROR) then
    count d Fld.CONN_DEAD_DISCARDS tile
  else if !peerMatches c pkt then count d Fld.CONN_PEER_MISMATCH tile
  else if h.op = 0x29 then rxAnswer d n pkt h again
  else if c.state = csERROR then abortAnswer d n
  else if isRequest h.op && !again && behindBusy c h then discardBehind d n pkt
  else
    -- a packet that parks after this is not noted again
    let d := noteMark d n h
    if isRequest h.op then rxSequence d n (unmarked pkt) h again else rxAnswer d n (unmarked pkt) h again

/-- Check 2: the state is in the cache, or the number has none; else the packet parks and a fill starts (R162, R174). A
packet of a connection that has packets parked goes behind them. -/
def rxLookup (d : Ix9) (n : Nat) (pkt : Pkt) : Ix9 :=
  if !holdsState d n then rxChecked d n pkt false
  else if cachedConn d n then
    let d := count (touch d n) Fld.CONN_HITS (homeTile d n)
    if (parkedOf d n).isEmpty then rxChecked d n pkt false
    else if behindBusy (connOf d n) (pktHdr pkt) then discardBehind d n pkt
    else park d n pkt false
  else if behindBusy (connOf d n) (pktHdr pkt) then discardBehind d n pkt
  else startFill (park d n pkt false) n

/-- R186: a packet for a connection whose XPORT island is not ready. -/
def rxResetting (d : Ix9) : Pkt → Ix9
  | .roce _ => count d Fld.RD_RESET_DISCARDS
  | .native p =>
    if !(1 ≤ p.typ && p.typ ≤ 6) then d
    else if p.srcConn = 0 then count d Fld.RD_RESET_DISCARDS
    else
      let k := p.src * 8 + p.lane
      match look d.c.resetting k with
      | some t => if d.el < t + 10000 then count d Fld.RD_RESET_DISCARDS
          else sendNative { count d Fld.RD_RESET_SENT with c := { d.c with resetting := put d.c.resetting k d.el } }
            ⟨p.src, 0, 0, 0, 0x0D, 2, 0, p.srcConn, p.psn, 0, false, true, false, false, none, [], 0, false, 0, p.conn, 0⟩ none false
      | none => sendNative { count d Fld.RD_RESET_SENT with c := { d.c with resetting := put d.c.resetting k d.el } }
            ⟨p.src, 0, 0, 0, 0x0D, 2, 0, p.srcConn, p.psn, 0, false, true, false, false, none, [], 0, false, 0, p.conn, 0⟩ none false

/-- The lowest tile in service (R193). -/
def lowestTile (d : Ix9) : Nat := (liveTiles d).headD 0

/-- A packet reaches the transport: trailer (R235), age (R193), block (R147), readiness (R186), then the checks
(DESIGN CHOICE, log entry 51). -/
def rxPacket (d : Ix9) (pkt : Pkt) : Ix9 :=
  let n := pktConn pkt
  let bad := match pkt with | .native p => p.crc != p.trailer | .roce _ => false
  let aged := match pkt with | .native p => decide (500 ≤ ageMs d p) | .roce _ => false
  if bad then count d Fld.FAB_BAD_PKT
  else if aged then count d Fld.RD_EXPIRED (if blockValid d n then homeTile d n else lowestTile d)
  else if !blockValid d n then count d Fld.CONN_NO_BLOCK
  else if !xportReady d (homeTile d n) then rxResetting d pkt
  else rxLookup d n pkt

/-- The parked packets of a connection run in order of arrival, before any later one (R174). One that must wait again
keeps those behind it. -/
def runParked (d : Ix9) (n : Nat) : Ix9 :=
  let l := parkedOf d n
  let d := { d with c := { d.c with parked := d.c.parked.filter (fun p => p.conn != n) } }
  l.foldl (fun d p => if (parkedOf d n).isEmpty then rxChecked d n p.pkt true else park d n p.pkt true) d

/-- Every connection with parked packets and its state at hand tries them again. -/
def runAllParked (d : Ix9) : Ix9 :=
  let ns := (d.c.parked.map (·.conn)).foldl insertNat []
  ns.foldl (fun d n => if cachedConn d n then runParked d n else d) d

/-! ## Memory accesses of peers' reads and atomics (R33, R164, R168) -/

/-- Earlier packets of the connection have writes that are not visible yet (R33). -/
def earlierWrites (c : Conn) (psn : Nat) : Bool :=
  c.rxPend.any (fun p => p.left != 0 && p.psn != psn && psnSub psn p.psn < 2 ^ 23)

/-- The responses of a read: one per PSN (R181). -/
def sendResponses (d : Ix9) (n psn mtu : Nat) (data : List Byte) : Ix9 :=
  let k := max 1 (ceilDiv data.length mtu)
  (List.range k).foldl (fun d i =>
    answer d n (.readResp (psnAdd psn i) ((data.drop (i * mtu)).take mtu) (i == 0) (i + 1 == k))) d

/-- The PCIe AtomicOp serves the piece (R168, R539). -/
def useAtomicOp (d : Ix9) (p : Phys) : Bool :=
  match p.target with
  | .host => rflag d Fld.PCIE_ACK_STATUS_USE_ATOMIC (pathKey (pathOf d p))
  | .accel _ => rflag d Fld.PCIE_ACK_STATUS_USE_ATOMIC (pathKey (pathOf d p))
  | _ => false

/-- The value an atomic stores. -/
def atomicNew (op old arg1 arg2 : Nat) : Nat :=
  if op = 0x14 then (old + arg1) % 2 ^ 64 else if old = arg1 then arg2 else old

/-- The memory access of a peer's read or atomic has come back with `r`. -/
def readBack (m : List Host.Cell) (d : Ix9) (n psn : Nat) (r : ReadData) : Ix9 :=
  match d.c.rxReads.find? (fun x => x.conn == n && x.psn == psn) with
  | none => d
  | some x =>
    let c := connOf d n
    if earlierWrites c psn then d
    else
      let d := { d with c := { d.c with rxReads := removeFirst d.c.rxReads x } }
      match readSegs m d x.segs r with
      | .own => { d with c := { d.c with rxReads := d.c.rxReads ++ [x] } }
      | .poisoned _ => responderFail d n psn ST_REMOTE_OP_ERROR 4
      | .fail _ => responderFail d n psn ST_REMOTE_OP_ERROR 5
      | .domainDown => responderFail d n psn ST_REMOTE_OP_ERROR 5
      | .ok data =>
        if x.op = 0x13 then
          let d := sendResponses d n psn c.mtu data
          if x.dup then d else rxAcked d n psn
        else
          let old := leNat data
          let p := (x.segs.head?.map (·.phys)).getD {}
          let d := updConn d n (fun c =>
            { c with alog := put c.alog (psn % 16) old
                     rxPend := c.rxPend.map (fun q => if q.psn = psn then { q with act := .atomicAck old } else q) })
          if useAtomicOp d p then rxAcked (emit d (.atomicOp (pathOf d p) p.addr x.op x.arg1 x.arg2 p.translated)) n psn
          else
            match memWrite d p (leBytes 8 (atomicNew x.op old x.arg1 x.arg2)) with
            | (d, true) => responderFail d n psn ST_REMOTE_OP_ERROR 4
            | (d, false) => needAck d (pathOf d p) (.rx n psn) x.scope x.barrier

/-- The ACK delay has passed since the first PSN that is complete and not acknowledged (R182) (DEDUCED, log entry 18). -/
def ackDelay (d : Ix9) (n : Nat) : Ix9 := if (connOf d n).unacked = 0 then d else sendAck d n

/-- An acknowledging request for a peer's packet failed: ST_BUS_ERROR (R43), and on a path that is lost
ST_REMOTE_OP_ERROR, cause 0x05 (R550). -/
def rxAckFailed (d : Ix9) (n psn : Nat) (lost : Bool) : Ix9 :=
  if (connOf d n).rxPend.any (fun p => p.psn == psn) then
    (if lost then responderFail d n psn ST_REMOTE_OP_ERROR 5 else responderFail d n psn ST_BUS_ERROR 0)
  else d

/-- Takes a packet out of those that wait at the home tile, where it is there (DESIGN CHOICE, log entry 51). -/
def takeArrived (d : Ix9) (p : Pkt) : Ix9 :=
  let d := if d.net.arrived.any (fun e => e.2.contains p) then
      (match p with
       | .roce r => updPort d r.port (fun s => { s with rxFill := put s.rxFill r.lane (num s.rxFill r.lane - r.wire) })
       | .native _ => d)
    else d
  { d with net := { d.net with arrived := takeFrom d.net.arrived p } }

end Sys2Proof.Machine
end

