-- ==== Sys2Proof/Machine/Links.lean ====
section
/-!
DEFINITION. Native links (R226 to R233), routing of native packets (R239 to R245) and the epochs of the fabric (R246 to
R251).
-/

namespace Sys2Proof.Machine

/-! ## Link state -/

def linkOf (d : Ix9) (p : Nat) : Link := (portOf d p).link

def updLink (d : Ix9) (p : Nat) (g : Link → Link) : Ix9 := updPort d p (fun s => { s with link := g s.link })

/-- Credits a share gives a lane (R230): 512 KiB per physical lane, credits of 128 bytes, shares in 256ths (DEDUCED, log entry 30). -/
def shareCredits (d : Ix9) (p share lane : Nat) : Nat := 16 * laneWidth d (p / 8) * bits share (8 * lane + 7) (8 * lane)

/-- Bytes of the receive buffer that a lane's share gives it (R230, R268). -/
def shareBytes (d : Ix9) (p lane : Nat) : Nat := shareCredits d p (rget d Fld.LINK_CRED_SHARE p) lane * 128

/-- The INIT word of a port (R227). -/
def initWord (d : Ix9) (p : Nat) : Nat := withCrc8 (5 * 2 ^ 60 + fabEp d * 2 ^ 40 + (linkOf d p).gen % 256 * 2 ^ 32)

/-- The CREDIT word of a set of four lanes (R227, R230), with counts of at most `cap` (DEDUCED, log entry 30). -/
def creditWord (d : Ix9) (p cap set : Nat) : Nat :=
  withCrc8 (2 * 2 ^ 60 + set * 2 ^ 59 + (List.range 4).foldl (fun a i =>
    a + min cap (num (linkOf d p).given (4 * set + i)) % 4096 * 2 ^ (8 + 12 * i)) 0)

/-- One CREDIT word for each SET (R230), with the counts as they stand. -/
def sendCredits (d : Ix9) (p : Nat) : Ix9 :=
  let cap := (linkOf d p).given.foldl (fun a x => max a x.2) 0
  emit (emit d (.linkWord p (creditWord d p cap 0))) (.linkWord p (creditWord d p cap 1))

/-- The CREDIT words of a bring-up, which give the peer every credit of its share (R229): counts are 12 bits wide, so a
share above 4,095 credits takes several words, each at most 4,095 ahead of the last (DEDUCED, log entry 30). -/
def openCredits (d : Ix9) (p : Nat) : Ix9 :=
  let top := (linkOf d p).given.foldl (fun a x => max a x.2) 0
  (List.range (max 1 ((top + 4094) / 4095))).foldl (fun d j =>
    emit (emit d (.linkWord p (creditWord d p (4095 * (j + 1)) 0))) (.linkWord p (creditWord d p (4095 * (j + 1)) 1))) d

def lackWord (seq : Nat) : Nat := withCrc8 (3 * 2 ^ 60 + seq % 4096 * 2 ^ 40)
def lnakWord (seq : Nat) : Nat := withCrc8 (4 * 2 ^ 60 + seq % 4096 * 2 ^ 40)

/-- A received link word is of the kind and its CRC-8 holds (R227). -/
def wordOk (w kind : Nat) : Bool := bits w 63 60 == kind && crc8 w == w % 256

/-- A new bring-up begins: lanes train (R229). -/
def bringUp (d : Ix9) (p : Nat) : Ix9 :=
  let d := updLink d p (fun l => { stage := .training, gen := l.gen + 1, rx := l.rx })
  rset d Fld.LINK_STATUS_TRAINING p 1

/-- Type 0x07 event of a network port (R583): the change and its detail. -/
def portEvent (d : Ix9) (p change detail : Nat) : Ix9 :=
  pf0Event d EV_PORT (uNETGRP (p / 8)) (p + change * 2 ^ 8 + detail * 2 ^ 16)

/-- A native link goes down (R233): what waits for the port is discarded and counted, and an event is raised. -/
def linkFall (d : Ix9) (p : Nat) : Ix9 :=
  let s := portOf d p
  let n := s.link.replay.length + s.lanes.foldl (fun a l => a + l.2.length) 0
  let d := count d Fld.LINK_DOWN_DISCARDS p n
  let d := if rflag d Fld.LINK_STATUS_UP p then portEvent (count d Fld.LINK_DOWNS p) p 1 0 else d
  let d := rset (rset d Fld.LINK_STATUS_UP p 0) Fld.LINK_STATUS_TRAINING p 0
  updPort d p (fun s => { s with lanes := [], link := { gen := s.link.gen, rx := s.link.rx } })

/-- A link down, with a new bring-up where the port still runs native. -/
def linkDown (d : Ix9) (p : Nat) : Ix9 :=
  let d := linkFall d p
  if isNative d p && portExists d p then bringUp d p else d

/-- The lanes of a native port have trained: the INIT exchange begins (R229) (DEDUCED, log entry 26). -/
def trainingDone (d : Ix9) (p : Nat) : Ix9 :=
  if isNative d p && portExists d p && (linkOf d p).stage = .training then
    let d := updLink d p (fun l => { l with stage := .init })
    emit d (.linkWord p (initWord d p))
  else d

/-- 1 µs has passed without an INIT from the peer: another INIT word (R229). -/
def initTimer (d : Ix9) (p : Nat) : Ix9 :=
  if (linkOf d p).stage = .init then emit d (.linkWord p (initWord d p)) else d

/-- Credits of a lane that packets of an earlier bring-up still hold; they are granted when those packets go on (DEDUCED,
log entry 30). -/
def heldCredits (l : Link) (lane : Nat) : Nat :=
  (l.rx.filter (fun k => k.lane == lane)).foldl (fun a k => a + creditsOf k.payLen) 0

/-- An INIT word arrives (R229) (DEDUCED, log entry 26). -/
def initReceived (d : Ix9) (p w : Nat) : Ix9 :=
  if !wordOk w 5 then count d Fld.LINK_CRC_ERR p
  else
    let gen := bits w 39 32
    match (linkOf d p).stage with
    | .init =>
      let d := rset d Fld.LINK_STATUS_PEER_EP p (bits w 56 40)
      let share := rget d Fld.LINK_CRED_SHARE p
      let d := updLink d p (fun l => { l with stage := .up, peerGen := some gen, share := share,
                                              given := (List.range 8).map (fun i => (i, shareCredits d p share i - heldCredits l i)) })
      let d := rset (rset d Fld.LINK_STATUS_UP p 1) Fld.LINK_STATUS_TRAINING p 0
      openCredits d p
    | .up => if (linkOf d p).peerGen = some gen then d else linkDown d p
    | _ => d

/-- A CREDIT word arrives (R230): each 12-bit count says how far the cumulative count has moved on. -/
def creditReceived (d : Ix9) (p w : Nat) : Ix9 :=
  if !wordOk w 2 then count d Fld.LINK_CRC_ERR p
  else if (linkOf d p).stage = .init || (linkOf d p).stage = .up then
    let set := bit w 59
    resendTry <| updLink d p (fun l => { l with granted := (List.range 4).foldl (fun t i =>
      put t (4 * set + i) (num t (4 * set + i) + (bits w (19 + 12 * i) (8 + 12 * i) + 4096 - num t (4 * set + i) % 4096) % 4096)) l.granted })
  else d
where
  /-- Packets that waited for credits to be sent again go on. -/
  resendTry (d : Ix9) : Ix9 := resendGo d p

/-- Time for CREDIT words (R230). -/
def creditTimer (d : Ix9) (p : Nat) : Ix9 :=
  if rflag d Fld.LINK_STATUS_UP p then sendCredits d p else d

/-- A sequence number lies among those sent and not covered. -/
def replayHas (l : Link) (seq : Nat) : Bool := l.replay.any (fun r => r.1 == seq)

/-- A LACK word arrives (R231). One that covers a packet is progress (R233). -/
def lackReceived (d : Ix9) (p w : Nat) : Ix9 :=
  if !wordOk w 3 then count d Fld.LINK_CRC_ERR p
  else
    let seq := bits w 51 40
    updLink d p (fun l =>
      if replayHas l seq || seq = l.txSeq then
        let rest := l.replay.dropWhile (fun r => r.1 != seq)
        { l with replay := rest, retries := if rest.length < l.replay.length then (0, 0) else l.retries }
      else l)

/-- 0.5 µs after the first packet not acknowledged: a LACK (R231). -/
def lackTimer (d : Ix9) (p : Nat) : Ix9 :=
  if (linkOf d p).sinceLack = 0 then d
  else emit (updLink d p (fun l => { l with sinceLack := 0 })) (.linkWord p (lackWord (linkOf d p).rxSeq))

/-- A LNAK word arrives: every packet from its LSEQ is sent again; RETRY_MAX replays without progress take the link down
(R232, R233). Their credits have come back, so each takes credits again (R230). -/
def lnakReceived (d : Ix9) (p w : Nat) : Ix9 :=
  if !wordOk w 4 then count d Fld.LINK_CRC_ERR p
  else
    let seq := bits w 51 40
    let l := linkOf d p
    if !replayHas l seq then d
    else
      let k := if l.retries.1 = seq && l.retries.2 != 0 then l.retries.2 + 1 else 1
      if rget d Fld.LINK_CFG_RETRY_MAX p < k then linkDown d p
      else
        let again := (l.replay.dropWhile (fun r => r.1 != seq)).map (·.1)
        resendGo (updLink d p (fun l => { l with retries := (seq, k), resend := again })) p

/-- Credits of a received packet go back to the peer (R230). -/
def freeCredits (d : Ix9) (p : Nat) (k : Packet) : Ix9 :=
  updLink d p (fun l => { l with given := bump l.given k.lane (creditsOf k.payLen) })

/-- A packet arrives on a native link behind its START word (R228, R231, R232, R236), past the port's ingress meter (R211).
While an LSEQ is awaited after an LNAK, later packets are discarded; where it fails again, or a START word that cannot be
read arrives, another LNAK asks for it (DEDUCED, log entry 26). -/
def linkPacket (d : Ix9) (p start : Nat) (k : Packet) : Ix9 :=
  if !rflag d Fld.LINK_STATUS_UP p then count d Fld.LINK_DOWN_DISCARDS p
  else
    let k := { k with hops := bits start 59 56, hopdone := bit start 55 = 1, birth := bits start 39 24, srcConn := bits start 23 0 }
    let seq := bits start 51 40
    let l := linkOf d p
    let chk := bits start 63 60 = 1 && crc3 start = bits start 54 52
    let good := chk && k.crc = k.trailer
    let ahead := psnSub seq l.rxSeq % 4096 < 2048 && seq != l.rxSeq
    if l.lnak.isSome && (good || (chk && seq != l.rxSeq)) && !(good && seq = l.rxSeq) then freeCredits d p k
    else if !good || ahead then
      emit (count (updLink (freeCredits d p k) p (fun l => { l with lnak := some l.rxSeq })) Fld.LINK_CRC_ERR p)
        (.linkWord p (lnakWord l.rxSeq))
    else if seq != l.rxSeq then freeCredits d p k
    else
      let d := updLink d p (fun l => { l with rxSeq := (l.rxSeq + 1) % 4096, lnak := none, sinceLack := l.sinceLack + 1 })
      let d := if 32 ≤ (linkOf d p).sinceLack then lackTimer d p else d
      if !packetWell k then freeCredits (count d Fld.FAB_BAD_PKT) p k
      else
        match meterApply d (8192 + 8 * p + k.lane) k.wireLen .green false with
        | (d, .pass, _) => updLink d p (fun l => { l with rx := l.rx ++ [k] })
        | (d, .mark, _) =>
          let q := { k with ecn := markEcn k.ecn }
          updLink d p (fun l => { l with rx := l.rx ++ [{ q with crc := q.trailer }] })
        | (d, _, _) => freeCredits d p k

/-- A write of the LINK_CFG word (R233, R254). -/
def linkCfgWrite (d : Ix9) (p v : Nat) : Ix9 :=
  if !portExists d p then d
  else
    let old := isNative d p
    let retry := bits v 15 8
    let d := if 1 ≤ retry then rset d Fld.LINK_CFG_RETRY_MAX p retry else d
    let d := rset d Fld.LINK_CFG_NATIVE p (bit v 0)
    if old = (bit v 0 == 1) then d
    else linkDown (rset (rset d Fld.ETH_STATUS_UP p 0) Fld.ETH_STATUS_AN_DONE p 0) p

/-! ## Routing (R239 to R245, R248, R251) -/

/-- Hands a packet on to a network port: hop and age limits (R239), then the port (R233). -/
def forward (d : Ix9) (p : Nat) (k : Packet) : Ix9 :=
  if 14 ≤ k.hops then count d Fld.FAB_HOP_DISCARDS
  else if 500 ≤ ageMs d k then count d Fld.FAB_EXPIRED
  else toPort d p { k with hops := k.hops + 1 } none

/-- The multicast table entry of a group in an epoch (R244): its index. -/
def mcEntry (d : Ix9) (e g : Nat) : Option Nat :=
  ((List.range 4096).find? (fun i => rflag d Fld.FAB_MC_V (e * 4096 + i) && rget d Fld.FAB_MC_GROUP (e * 4096 + i) == g)).map (e * 4096 + ·)

/-- WIN delivery of a multicast packet (R245): its pieces; none where a check fails; a miss starts a walk (DEDUCED, log entry 27). -/
def mcWindow (d : Ix9) (w : Nat) (k : Packet) : Ix9 × Option WinRes :=
  let win := winOf d w
  let off := 256 * k.psn
  if !d.x.winReady || winTableSize d ≤ w || !win.v || win.quar || !win.wr || 4096 * win.pages < off + k.payload.length then (d, none)
  else
    let isl := xisle (lowestTile d)
    match xlate d isl win.asid { va := win.base + off, len := k.payload.length, write := true } with
    | .ok s => (d, some (.ok s))
    | .miss p => (startWalk d isl win.asid p, some .park)
    | _ => (d, none)

/-- The replication stage of a lane holds a packet: a copy of it has not left its port yet (R245) (DEDUCED, log entry 27). -/
def stageBusy (d : Ix9) (lane : Nat) : Bool :=
  (List.range 16).any (fun p => (laneQueue d p lane).any (fun q => match q.item with | .native k => k.mc | _ => false))

/-- Delivery of a copy to a tile (R245): control messages go to its collective engine; no consumer is given for MC_DATA
(DESIGN CHOICE, log entry 27). -/
def mcTile (d : Ix9) (t : Nat) (k : Packet) : Ix9 :=
  if !rflag d Fld.FAB_CTRL_FWD_EN then count d Fld.FAB_TRANSIT_DISCARDS
  else if !((liveTiles d).contains t && unitReady d (uTILE t)) then count d Fld.FAB_MC_MISS
  else if k.typ = 0x11 then arriveHeat d t k
  else d

/-- What a multicast packet's WIN delivery may do: nothing named, too old or turned away at the destination (R193), not
readable, a walk to wait for, or its pieces. -/
inductive McWin where
  | none_ | old | off | miss | wait | ok (l : List Seg)
  deriving DecidableEq, Repr

/-- The WIN delivery of a packet by entry `i`. -/
def mcWin (d : Ix9) (i : Nat) (k : Packet) : Ix9 × McWin :=
  if !rflag d Fld.FAB_MC_WIN i then (d, .none_)
  else if !rflag d Fld.FAB_CTRL_FWD_EN then (d, .off)
  else if 500 ≤ ageMs d k then (d, .old)
  else
    match mcWindow d (rget d Fld.FAB_MC_WINDOW i) k with
    | (d, some (.ok s)) => (d, .ok s)
    | (d, some .park) => (d, .wait)
    | (d, _) => (d, .miss)

/-- R245: copies of a multicast packet to each port of NET but the one it arrived on, to tiles and to a window. The flag
says that it must wait, for its lane's replication stage or for a walk of its window. One that no port is named for leaves
its source, so its copies cross their first link; `func` originates it (DEDUCED, log entry 27). -/
def multicast (d : Ix9) (from_ func : Option Nat) (k : Packet) : Ix9 × Bool :=
  match mcEntry d k.epoch k.dst with
  | none => (count d Fld.FAB_MC_MISS, false)
  | some i =>
    if stageBusy d k.lane then (d, true)
    else
    match mcWin d i k with
    | (d, .wait) => (d, true)
    | (d, w) =>
      let d := (List.range 16).foldl (fun d p =>
        if flag (rget d Fld.FAB_MC_NET i) p && from_ != some p then
          (if portExists d p && !isNative d p then count d Fld.FAB_MC_MISS
           else if from_.isNone then toPort d p k func else forward d p k)
        else d) d
      let d := (List.range 4).foldl (fun d t => if flag (rget d Fld.FAB_MC_TILES i) t then mcTile d t k else d) d
      match w with
      | .ok s =>
        let d := (writeSegs d s k.payload).1
        ({ d with h := { d.h with mcLanded := d.h.mcLanded ++ [(rget d Fld.FAB_MC_WINDOW i, 256 * k.psn, k.payload.length)] } }, false)
      | .old => (count d Fld.RD_EXPIRED (lowestTile d), false)
      | .off => (count d Fld.FAB_TRANSIT_DISCARDS, false)
      | .miss => (count d Fld.FAB_MC_MISS, false)
      | _ => (d, false)
/-- A multicast packet as it leaves this device (R245). -/
def mcStamp (d : Ix9) (k : Packet) : Packet :=
  ({ k with src := fabEp d, epoch := rget d Fld.FAB_EPOCH_CUR, hopdone := true, mc := true, hops := 0, intm := 0,
            birth := nowMs d } : Packet).seal

/-- This device's waiting multicast packets, in order on each lane, as far as their replication stages take them.
`held`: lanes on which one waits; gives what stays. -/
def mcDrainFrom (d : Ix9) (held : List Nat) : List (Packet × Option Nat) → Ix9 × List (Packet × Option Nat)
  | [] => (d, [])
  | (k, f) :: r =>
    let keep (d : Ix9) : Ix9 × List (Packet × Option Nat) :=
      match mcDrainFrom d (k.lane :: held) r with | (d, l) => (d, (k, f) :: l)
    if held.contains k.lane then keep d
    else
      match multicast d none f (mcStamp d k) with
      | (d, true) => keep d
      | (d, false) => mcDrainFrom d held r

def mcDrain (d : Ix9) : Ix9 :=
  if d.net.mcOut.isEmpty then d
  else match mcDrainFrom d [] d.net.mcOut with | (d, l) => { d with net := { d.net with mcOut := l } }

/-- Sends a multicast packet from this device (R245); `func` originates it (R211). -/
def sendMc (d : Ix9) (k : Packet) (func : Option Nat) : Ix9 :=
  mcDrain { d with net := { d.net with mcOut := d.net.mcOut ++ [(k, func)] } }

/-- A packet is accepted for LOCAL delivery: the late records of R248, then its home tile (R24). -/
def deliverLocal (d : Ix9) (k : Packet) : Ix9 :=
  let two := rflag d Fld.FAB_EPOCH_COMMITTED || rflag d Fld.FAB_EPOCH_SETTLING
  let cur := rget d Fld.FAB_EPOCH_CUR
  let newE := if rflag d Fld.FAB_EPOCH_SETTLING then cur else 1 - cur
  let key := k.src * 8 + k.lane
  if two && k.epoch != newE && d.net.late.contains key then count d Fld.FAB_EPOCH_DISCARDS
  else
    let d := if two && k.epoch = newE then { d with net := { d.net with late := insertNat d.net.late key } } else d
    if k.typ = 0x11 then arriveHeat d (homeTile d k.conn) k
    else arrive d (homeTile d k.conn) k.lane (.native k)

/-- R241: routes a received packet; the flag says that it must wait. -/
def routePacket (d : Ix9) (p : Nat) (k : Packet) : Ix9 × Bool :=
  if !rflag d Fld.FAB_CTRL_FWD_EN then (count d Fld.FAB_TRANSIT_DISCARDS, false)
  else if !epochRouted d k.epoch then (count d Fld.FAB_EPOCH_DISCARDS, false)
  else if k.mc then multicast d (some p) none k
  else
    match route d k with
    | .local_ => (deliverLocal d k, false)
    | .none_ => (count d Fld.FAB_NO_ROUTE, false)
    | .port q hd => (forward d q { k with hopdone := hd }, false)

/-- Routes the received packet at position `i`; its credits go back, unless it must wait. -/
def routeAt (d : Ix9) (p i : Nat) (k : Packet) : Ix9 × Bool :=
  match routePacket d p k with
  | (d, true) => (d, true)
  | (d, false) => (freeCredits (updLink d p (fun l => { l with rx := l.rx.eraseIdx i })) p k, false)

/-- NATIVE_PACKET_ROUTE: the oldest packet received on a lane of a port is routed. A multicast packet that must wait holds
back only the later multicast packets of the lane (R245). -/
def nativeRoute (d : Ix9) (p lane : Nat) : Ix9 :=
  match findAt (linkOf d p).rx (fun k => k.lane == lane) with
  | none => d
  | some (i, k) =>
    match routeAt d p i k with
    | (d, false) => d
    | (d, true) =>
      match findAt (linkOf d p).rx (fun k => k.lane == lane && !k.mc) with
      | none => d
      | some (j, q) => (routeAt d p j q).1

/-- 1 s without a change of an entry's count (R242). -/
def pairTimeout (d : Ix9) (i : Nat) : Ix9 := { d with net := { d.net with pairs := upd d.net.pairs i (fun e => { e with count := 0 }) } }

/-! ## Epochs (R246, R247, R251) -/

/-- Step 2 of R247. -/
def epochCommit (d : Ix9) : Ix9 :=
  if rflag d Fld.FAB_EPOCH_SETTLING then d
  else
    let d := rset d Fld.FAB_EPOCH_COMMITTED 0 1
    { d with net := { d.net with late := [] } }

/-- Step 4 of R247. Pair entries follow at once while FWD_EN is 0 (R251). -/
def flipNow (d : Ix9) : Ix9 :=
  let cur := rget d Fld.FAB_EPOCH_CUR
  let d := rset (rset (rset d Fld.FAB_EPOCH_CUR 0 (1 - cur)) Fld.FAB_EPOCH_COMMITTED 0 0) Fld.FAB_EPOCH_SETTLING 0 1
  let d := { d with net := { d.net with flipArmed := false } }
  if rflag d Fld.FAB_CTRL_FWD_EN then d else pairsToCur d

/-- Step 3 of R247: FLIP is armed, or takes place at once where its time has passed. -/
def epochFlip (d : Ix9) : Ix9 :=
  if !rflag d Fld.FAB_EPOCH_COMMITTED then d
  else if rget d Fld.FAB_FLIP_AT ≤ d.now then flipNow d
  else { d with net := { d.net with flipArmed := true } }

def flipTime (d : Ix9) : Ix9 := if d.net.flipArmed && rflag d Fld.FAB_EPOCH_COMMITTED then flipNow d else d

/-- Step 5 of R247 at FAB_EPOCH_FORCE: every entry of the old epoch moves and draws anew. -/
def epochForce (d : Ix9) : Ix9 :=
  if !rflag d Fld.FAB_EPOCH_SETTLING then d
  else
    let cur := rget d Fld.FAB_EPOCH_CUR
    { d with net := { d.net with pairs := d.net.pairs.map (fun (i, e) =>
        (i, if e.epoch = cur then e else { e with epoch := cur, drawn := false })) } }

/-- Step 6 of R247. -/
def epochSettle (d : Ix9) : Ix9 := rset d Fld.FAB_EPOCH_SETTLING 0 0

/-- A write of CUR (R251, R253): only while FWD_EN is 0; every pair entry moves with a count of 0. -/
def epochCurWrite (d : Ix9) (v : Nat) : Ix9 :=
  if rflag d Fld.FAB_CTRL_FWD_EN then d
  else pairsToCur (rset d Fld.FAB_EPOCH_CUR 0 v)

end Sys2Proof.Machine
end

