-- ==== Sys2Proof/Machine/Ether.lean ====
section
/-!
DEFINITION. Ethernet ports (09_ethernet_ports.md): port modes, received frames, priority flow control, preemption, lane
sparing and lane shedding.
-/

namespace Sys2Proof.Machine

/-- The function id of IF0 (R430). -/
def fIF0 : Nat := 4

/-! ## Pauses sent (R268) -/

/-- Lane of a class (R259, R268). -/
def pcpLane (d : Ix9) (p c : Nat) : Nat := bits (rget d Fld.ETH_PCP_LANE p) (3 * c + 2) (3 * c)

/-- Priorities that name a lane, as bits. -/
def pfcPrios (d : Ix9) (p lane : Nat) : Nat :=
  (List.range 8).foldl (fun a c => a + b2n (pcpLane d p c == lane) * 2 ^ c) 0

/-- The port may begin a PFC frame: MACsec lets it, and no retrain runs (R274). -/
def pfcReady (d : Ix9) (p : Nat) : Bool := macsecReady d p && !rflag d Fld.ETH_LS_STATUS_RETRAINING p

/-- Sends a PFC frame for a lane. One that the port may not begin now is left to the next repeat. -/
def sendPfc (d : Ix9) (p lane quanta : Nat) : Ix9 :=
  if !pfcReady d p then d
  else count (sendFrame d p (pfcFrame (rget d Fld.ETH_MAC p) (pfcPrios d p lane) quanta) none) Fld.ETH_TX_PFC p

/-- Bytes a lane's buffer may hold before the port pauses its peer. -/
def pfcLevel (d : Ix9) (p lane : Nat) : Nat := shareBytes d p lane - rget d Fld.ETH_PFC_HEADROOM p * 1024

/-- Pauses the peer's lane where its buffer holds more than its level. -/
def pfcCheck (d : Ix9) (p lane : Nat) : Ix9 :=
  if flag (rget d Fld.ETH_PFC_EN p) lane && pfcLevel d p lane < num (portOf d p).rxFill lane && !(portOf d p).pausing.contains lane
  then updPort (sendPfc d p lane 0xFFFF) p (fun s => { s with pausing := s.pausing ++ [lane] })
  else d

/-- 10 µs have passed while a pause is outstanding: the frame again, or quanta 0 once the fill is 32 KiB below the level. -/
def pfcRepeat (d : Ix9) (p lane : Nat) : Ix9 :=
  if !(portOf d p).pausing.contains lane || !pfcReady d p then d
  else if num (portOf d p).rxFill lane + 32768 ≤ pfcLevel d p lane then
    updPort (sendPfc d p lane 0) p (fun s => { s with pausing := s.pausing.filter (· != lane) })
  else sendPfc d p lane 0xFFFF

/-- A PFC frame names priorities with quanta: each enabled lane mapped from one is paused for the longest of them. -/
def pfcReceived (d : Ix9) (p prios : Nat) (quanta : List Nat) : Ix9 :=
  (List.range 8).foldl (fun d lane =>
    let q := ((List.range 8).filter (fun c => flag prios c && pcpLane d p c == lane)).map (fun c => (quanta[c]?).getD 0)
    if q.isEmpty || !flag (rget d Fld.ETH_PFC_EN p) lane then d
    else
      let n := q.foldl max 0
      let till := d.el + ceilDiv (n * 512 * 1000) (portRate d p)
      updPort d p (fun s => { s with paused := if n = 0 then drop s.paused lane else put s.paused lane till }))
    (count d Fld.ETH_RX_PFC p)

/-- A pause has run its time. -/
def pfcExpiry (d : Ix9) (p lane : Nat) : Ix9 := updPort d p (fun s => { s with paused := drop s.paused lane })

/-! ## The exception path, receive (R454, R455) -/

/-- Bytes written to the receive ring, records not acknowledged yet included. -/
def excNext (d : Ix9) : Nat :=
  ((pathSt d .landing).port.foldl (fun a t => match t with | .exc p => some p | _ => a) none).getD (rget d Fld.EXC_RX_PROD)

/-- Header of a record. -/
def excHeader (w0 ns sec : Nat) : List Byte := leBytes 8 w0 ++ leBytes 8 ns ++ leBytes 16 sec

/-- Writes a frame's record with its ingress time; it counts once acknowledged. -/
def excDeliver (d : Ix9) (p cls : Nat) (l : List Byte) (t : Nat) : Ix9 :=
  let size := 2 ^ rget d Fld.EXC_RX_CFG_LOG2
  let prod := excNext d
  let used := (prod + 2 ^ 32 - rget d Fld.EXC_RX_CONS) % 2 ^ 32
  let recLen := roundUp (32 + l.length) 64
  let pad := if size < prod % size + recLen then size - prod % size else 0
  if !rflag d Fld.EXC_RX_CFG_EN || size < used + pad + recLen then count d Fld.EXC_RX_DROPS
  else
    let base := rget d Fld.EXC_RX_BASE * 4096
    let d := if pad = 0 then d else (lmWrite d fIF0 (base + prod % size) (excHeader (2 ^ 31) 0 0)).1
    let d := (lmWrite d fIF0 (base + (prod + pad) % size)
      (excHeader (l.length + p * 2 ^ 16 + cls * 2 ^ 20) (t % 10 ^ 9) (t / 10 ^ 9) ++ l)).1
    needDest (count d Fld.ETH_EXC_FRAMES p) .landing (.exc ((prod + pad + recLen) % 2 ^ 32))

/-- The record is acknowledged: PROD advances, with a message where the ring was empty. -/
def excAcked (d : Ix9) (prod : Nat) : Ix9 :=
  let was := rget d Fld.EXC_RX_PROD == rget d Fld.EXC_RX_CONS
  let d := rset d Fld.EXC_RX_PROD 0 prod
  if was then msixSend d fIF0 (rget d Fld.EXC_RX_CFG_VECTOR) else d

/-! ## Received frames (R257 to R261) -/

/-- The destination address is an entry of the local address table. -/
def localIp (d : Ix9) (p : Nat) (ip : IpView) : Bool :=
  (List.range 256).any (fun i =>
    rflag d Fld.ETH_LOCAL_V (p * 4096 + i) && rflag d Fld.ETH_LOCAL_IPV6 (p * 4096 + i) == ip.ipv6
      && beNat (leBytes 16 (rget d Fld.ETH_LOCAL_ADDR (p * 4096 + i))) == (if ip.ipv6 then ip.dst else 0xFFFF * 2 ^ 32 + ip.dst))

/-- The packet of a frame that has passed the checks (R260, R412). -/
def rocePktOf (d : Ix9) (p lane wire : Nat) (ip : IpView) : Roce :=
  let b := ip.pay.drop 8
  let op := fieldBE b 0 1
  let qp := fieldBE b 5 3
  let pad := fieldBE b 1 1 / 16 % 4
  let rest := (b.drop 12).take (b.length - 16)
  let enc := (connOf d qp).enc && op != 0x81 && 24 ≤ rest.length
  let inner := if enc then (rest.drop 8).take (rest.length - 24) else rest
  { port := p, lane := lane, srcIp := ip.src, ipv6 := ip.ipv6, ecn := ip.tos % 4, op := op, se := flag (fieldBE b 1 1) 7, flags := fieldBE b 4 1,
    destQp := qp, ackreq := flag (fieldBE b 8 1) 7, psn := fieldBE b 9 3,
    prot := if enc then some ⟨fieldBE rest 0 1, fieldBE rest 1 7, beNat (rest.drop (rest.length - 16))⟩ else none,
    body := inner.take (inner.length - pad), wire := wire }

/-- R259: the lane of a received frame. -/
def rxLane (d : Ix9) (p op : Nat) (v : EthView) (ip : IpView) : Nat :=
  if op = 0x11 || op = 0x12 || op = 0x81 then 0
  else
    let c := match v.tci with | some t => t / 2 ^ 13 % 8 | none => ip.tos / 32
    max 1 (pcpLane d p c)

/-- Colour of a frame on arrival (R213). -/
def rxColour (v : EthView) : Colour := match v.tci with | some t => if flag t 12 then .yellow else .green | none => .green

/-- R259: the lane of a frame for the exception path: its PCP, or DSCP[5:3]; one that carries neither takes priority 0
(DEDUCED, log entry 28). -/
def excLane (d : Ix9) (p : Nat) (v : EthView) : Nat :=
  pcpLane d p (match v.tci with
    | some t => t / 2 ^ 13 % 8
    | none => if v.etype = 0x0800 then fieldBE v.rest 1 1 / 32 else if v.etype = 0x86DD then fieldBE v.rest 0 2 / 2 ^ 9 % 8 else 0)

/-- A frame for the exception path, past the port's ingress meter (R211, R213). -/
def excFrame (d : Ix9) (p wire cls : Nat) (v : EthView) (l : List Byte) : Ix9 :=
  match meterApply d (8192 + 8 * p + excLane d p v) wire (rxColour v) false with
  | (d, .pass, _) => go d l
  | (d, .mark, _) => go d (frameMark (frameDei l))
  | (d, _, _) => d
where
  /-- Its delivery with its ingress timestamp (R258). -/
  go (d : Ix9) (l : List Byte) : Ix9 :=
    excDeliver (count (count d Fld.ETH_RX_FRAMES p) Fld.ETH_RX_BYTES p wire) p cls l
      ((d.now : Int) + rsigned d Fld.ETH_TS_ADJ_RX p 16).toNat

/-- A frame accepted for the transport: ingress meter (R211), room (check 15), pause (R268) (DEDUCED, log entry 28). -/
def acceptFrame (d : Ix9) (p wire : Nat) (v : EthView) (ip : IpView) : Ix9 :=
  let op := fieldBE (ip.pay.drop 8) 0 1
  let lane := rxLane d p op v ip
  match meterApply d (8192 + 8 * p + lane) wire (rxColour v) false with
  | (d, .discard, _) => d
  | (d, .hold, _) => d
  | (d, out, _) =>
    let r := rocePktOf d p lane wire ip
    let r := if out = .mark then { r with ecn := markEcn r.ecn } else r
    if shareBytes d p lane < num (portOf d p).rxFill lane + wire then count d Fld.ETH_RX_LANE_FULL p
    else
      let d := count (count d Fld.ETH_RX_FRAMES p) Fld.ETH_RX_BYTES p wire
      let d := updPort d p (fun s => { s with rxFill := bump s.rxFill lane wire })
      pfcCheck (arrive d (homeTile d r.destQp) lane (.roce r)) p lane

/-- Checks 9 to 14 of R257. -/
def classifyIp (d : Ix9) (p wire : Nat) (v : EthView) : Ix9 :=
  if v.etype != 0x0800 && v.etype != 0x86DD then count d Fld.ETH_RX_ETYPE_DROP p
  else
    match ipView v.etype v.rest with
    | none => count d Fld.ETH_RX_IP_ERR p
    | some ip =>
      let b := ip.pay.drop 8
      let op := fieldBE b 0 1
      if !localIp d p ip then count d Fld.ETH_RX_DIP_MISS p
      else if ip.proto != 17 || fieldBE ip.pay 2 2 != 4791 then count d Fld.ETH_RX_L4_DROP p
      else if fieldBE b 1 1 % 16 != 0 || !(op < 0x20 || op = 0x81) then count d Fld.ETH_RX_OPCODE_DROP p
      else if icrc ip.ipv6 ip.hdr (ip.pay.take 8) (b.take 12) ((b.drop 12).take (b.length - 16)) != b.drop (b.length - 4)
      then count d Fld.ETH_RX_ICRC_ERR p
      else acceptFrame d p wire v ip

/-- Checks 6 to 8 of R257 on a frame without its FCS. -/
def classify (d : Ix9) (p wire : Nat) (l : List Byte) : Ix9 :=
  let v := ethView l
  if v.etype = 0x8808 then
    match pfcView v with
    | some (prios, quanta) => pfcReceived d p prios quanta
    | none => count d Fld.ETH_RX_MACCTL_DROP p
  else
    let cls := match excClass v with
      | some c => if flag (rget d Fld.ETH_EXC_CFG p) c then some c else none
      | none => none
    let group := flag (fieldBE l 0 1) 0
    if v.dst != rget d Fld.ETH_MAC p && !(group && cls.isSome) then count d Fld.ETH_RX_DA_MISS p
    else
      match cls with
      | some c => excFrame d p wire c v l
      | none => classifyIp d p wire v

/-- Check 5 of R257 (R270): MACsec, where it is on. -/
def checkMacsec (d : Ix9) (p wire : Nat) (l : List Byte) : Ix9 :=
  if !rflag d Fld.ETH_MACSEC_CFG_EN p then classify d p wire l
  else if fieldBE l 12 2 = 0x88E5 then
    if !unitReady d uMACSEC then count d Fld.ETH_MACSEC_NO_SA p
    else
      match macsecOpen (portOf d p).sas (confOffset (rget d Fld.ETH_MACSEC_CFG_CONF_OFFSET p)) (rget d Fld.ETH_MACSEC_WINDOW p) l with
      | (.noSa, _) => count d Fld.ETH_MACSEC_NO_SA p
      | (.late, _) => count d Fld.ETH_MACSEC_LATE p
      | (.icvFail, _) => count d Fld.ETH_MACSEC_ICV_FAIL p
      | (.plain f pn, some s) =>
        classify (updPort d p (fun q => { q with sas := q.sas.map (fun x => if x = s then { x with pn := max x.pn (pn + 1) } else x) }))
          p wire f
      | (.plain f _, none) => classify d p wire f
  else if macsecExempt d p l || !rflag d Fld.ETH_MACSEC_CFG_STRICT p then classify d p wire l
  else count d Fld.ETH_MACSEC_UNPROT p

/-- Preemption becomes active (R269). -/
def preemptOn (d : Ix9) (p verify : Nat) : Ix9 :=
  rset (rset d Fld.ETH_PREEMPT_STATUS_ACTIVE p 1) Fld.ETH_PREEMPT_STATUS_VERIFY p verify

/-- A frame or mPacket arrives on an Ethernet port (R257). -/
def ethFrame (d : Ix9) (p : Nat) (f : RxFrame) : Ix9 :=
  if isNative d p || !portUp d p || rflag d Fld.PWR_STATUS_STANDBY then d
  else
    match f with
    | .badFragments => count d Fld.ETH_RX_ASSY_ERR p
    | .verify => emit d (.verify p true)
    | .respond => if rget d Fld.ETH_PREEMPT_STATUS_VERIFY p = 1 then preemptOn d p 2 else d
    | .frame codeErr l =>
      if codeErr then count d Fld.ETH_RX_CODE_ERR p
      else if l.length < 64 then count d Fld.ETH_RX_RUNT p
      else if rget d Fld.ETH_CFG_MAX_FRAME p < l.length then count d Fld.ETH_RX_OVERSIZE p
      else
        let b := l.take (l.length - 4)
        if fcs b != l.drop (l.length - 4) then count d Fld.ETH_RX_FCS_ERR p else checkMacsec d p l.length b

/-! ## Preemption (R269) -/

/-- Follows ETH_PREEMPT on a port that is up: off, on at once, or a verify exchange. -/
def preemptFollow (d : Ix9) (p : Nat) : Ix9 :=
  if !rflag d Fld.ETH_PREEMPT_EN p || isNative d p || !portUp d p then
    rset (rset d Fld.ETH_PREEMPT_STATUS_ACTIVE p 0) Fld.ETH_PREEMPT_STATUS_VERIFY p 0
  else if rflag d Fld.ETH_PREEMPT_VERIFY_DIS p then preemptOn d p 0
  else if rget d Fld.ETH_PREEMPT_STATUS_VERIFY p = 1 || rget d Fld.ETH_PREEMPT_STATUS_VERIFY p = 2 then d
  else
    let d := rset (rset d Fld.ETH_PREEMPT_STATUS_ACTIVE p 0) Fld.ETH_PREEMPT_STATUS_VERIFY p 1
    emit (updPort d p (fun s => { s with pre := { s.pre with attempts := 0 } })) (.verify p false)

/-- VERIFY_TIME has passed without a respond mPacket: a retry, after the third the exchange has failed. -/
def preemptTimer (d : Ix9) (p : Nat) : Ix9 :=
  if rget d Fld.ETH_PREEMPT_STATUS_VERIFY p != 1 then d
  else if (portOf d p).pre.attempts < 3 then
    emit (updPort d p (fun s => { s with pre := { s.pre with attempts := s.pre.attempts + 1 } })) (.verify p false)
  else rset d Fld.ETH_PREEMPT_STATUS_VERIFY p 3

/-! ## Link up and port modes (R255) -/

/-- An Ethernet port has finished auto-negotiation and training. -/
def ethLinkUp (d : Ix9) (p : Nat) : Ix9 :=
  if isNative d p || !portExists d p then d
  else
    let d := rset (rset d Fld.ETH_STATUS_UP p 1) Fld.ETH_STATUS_AN_DONE p 1
    let d := if rget d Fld.ETH_LS_STATUS_LANES p = 0 then rset d Fld.ETH_LS_STATUS_LANES p (laneWidth d (p / 8)) else d
    preemptFollow d p

/-- An Ethernet port goes down. -/
def ethFall (d : Ix9) (p : Nat) : Ix9 :=
  let d := rset (rset (rset d Fld.ETH_STATUS_UP p 0) Fld.ETH_STATUS_AN_DONE p 0) Fld.ETH_LS_STATUS_LANES p 0
  let d := rset d Fld.ETH_LS_STATUS_RETRAINING p 0
  preemptFollow (updPort d p (fun s => { s with lsTarget := none, shedLow := 0, paused := [], pausing := [] })) p

/-- A write of ETH_GRP_CFG.MODE (R255, R277): every port of the group goes down and sparing stops; native ports of the new
mode begin to train. -/
def grpMode (d : Ix9) (g v : Nat) : Ix9 :=
  if lanesFitted d.code g = 0 then d
  else
    let ports := (List.range 8).map (8 * g + ·)
    let d := ports.foldl (fun d p => if portExists d p then (if isNative d p then linkFall d p else ethFall d p) else d) d
    let d := rset (rset d Fld.ETH_GRP_CFG_MODE g v) Fld.ETH_SPARE_STATUS_BUSY g 0
    let d := { d with net := { d.net with spare := put d.net.spare g {} } }
    ports.foldl (fun d p => if portExists d p && isNative d p then bringUp d p else d) d

/-! ## Lane sparing (R272, R277) -/

def spareOf (d : Ix9) (g : Nat) : Spare := lookD d.net.spare g
def updSpare (d : Ix9) (g : Nat) (f : Spare → Spare) : Ix9 := { d with net := { d.net with spare := updD d.net.spare g f } }

/-- The port that a lane of a group serves. -/
def lanePort (d : Ix9) (g lane : Nat) : Nat := 8 * g + lane / laneWidth d g * laneWidth d g

/-- The lane carries traffic: fitted and not shed. -/
def laneInUse (d : Ix9) (g lane : Nat) : Bool :=
  portExists d (lanePort d g lane) && decide (lane % laneWidth d g < portLanes d (lanePort d g lane))

/-- A trigger of R272. A second one in the group changes nothing but EXHAUSTED; one during a shedding retrain waits
(DEDUCED, log entry 28). -/
def spareTrigger (d : Ix9) (g lane : Nat) : Ix9 :=
  let s := spareOf d g
  if s.busy = some lane || s.wait = some lane then d
  else if rflag d Fld.ETH_SPARE_MAP_USED g || s.busy.isSome || s.wait.isSome then
    (if rflag d Fld.ETH_SPARE_STATUS_EXHAUSTED g then d
     else portEvent (rset d Fld.ETH_SPARE_STATUS_EXHAUSTED g 1) (lanePort d g lane) 3 0)
  else if rflag d Fld.ETH_LS_STATUS_RETRAINING (lanePort d g lane) then updSpare d g (fun s => { s with wait := some lane })
  else rset (updSpare d g (fun s => { s with busy := some lane })) Fld.ETH_SPARE_STATUS_BUSY g 1

/-- A 1 ms window ends: corrected symbols and uncorrectable codewords of each lane. -/
def fecWindow (d : Ix9) (g : Nat) (lanes : List (Nat × Nat × Nat)) : Ix9 :=
  lanes.foldl (fun d (lane, corr, unc) =>
    let d := count (count d Fld.ETH_LANE_CORR (g * 16 + lane) corr) Fld.ETH_LANE_UNCORR (g * 16 + lane) unc
    if 8 ≤ lane then d
    else if !laneInUse d g lane then updSpare d g (fun s => { s with overs := drop (drop s.overs (2 * lane)) (2 * lane + 1) })
    else
      let w := rget d Fld.ETH_SPARE_CFG_WINDOWS g
      let t := (spareOf d g).overs
      let a := if rget d Fld.ETH_SPARE_CFG_THRESH g < corr then num t (2 * lane) + 1 else 0
      let b := if 0 < unc then num t (2 * lane + 1) + 1 else 0
      let d := updSpare d g (fun s => { s with overs := put (put s.overs (2 * lane) a) (2 * lane + 1) b })
      if rflag d Fld.ETH_SPARE_CFG_AUTO g && (w ≤ a || w ≤ b) then spareTrigger d g lane else d) d

/-- A lane's receiver loses lock. -/
def lockLoss (d : Ix9) (g lane : Nat) : Ix9 :=
  if lane < 8 && laneInUse d g lane && rflag d Fld.ETH_SPARE_CFG_AUTO g then spareTrigger d g lane else d

/-- A write of ETH_SPARE_CTRL with REQ. -/
def spareReq (d : Ix9) (g lane : Nat) : Ix9 :=
  let d := rset d Fld.ETH_SPARE_CTRL_LANE g lane
  if portExists d (lanePort d g (lane % 8)) then spareTrigger d g (lane % 8) else d

/-- The spare has adapted: reception and transmission move to it, the failed lane is powered down (steps 3 to 5). -/
def spareDone (d : Ix9) (g : Nat) : Ix9 :=
  match (spareOf d g).busy with
  | none => d
  | some lane =>
    let d := rset (rset (rset d Fld.ETH_SPARE_MAP_FAILED g lane) Fld.ETH_SPARE_MAP_USED g 1) Fld.ETH_SPARE_STATUS_BUSY g 0
    portEvent (updSpare d g (fun s => { s with busy := none, overs := drop (drop s.overs (2 * lane)) (2 * lane + 1) })) (lanePort d g lane) 2 lane

/-! ## Lane shedding (R273, R274) -/

/-- The fewest lanes of a port; values other than 1, 2 and 4 act as 1. -/
def minLanes (d : Ix9) (p : Nat) : Nat :=
  let m := rget d Fld.ETH_LS_MIN_LANES p
  if m = 2 || m = 4 then m else 1

/-- A 100 µs load window ends: bytes sent and received in it. -/
def shedWindow (d : Ix9) (p tx rx : Nat) : Ix9 :=
  if !sheds d p then d
  else
    let load := max tx rx
    let lanes := portLanes d p
    let full := laneWidth d (p / 8)
    if lanes < full && rget d Fld.ETH_LS_RESTORE p * portRate d p < load * 8 then lsRetrain d p full
    else
      let low := load * 16 < rget d Fld.ETH_LS_THRESH p * portRate d p
      let n := if low then (portOf d p).shedLow + 1 else 0
      if rget d Fld.ETH_LS_DWELL p * 10 ≤ n && 1 < lanes && minLanes d p ≤ lanes / 2 then lsRetrain d p (lanes / 2)
      else updPort d p (fun s => { s with shedLow := n })

/-- The link is up at its new width: sending resumes and a sparing that waited starts (R277). -/
def lsDone (d : Ix9) (p : Nat) : Ix9 :=
  match (portOf d p).lsTarget with
  | none => d
  | some n =>
    let d := rset (rset d Fld.ETH_LS_STATUS_RETRAINING p 0) Fld.ETH_LS_STATUS_LANES p n
    let d := portEvent (updPort d p (fun s => { s with lsTarget := none, shedLow := 0 })) p 4 n
    let d := (List.range 8).foldl (fun d lane => shedQueue d p lane) d
    match (spareOf d (p / 8)).wait with
    | some lane =>
      if lanePort d (p / 8) lane = p then spareTrigger (updSpare d (p / 8) (fun s => { s with wait := none })) (p / 8) lane else d
    | none => d

/-! ## Timestamps (R279) -/

/-- An 8-byte read of ETH_TS_SEC: seconds of the head entry, which goes. -/
def tsPop (d : Ix9) (p : Nat) : Ix9 :=
  let s := portOf d p
  emit (updPort d p (fun s => { s with tsFifo := s.tsFifo.drop 1 }))
    (.value (match s.tsFifo with | (_, _, _, sec, _) :: _ => sec % 2 ^ 48 | [] => 0))

/-! ## Wake patterns (R275, R276) -/

/-- Wake causes of a frame (destination address to FCS), in the bit order of ETH_WAKE_STATUS. -/
def wakeFrame (d : Ix9) (l : List Byte) : Nat :=
  let six := List.replicate 6 (255 : Byte)
  let magic := six ++ (List.replicate 16 (beBytes 6 (rget d Fld.ETH_MAC 0))).flatten
  let has := (List.range (l.length - 12)).any (fun i => (l.drop (12 + i)).take magic.length == magic)
  let pat (k : Nat) : Bool :=
    let mask := rget d Fld.WAKE_MASK k
    (List.range 128).all (fun i => !flag mask i || (l[i]?).map (·.toNat) == some (bits (rget d Fld.WAKE_PATTERN k) (8 * i + 7) (8 * i)))
  b2n (has && rflag d Fld.ETH_WAKE_CFG_MAGIC_EN)
    + (List.range 16).foldl (fun a k => a + b2n (flag (rget d Fld.ETH_WAKE_CFG_PAT_EN) k && pat k) * 2 ^ (k + 1)) 0

end Sys2Proof.Machine
end

