-- ==== Sys2Proof/Machine/Quota.lean ====
section
/-!
DEFINITION. Functions and quotas (16_functions_and_sharing.md, R430 to R440) and the units of landing memory (R365 to R367).
-/

namespace Sys2Proof.Machine

/-! ## Counts and totals (R432) -/

/-- RES codes. -/
def rSQ : Nat := 1
def rCQ : Nat := 2
def rEQ : Nat := 3
def rCONN : Nat := 4
def rPIN : Nat := 5
def rLM : Nat := 6
def rHEAT : Nat := 7
def rSEQ : Nat := 8
def rCHAN : Nat := 9
def rWEIGHT : Nat := 10
def rMETER : Nat := 11
def rVECTOR : Nat := 12
def rWIN : Nat := 13
def rPD : Nat := 14

/-- Channels owned by a function (R405). -/
def chansOf (d : Ix9) (f : Nat) : List Nat := (List.range 128).filter (fun c => rget d Fld.STRIDE_CH_CFG_OWNER c == f)

/-- Pins of a function: connections with PIN outside RESET and QUARANTINE (R153, R171). -/
def pinsOf (d : Ix9) (f : Nat) : Nat :=
  (d.c.conns.filter (fun (_, c) => c.owner == f && c.pin && c.state != csRESET && c.state != csQUARANTINE)).length

/-- The amount of a resource that a function has in use (R432). Units taken from it and not yet zeroed count (R367, R436). -/
def quotaUse (d : Ix9) (f r : Nat) : Nat :=
  if r = rSQ then (d.q.sqs.filter (fun (_, s) => s.func == f && !s.admin)).length
  else if r = rCQ then (d.q.cqs.filter (fun (_, s) => s.func == f && !s.admin)).length
  else if r = rEQ then (d.q.eqs.filter (fun (_, s) => s.func == f && !s.admin)).length
  else if r = rCONN then connsOf d f
  else if r = rPIN then pinsOf d f
  else if r = rLM then (lmUnits d f).length + (d.lm.zeroing.filter (fun e => e.2 == f)).length
  else if r = rHEAT then (d.h.groups.filter (fun (_, g) => g.owner == f)).length
  else if r = rSEQ then (d.h.seqs.filter (fun (_, s) => s.owner == f)).length
  else if r = rCHAN then (chansOf d f).length
  else if r = rMETER then (funcOf d f).meterCount
  else if r = rVECTOR then d.q.eqs.foldl (fun a (_, e) => if e.func = f then max a (e.vector + 1) else a) 0
  else if r = rWIN then winsOf d f
  else if r = rPD then (d.c.pds.filter (fun (_, p) => p.1 == f)).length
  else 0

/-- The limit in force (R439): 0 but for VECTOR, which is 1. -/
def quotaLimit (d : Ix9) (f r : Nat) : Nat :=
  if r = rMETER then (funcOf d f).meterCount
  else if r = rCHAN then ((chansOf d f).filter (fun c => !(funcOf d f).chanLeaving.contains c)).length
  else (look (funcOf d f).limit r).getD (if r = rVECTOR then 1 else 0)

/-- Tiles whose pinned arrays count: fitted and not evacuated. -/
def pinTiles (d : Ix9) : Nat :=
  ((List.range (tilesOf d.code)).filter (fun n => !flag (rget d Fld.EVAC_STATUS_EVACUATED) n)).length

/-- Units of the pool, retired ones apart (R362, R365). -/
def poolTotal (d : Ix9) : Nat :=
  (if d.code = 0 then 96256 else if d.code = 1 then 47104 else 0) - d.lm.retired.length

/-- The device total of a resource. -/
def quotaTotal (d : Ix9) (r : Nat) : Nat :=
  if r = rSQ || r = rCQ || r = rPD then 65536
  else if r = rEQ || r = rHEAT || r = rMETER then 4096
  else if r = rCONN then 65536 * rget d Fld.CONN_CFG_BLOCKS
  else if r = rPIN then 4096 * pinTiles d
  else if r = rLM then poolTotal d
  else if r = rSEQ then (if present d uMARATHON then 65536 else 0)
  else if r = rCHAN then 128
  else if r = rWIN then 2 ^ rget d Fld.XLATE_WIN_CFG_LOG2_ENTRIES
  else 0

/-- A function's reservation (R436): the limit, or what is in use above it. -/
def quotaResv (d : Ix9) (f r : Nat) : Nat := max (quotaLimit d f r) (quotaUse d f r)

/-- Functions that may hold anything. -/
def quotaFuncs (d : Ix9) : List Nat := d.funcs.map (·.1)

/-- DEV_FREE (R438): the device total less all reservations. VECTOR and WEIGHT have no shared total. -/
def devFree (d : Ix9) (r : Nat) : Int :=
  if r = rVECTOR || r = rWEIGHT then 0
  else (quotaTotal d r : Int) - (((quotaFuncs d).map (fun f => quotaResv d f r)).foldl (· + ·) 0 : Nat)

/-- R433: the function may have `n` more. -/
def quotaAllows (d : Ix9) (f r n : Nat) : Bool := quotaUse d f r + n ≤ quotaLimit d f r

/-! ## Pending lowerings and events (R436, R437, R440) -/

/-- Type 0x05 event for a function's resource. -/
def quotaEvent (d : Ix9) (f r : Nat) : Ix9 := pf0Event d EV_QUOTA (f + r * 2 ^ 16) (quotaLimit d f r % 2 ^ 32)

/-- Type 0x05 event with CAPACITY (R440). -/
def capacityEvent (d : Ix9) (r : Nat) : Ix9 := pf0Event d EV_QUOTA (noFunc + r * 2 ^ 16 + 2 ^ 31) (quotaTotal d r % 2 ^ 32)

/-- A lowering of the resource is incomplete. -/
def quotaPending (d : Ix9) (f r : Nat) : Bool :=
  if r = rCHAN then !(funcOf d f).chanLeaving.isEmpty else quotaLimit d f r < quotaUse d f r

/-- Clears the pending bits whose lowering has completed, with an event each (R436). -/
def quotaSettle (d : Ix9) : Ix9 :=
  d.funcs.foldl (fun d (f, fn) => fn.pend.foldl (fun d r =>
    if quotaPending d f r then d
    else quotaEvent (updFunc d f (fun fn => { fn with pend := fn.pend.filter (· != r) })) f r) d) d

/-! ## Landing units (R365 to R367, R436) -/

/-- Units of 2 MiB of the fitted stacks, 48 GiB each (R362, R365). -/
def unitCount (d : Ix9) : Nat := if d.code = 0 then 98304 else if d.code = 1 then 49152 else 0

/-- The function that holds a unit, with its place in the function's space. -/
def unitOwner (d : Ix9) (u : Nat) : Option (Nat × Nat) :=
  d.lm.maps.findSome? (fun (f, us) => (findAt us (· == u)).map (fun x => (f, x.1)))

/-- A unit that is not in the free pool: the spill region, held, being zeroed, or retired. -/
def unitTaken (d : Ix9) (u : Nat) : Bool :=
  u < 2048 || (unitOwner d u).isSome || has d.lm.zeroing u || d.lm.retired.contains u

/-- LM_POOL.FREE: zeroed free units. -/
def poolFree (d : Ix9) : Nat := poolTotal d - (d.lm.maps.foldl (fun a m => a + m.2.length) 0) - d.lm.zeroing.length

/-- Appends units to a function's space, each one chosen among the free ones (DESIGN CHOICE, log entry 3). -/
def lmGrow (n : Nat) (d : Ix9) (f : Nat) : Ix9 :=
  match n with
  | 0 => d
  | k + 1 =>
    let (v, d) := draw d
    match pickFree v (unitCount d) (unitTaken d) (unitCount d) with
    | some u => lmGrow k { d with lm := { d.lm with maps := updD d.lm.maps f (· ++ [u]) } } f
    | none => d

/-- The offset range overlaps a unit of a function's space. -/
def inUnit (k off n : Nat) : Bool := off < (k + 1) * unitBytes && k * unitBytes < off + n

/-- A landing buffer of the function lies in unit `k` of its space. -/
def physInUnit (f k : Nat) (p : Phys) (n : Nat) : Bool := p.target = .landing && p.func == f && inUnit k p.addr n

/-- R436: unit `k` of a function's space holds a ring, a fault ring or bitmap, a staging window or a block table. -/
def unitPinned (d : Ix9) (f k : Nat) : Bool :=
  d.q.sqs.any (fun (_, s) => physInUnit f k s.ring.base (16 * 2 ^ s.ring.log2))
    || d.q.cqs.any (fun (_, s) => physInUnit f k s.ring.base (32 * 2 ^ s.ring.log2))
    || d.q.eqs.any (fun (_, s) => physInUnit f k s.ring.base (16 * 2 ^ s.ring.log2))
    || (let c := fctxOf d f
        (c.fqV && c.fqLoc == 1 && inUnit k c.fqBase (32 * 2 ^ c.fqLog2)) || (c.fqV && c.fpLoc == 1 && inUnit k c.fpBase 8192))
    || d.h.seqs.any (fun (_, s) => s.owner == f && inUnit k s.table (8 * s.layers * s.cap))
    || d.h.groups.any (fun (_, g) => g.owner == f &&
        (let w := winOf d g.ep.stageWin
         ((lookD d.x.leaves 0) ++ (lookD d.x.leaves 1)).any (fun l => l.asid == w.asid && l.va < w.base + w.pages * 4096
           && w.base < l.va + l.size && physInUnit f k l.phys l.size)))

/-- Windows whose table entry no longer lies in PF0's space are gone: a unit that comes later reads as zeros (R133, R367). -/
def winTrim (d : Ix9) : Ix9 := { d with x := { d.x with wins := d.x.wins.filter (fun (n, _) => n < winTableSize d) } }

/-- R436: units above the limit leave the top of the space, highest first, as far as they hold no live structure. A unit
marked for retirement is retired, the others are zeroed (R376, R367). -/
def lmTrim (n : Nat) (d : Ix9) (f : Nat) : Ix9 :=
  match n with
  | 0 => d
  | k + 1 =>
    let us := lmUnits d f
    let top := us.length - 1
    if us.length ≤ quotaLimit d f rLM || unitPinned d f top then d
    else
      match us[top]? with
      | none => d
      | some u =>
        let d := winTrim { d with lm := { d.lm with maps := put d.lm.maps f (us.take top) } }
        if d.lm.doomed.contains u then
          lmTrim k (capacityEvent { d with lm := { d.lm with doomed := d.lm.doomed.filter (· != u),
                                                             retired := insertNat d.lm.retired u } } rLM) f
        else lmTrim k { d with lm := { d.lm with zeroing := put d.lm.zeroing u f } } f

/-- Quota invalidations of a function that still run (R436). -/
def quotaInvs (d : Ix9) (f : Nat) : Bool := d.x.invs.any (fun (_, i) => i.by_ = .quota f) || d.x.invWait.any (fun i => i.by_ = .quota f)

/-- A zeroed unit returns to the pool (R367). -/
def unitZeroed (d : Ix9) (u : Nat) : Ix9 :=
  match look d.lm.zeroing u with
  | none => d
  | some _ => quotaSettle (lmZero { d with lm := { d.lm with zeroing := drop d.lm.zeroing u } } (u * unitBytes) unitBytes)

/-- A 64 KiB block has been zeroed in the background after a reset (R379). -/
def blockZeroed (d : Ix9) (b : Nat) : Ix9 := { d with lm := { d.lm with blocks := d.lm.blocks.filter (· != b) } }

end Sys2Proof.Machine
end

