-- ==== Sys2Proof/Machine/Manage.lean ====
section
/-!
DEFINITION. Connections made, changed and destroyed (R154 to R159), protection domains (R160), and the connection cache's
fills and spills (R169 to R175).
-/

namespace Sys2Proof.Machine

/-! ## Attribute blocks (R154, R158, R159) -/

/-- Words of the attribute block that are read only or reserved: ignored by a modify. -/
def wordIgnored (k : Nat) : Bool := k == 6 || 21 ≤ k

/-- R159: states in which a modify may select word `k`: 0x00 only for PIN, 0x24 only for MTU. -/
def wordSettable (k st : Nat) : Bool :=
  if wordIgnored k then true
  else if k = 0 || k = 8 || k = 10 || k = 20 then csINIT ≤ st && st ≤ csDRAIN
  else if k = 3 || k = 4 || k = 7 then st == csINIT
  else if k = 1 then false
  else st == csINIT || st == csREADY_RX

/-- Fields of a word that a modify takes from the block: msb, lsb pairs (R158, R159). -/
def wordFields (k : Nat) : List (Nat × Nat) :=
  if wordIgnored k || k = 1 then []
  else if k = 0 then [(7, 7)]
  else if k = 2 then [(15, 0)]
  else if k = 3 || k = 5 || k = 7 then [(23, 0)]
  else if k = 4 then [(16, 0)]
  else if k = 8 then [(23, 16)]
  else if k = 9 then [(2, 0)]
  else if k = 11 then [(31, 16), (15, 8), (5, 0)]
  else if k = 16 then [(16, 8), (3, 0)]
  else if k = 18 then [(31, 0)]
  else if k = 19 then [(19, 0)]
  else if k = 20 then [(11, 0)]
  else [(31, 0)]

/-- Sets the selected words of a connection from a block; 0 takes the default in RNR_HINT and WINDOW_BYTES,
at a modify as at a create (R155; DEDUCED, log entry 64). -/
def applyWords (c : Conn) (mask block : Nat) : Conn :=
  let c := (List.range 24).foldl (fun c k =>
    if flag mask k then (wordFields k).foldl (fun c (m, l) => c.set (4 * k) m l (bits block (32 * k + m) (32 * k + l))) c else c) c
  let c := if c.rnrHint = 0 then c.set 0x20 23 16 8 else c
  let c := if c.windowBytes = 0 then c.set 0x28 31 0 (256 * 1024) else c
  if flag mask 5 then c.set 0x18 23 0 c.txPsn else c

/-- The documented state a create gives a connection: every word of the block. -/
def createDoc (block owner incarn : Nat) : Conn :=
  let c : Conn := { doc := 0 }
  let c := (List.range 10).foldl (fun c i => c.set 0 (i) (i) (bits block i i)) c
  let c := ((c.set 0 2 0 csINIT).set 0 25 16 owner).set 4 23 0 (bits block 55 32)
  let c := (c.set 4 31 24 incarn).set 0x24 23 16 (bits block (0x24 * 8 + 23) (0x24 * 8 + 16))
  applyWords c 0xFFFFFF block

/-- The largest frame of a RoCEv2-compatible connection with ENC (R267, R414). -/
def encFrame (d : Ix9) (c : Conn) : Nat := c.mtu + 130 + (if rflag d Fld.ETH_MACSEC_CFG_EN c.netPort then 32 else 0)

/-- R154 order 10: every attribute lies in its range, R260 and R414 included. -/
def attrsOk (d : Ix9) (c : Conn) : Bool :=
  1 ≤ c.lane && c.get 0x24 2 0 ≤ (if c.roce then 4 else 5)
    && 8192 ≤ c.windowBytes && c.windowBytes ≤ 2 ^ 24 && c.windowBytes % 4096 == 0
    && (!c.roce ||
        (let i := c.netPort * 4096 + c.get 0x40 15 8
         rflag d Fld.ETH_LOCAL_V i && rget d Fld.ETH_LOCAL_IPV6 i == c.get 0x40 16 16))
    && (!c.enc || (if c.roce then encFrame d c ≤ rget d Fld.ETH_CFG_MAX_FRAME c.netPort else c.get 0x24 2 0 ≤ 4))

/-- R165: the queue can serve as the receive queue of a connection of `f` homed on `tile`; 0xFFFF names none. -/
def rqOk (d : Ix9) (rq f tile : Nat) : Bool :=
  rq == 0xFFFF || (match sqAt d rq with
    | some s => s.func == f && s.tile == tile && !s.everStarted && !s.admin && s.dying.isNone
    | none => false)

/-- The named queue becomes a receive queue (R165). -/
def bindRq (d : Ix9) (rq : Nat) : Ix9 :=
  if rq = 0xFFFF then d else updSq d rq (fun s => { s with isRq := true, paused := none })

/-- Lets a create or modify wait for a way or a fill; it is tried again when the cache changes. -/
def connWait (d : Ix9) (n k slot : Nat) : Ix9 :=
  if d.c.waiters.contains (n, k, slot) then d else { d with c := { d.c with waiters := d.c.waiters ++ [(n, k, slot)] } }

/-- The attribute block an entry has read. -/
def Entry.block (e : Entry) : Nat := match e.src.head? with | some (_, b) => leNat b | none => 0

/-- The tile's pinned array has a free entry (R171). -/
def pinRoom (d : Ix9) (tile : Nat) : Bool :=
  countPlace d tile .pinned + (d.c.pinFill.filter (fun n => homeTile d n == tile)).length < 4096

/-- Creates and modifies that wait for a way of a connection's set (R170, R171), and fills that do: all of them come first. -/
def wantsAhead (d : Ix9) (n : Nat) : Nat :=
  (d.c.fillq.filter (fun x => homeTile d x == homeTile d n && setOf x == setOf n && !fillsPinned d x)).length
    + (d.c.waiters.filter (fun (x, _, _) => homeTile d x == homeTile d n && setOf x == setOf n
        && (placeOf d x == none || placeOf d x == some .pinned))).length

/-! ## Create (R154) -/

/-- A number in RESET. -/
def connFree (d : Ix9) (n : Nat) : Bool := !has d.c.conns n

/-- The blocks in use that are homed on a tile. -/
def homeBlocks (d : Ix9) (tile : Nat) : List Nat :=
  (List.range (rget d Fld.CONN_CFG_BLOCKS)).filter (fun b => rget d Fld.CONN_STEER_HOME b == tile)

/-- R499: a block's origin is the tile it has at reset; a connection may be created in it from a queue of the same origin. -/
def sameOrigin (d : Ix9) (s : Sq) (b : Nat) : Bool := resetHome d.code b == s.origin

/-- A free number in a block homed on the queue's tile; which one is free (DESIGN CHOICE, log entry 3). -/
def chooseConn (d : Ix9) (s : Sq) : Ix9 × Option Nat :=
  let bs := (homeBlocks d s.tile).filter (sameOrigin d s)
  let (v, d) := draw d
  match pickFree v (65536 * bs.length) (fun i => !connFree d ((bs[i / 65536]?).getD 0 * 65536 + i % 65536)) (d.c.conns.length + 1) with
  | some i => (d, some ((bs[i / 65536]?).getD 0 * 65536 + i % 65536))
  | none => (d, none)

/-- Orders 7 to 12 of R154: none where they pass, else status and cause. -/
def createCheck (d : Ix9) (s : Sq) (block : Nat) : Option (Nat × Nat) :=
  let c := createDoc block s.func 0
  if c.enc && !present d uCIPHER then some (ST_UNIT_ABSENT, 0)
  else
    match look d.c.pds c.pd with
    | none => some (ST_BAD_ENTRY, 0x56)
    | some (f, asid) =>
      if f != s.func then some (ST_BAD_ENTRY, 0x56)
      else if asid != s.asid then some (ST_BAD_ENTRY, 0x52)
      else if !attrsOk d c then some (ST_BAD_ENTRY, 0x54)
      else if !rqOk d c.rq s.func s.tile then some (ST_BAD_ENTRY, 0x57)
      else if c.pin && !quotaAllows d s.func rPIN 1 then some (ST_QUOTA, 0x01)
      else none

/-- The connection is made in INIT in its home tile's cache or pinned array (R150 row 1, R154). -/
def makeConn (d : Ix9) (n k slot : Nat) (s : Sq) (block : Nat) : Ix9 :=
  let inc := (num d.c.incarn n + 1) % 256
  let c := createDoc block s.func inc
  let c := { c with pacer := pacerInit d c }
  let d := { d with c := { d.c with conns := put d.c.conns n c, incarn := put d.c.incarn n inc } }
  let d := touch (setPlace d n (if c.pin then .pinned else .cached)) n
  endEntry (bindRq d c.rq) k slot ST_OK 0 96 (n + inc * 2 ^ 24)

/-- Carries out a create whose block has been read; it may have to wait for a way (R170). -/
def createTry (d : Ix9) (k slot : Nat) : Ix9 :=
  match sqAt d k, entryAt d k slot with
  | some s, some e =>
    if !(e.stage = .started && e.op = 0x16 && e.phase = 1) then d
    else
      let block := e.block
      match createCheck d s block with
      | some (st, cause) => endEntry d k slot st cause
      | none =>
        let c := createDoc block s.func 0
        let pick : Ix9 × Option Nat :=
          if e.object != 0xFFFFFF then (d, if connFree d e.object then some e.object else none)
          else if e.pos != 0 && connFree d (e.pos - 1) then (d, some (e.pos - 1))
          else chooseConn d s
        match pick with
        | (d, none) => if e.object != 0xFFFFFF then endEntry d k slot ST_BAD_ENTRY 0x55 else endEntry d k slot ST_QUOTA 0x20
        | (d, some n) =>
          if c.pin then (if pinRoom d s.tile then makeConn d n k slot s block else endEntry d k slot ST_QUOTA 0x20)
          else
            match makeWay d n (wantsAhead d n) with
            | (d, true) => makeConn d n k slot s block
            | (d, false) => connWait (updEntry d k slot (fun e => { e with pos := n + 1 })) n k slot
  | _, _ => d

/-- Reads the attribute block of a started create or modify; none where the entry has ended or waits. -/
def readBlock (m : List Host.Cell) (d : Ix9) (op k slot : Nat) (r : ReadData) : Ix9 × Bool :=
  match startedEntry d op k slot with
  | none => (d, false)
  | some (_, e) =>
    match readSegs m d ((e.bufs.head?.map (·.segs)).getD []) r with
    | .own => (d, false)
    | .ok b => (updEntry d k slot (fun e => { e with src := [(0, b)], phase := 1 }), true)
    | .poisoned _ => (endEntry d k slot ST_DATA_POISON, false)
    | .fail _ => (endEntry d k slot ST_BUS_ERROR, false)
    | .domainDown => (endEntry d k slot ST_BUS_ERROR, false)

/-- OP_CONN_CREATE. -/
def connCreate (m : List Host.Cell) (d : Ix9) (k slot : Nat) (r : ReadData) : Ix9 :=
  match readBlock m d 0x16 k slot r with
  | (d, true) => createTry d k slot
  | (d, false) => d

/-! ## Modify (R155, R159) -/

/-- R150: whether a modify may ask for the state `dest`. -/
def transition (from_ dest : Nat) : Bool :=
  dest == 7 || dest == from_ || (dest == 2 && from_ == 1) || (dest == 3 && (from_ == 2 || from_ == 4)) || (dest == 4 && from_ == 3)
    || (dest == 5 && csINIT ≤ from_ && from_ ≤ csDRAIN)

/-- QUERY: the documented part goes to the buffer with a destination acknowledgement. -/
def queryWrite (d : Ix9) (n k slot : Nat) : Ix9 :=
  match entryAt d k slot with
  | none => d
  | some e =>
    if !flag e.opflags 0 then d
    else
      let segs := ((e.bufs[1]?).map (·.segs)).getD []
      let d := (writeSegs d segs (leBytes 96 (connOf d n).doc)).1
      (pathsOf d segs).foldl (fun d p => needDest (updEntry d k slot (fun e => { e with acks := e.acks + 1, bytes := 96 })) p (.entry k slot)) d

/-- Moves a connection between the set-associative cache and the pinned array (R171); false: no way is free. -/
def movePin (d : Ix9) (n : Nat) (pin : Bool) : Ix9 × Bool :=
  match placeOf d n with
  | some .pinned => if pin then (d, true) else
      (match makeWay d n (wantsAhead d n) with
       | (d, true) => (touch (setPlace d n .cached) n, true)
       | r => r)
  | _ => if pin then (setPlace d n .pinned, true) else (d, true)

/-- Changes the state of a connection as a modify asks (R150) and ends the entry. -/
def modifyState (d : Ix9) (n k slot dest : Nat) : Ix9 :=
  let from_ := (connOf d n).state
  let done (d : Ix9) : Ix9 :=
    let d := queryWrite d n k slot
    match entryAt d k slot with
    | some e => issuedEntry d k slot ST_OK 0 e.bytes 0
    | none => d
  if dest = 7 || dest = from_ then done d
  else if dest = 5 then done (enterError d n 5 none true)
  else if dest = 4 then
    let d := queryWrite (setState d n 4) n k slot
    drainDone (updConn d n (fun c => { c with waiter := c.waiter ++ [(k, slot)] })) n
  else done (setState d n dest)

/-- R411, R422: a connection with ENC needs its peer's incarnation and its tenant's key to leave INIT (DEDUCED, log entry 53). -/
def keyMissing (d : Ix9) (c : Conn) (dest : Nat) : Bool := dest == 2 && c.state == csINIT && c.enc && (c.peerIncarn.isNone || (rootKey d c).isNone)

/-- A modify of the connection that started before this one has not taken effect (R155). -/
def modifyBehind (d : Ix9) (n k slot : Nat) : Bool :=
  (d.c.modq.takeWhile (fun x => x != (n, k, slot))).any (fun (x, k2, s2) => x == n
    && (entryAt d k2 s2).any (fun e => e.op == 0x17 && e.stage = .started && e.phase < 2))

/-- The fill that a modify waits for goes to the pinned array where the modify sets PIN and may (R171, R178). -/
def pinAsked (d : Ix9) (s : Sq) (e : Entry) : Ix9 :=
  let n := e.object
  if flag e.oparg1 0 && flag e.block 7 && !fillsPinned d n && placeOf d n != some .filling && quotaAllows d s.func rPIN 1
      && pinRoom d (homeTile d n) then
    { d with c := { d.c with pinFill := n :: d.c.pinFill } }
  else d

/-- Carries out a modify whose block has been read. It waits for its turn and while the state is not cached (R155) (DEDUCED, log entry 53). -/
def modifyTry (d : Ix9) (k slot : Nat) : Ix9 :=
  match sqAt d k, entryAt d k slot with
  | some s, some e =>
    if !(e.stage = .started && e.op = 0x17 && e.phase = 1) then d
    else
      let n := e.object
      let c := connOf d n
      let mask := e.oparg1 % 2 ^ 24
      let dest := e.oparg0 % 8
      if c.state = csRESET || c.state = csQUARANTINE || c.owner != s.func then endEntry d k slot ST_BAD_ENTRY 0x51
      else if modifyBehind d n k slot then connWait d n k slot
      else if !cachedConn d n then connWait (startFill (pinAsked d s e) n) n k slot
      else if !transition c.state dest || (List.range 24).any (fun w => flag mask w && !wordSettable w c.state) then
        endEntry d k slot ST_BAD_ENTRY 0x53
      else
        let c2 := applyWords c mask e.block
        let newPin := c2.pin && !c.pin
        if (List.range 24).any (fun w => flag mask w && !wordIgnored w) && !attrsOk d c2 then endEntry d k slot ST_BAD_ENTRY 0x54
        else if flag mask 2 && !rqOk d c2.rq s.func (homeTile d n) then endEntry d k slot ST_BAD_ENTRY 0x57
        else if keyMissing d c dest then endEntry d k slot ST_KEY_UNAVAILABLE 1
        else if newPin && !quotaAllows d s.func rPIN 1 then endEntry d k slot ST_QUOTA 0x01
        else if newPin && !pinRoom d (homeTile d n) then endEntry d k slot ST_QUOTA 0x20
        else
          match movePin d n c2.pin with
          | (d, false) => connWait d n k slot
          | (d, true) =>
            let d := updEntry (updConn d n (fun _ => c2)) k slot (fun e => { e with phase := 2 })
            let d := if flag mask 2 then bindRq d c2.rq else d
            modifyState (quotaSettle d) n k slot dest
  | _, _ => d

/-- OP_CONN_MODIFY. -/
def connModify (m : List Host.Cell) (d : Ix9) (k slot : Nat) (r : ReadData) : Ix9 :=
  match readBlock m d 0x17 k slot r with
  | (d, true) => modifyTry d k slot
  | (d, false) => d

/-- Tries again the creates and modifies that wait for a way or a fill. -/
def retryWaiters (d : Ix9) : Ix9 :=
  let ws := d.c.waiters
  ws.foldl (fun d (_, k, slot) => modifyTry (createTry d k slot) k slot) { d with c := { d.c with waiters := [] } }

/-! ## Destroy (R156) -/

/-- OP_CONN_DESTROY: R151 from READY_RX to DRAIN, then QUARANTINE; it completes by `drainDone`. -/
def connDestroy (d : Ix9) (k slot : Nat) : Ix9 :=
  match startedEntry d 0x18 k slot with
  | some (s, e) =>
    let n := e.object
    let c := connOf d n
    if c.state = csRESET || c.state = csQUARANTINE || c.owner != s.func then endEntry d k slot ST_BAD_ENTRY 0x51
    else
      let d := if csREADY_RX ≤ c.state && c.state ≤ csDRAIN then enterError d n 5 none true else d
      let d := updEntry (quotaSettle (toQuarantine d n false false)) k slot (fun e => { e with phase := 1 })
      drainDone (updConn d n (fun c => { c with waiter := c.waiter ++ [(k, slot)] })) n
  | none => d

/-! ## Protection domains (R160) -/

/-- A PD is named by a connection or a window. -/
def pdNamed (d : Ix9) (pd : Nat) : Bool :=
  d.c.conns.any (fun (_, c) => c.state != csRESET && c.pd == pd) || d.x.wins.any (fun (_, w) => (w.v || w.quar) && w.pd == pd)

/-- OP_PD_CREATE. The number of a new domain is a free value (DESIGN CHOICE, log entry 3). -/
def opPdCreate (d : Ix9) (k slot : Nat) : Ix9 :=
  match startedEntry d 0x67 k slot with
  | some (s, e) =>
    if flag e.opflags 0 then
      match look d.c.pds e.object with
      | none => endEntry d k slot ST_BAD_ENTRY 0x56
      | some (f, _) =>
        if parentPf f != s.func || pdNamed d e.object then endEntry d k slot ST_BAD_ENTRY 0x56
        else
          let d := { d with c := { d.c with pds := drop d.c.pds e.object } }
          endEntry (quotaSettle d) k slot ST_OK 0 0 e.object
    else
      let f := e.oparg1 % 1024
      if !mayUse d f (e.object % 2 ^ 20) then endEntry d k slot ST_XLATE_PERM
      else if !quotaAllows d f rPD 1 then endEntry d k slot ST_QUOTA 0x01
      else
        let (v, d) := draw d
        match pickFree v (2 ^ 24) (has d.c.pds) (d.c.pds.length + 1) with
        | none => endEntry d k slot ST_QUOTA 0x01
        | some n => endEntry { d with c := { d.c with pds := put d.c.pds n (f, e.object % 2 ^ 20) } } k slot ST_OK 0 0 n
  | none => d

/-! ## Fills and spills (R172 to R175) -/

/-- The 256 bytes of a spilled state hold the poison marker (R369). -/
def spillPoisoned (d : Ix9) (n : Nat) : Bool := spillLanding d && lmPoisoned d (spillAddr d n) 256

/-- A fill has brought the state back: the Pacer takes the periods it missed (R208), what waits goes on. A state that was
discarded meanwhile goes (R178). A fill that ended with poison, a bus error or a completion timeout resets the transport engine of the
home tile (R172, R371). -/
def connFilled (d : Ix9) (n : Nat) (good : Bool) : Ix9 :=
  if placeOf d n != some .filling then d
  else if (connOf d n).discarded then retryWaiters (retryFills (dropPlace d n))
  else if !good || spillPoisoned d n then askReset d { level := 3, tile := homeTile d n, engine := 1 }
  else
    let d := setPlace d n (if fillsPinned d n then .pinned else .cached)
    let d := { d with c := { d.c with fillAt := drop d.c.fillAt n, pinFill := d.c.pinFill.filter (· != n) } }
    let d := touch (pacerFill d n) n
    retryWaiters (retryFills (runParked d n))

/-- A connection that was filled into the pinned array for a modify that has ended otherwise returns to its set (R171). -/
def unpinStray (d : Ix9) : Ix9 :=
  ((d.c.place.filter (fun (n, p) => p == .pinned && !(connOf d n).pin && !d.c.waiters.any (fun w => w.1 == n))).map (·.1)).foldl
    (fun d n => (movePin d n false).1) d

/-- A spill write has been accepted. -/
def connSpilled (d : Ix9) (n : Nat) : Ix9 :=
  if placeOf d n != some .spilling then d
  else
    let d := if (connOf d n).discarded then dropPlace d n else setPlace d n .spilled
    let d := { d with c := { d.c with lru := d.c.lru.filter (· != n) } }
    let d := if spillLanding d then { d with lm := { d.lm with
        poison := d.lm.poison.filter (fun w => !(spillAddr d n ≤ w * 64 && w * 64 < spillAddr d n + 256)) } } else d
    retryWaiters (retryFills (if (parkedOf d n).isEmpty then d else startFill d n))

/-- CONN_QUARANTINE has elapsed: the number returns to RESET (R150 row 14). -/
def connQuarantineEnd (d : Ix9) (n : Nat) : Ix9 :=
  if (connOf d n).state != csQUARANTINE then d
  else
    let d := dropPlace d n
    quotaSettle (retryWaiters (retryFills { d with c := { d.c with conns := drop d.c.conns n } }))

end Sys2Proof.Machine
end

