-- ==== Sys2Proof/Machine/Arith.lean ====
section
/-!
DEFINITION. Number formats and reduction arithmetic (11_reduction_arithmetic.md): the encodings of R309 to R311, rounding
(R318 to R321), the operators of R313 and R315, the accumulators of R322 and R325 to R329.
-/

namespace Sys2Proof.Machine

/-! ## Values -/

/-- A value a floating or integer encoding stands for: (-1)^neg * m * 2^e. -/
inductive Val where
  | nan
  | inf (neg : Bool)
  | fin (neg : Bool) (m : Nat) (e : Int)
  deriving DecidableEq, Repr, Inhabited

/-- Codes beyond R309: the accumulators INT64 and the 96-bit sum of R328. -/
def FMT_INT64 : Nat := 0x10
def FMT_Q96 : Nat := 0x11

/-- Exponent bits, fraction bits and bias of a floating format (R309). -/
def fmtShape (c : Nat) : Nat × Nat × Nat :=
  if c = 0 then (11, 52, 1023) else if c = 1 then (8, 23, 127) else if c = 2 then (8, 7, 127) else if c = 3 then (5, 10, 15)
  else if c = 4 then (4, 3, 7) else if c = 5 then (5, 2, 15) else if c = 6 then (3, 2, 3) else (2, 1, 1)

def fmtFloat (c : Nat) : Bool := c < 8
def fmtInf (c : Nat) : Bool := c < 4 || c == 5

/-- Elements and bytes of a format block (R309). -/
def blockElems (c : Nat) : Nat := if c = 6 then 4 else if c = 7 then 32 else 1
def blockSize (c : Nat) : Nat :=
  if c = 0 then 8 else if c = 1 then 4 else if c = 2 || c = 3 then 2 else if c = 4 || c = 5 then 1 else if c = 6 then 3
  else if c = 7 then 17 else if c = 8 then 4 else if c = 9 then 1 else if c = FMT_INT64 then 8 else 12

/-- Bytes of `n` elements. -/
def sizeOf_ (c n : Nat) : Nat := ceilDiv n (blockElems c) * blockSize c

/-- Width of an integer format in bits. -/
def intWidth (c : Nat) : Nat := if c = 8 then 32 else if c = 9 then 8 else if c = FMT_INT64 then 64 else 96

/-- The canonical NaN of R310. -/
def canonNan (c : Nat) : Nat :=
  if c = 0 then 0x7FF8000000000000 else if c = 1 then 0x7FC00000 else if c = 2 then 0x7FC0 else if c = 3 then 0x7E00
  else if c = 4 then 0x7F else if c = 5 then 0x7E else 0x7FF8000000000000

/-- The value of a code of a floating format of one element (R310). -/
def decodeFp (c b : Nat) : Val :=
  let (eb, fb, bias) := fmtShape c
  let neg := flag b (eb + fb)
  let ex := b / 2 ^ fb % 2 ^ eb
  let fr := b % 2 ^ fb
  if ex = 2 ^ eb - 1 && fmtInf c then (if fr = 0 then .inf neg else .nan)
  else if c = 4 && ex = 15 && fr = 7 then .nan
  else if ex = 0 then .fin neg fr (1 - (bias : Int) - fb)
  else .fin neg (2 ^ fb + fr) ((ex : Int) - bias - fb)

/-- The value of an element's code. An FMT_E2M1 element is held as the binary64 code of its scaled value, which is exact. -/
def decode (c b : Nat) : Val :=
  if c < 7 then decodeFp c b
  else if c = 7 then decodeFp 0 b
  else
    let i := signed (intWidth c) b
    .fin (i < 0) i.natAbs 0

/-- The largest finite magnitude of a floating format as m, e. -/
def maxFinite (c : Nat) : Nat × Int :=
  let (eb, fb, bias) := fmtShape c
  if fmtInf c then (2 ^ (fb + 1) - 1, ((2 ^ eb - 2 : Nat) : Int) - bias - fb)
  else ((if c = 4 then 2 ^ (fb + 1) - 2 else 2 ^ (fb + 1) - 1), ((2 ^ eb - 1 : Nat) : Int) - bias - fb)

/-- m * 2^e compared with n * 2^f: strictly greater. -/
def dyGt (m : Nat) (e : Int) (n : Nat) (f : Int) : Bool :=
  let g := min e f
  decide (n * 2 ^ (f - g).toNat < m * 2 ^ (e - g).toNat)

/-- floor(log2) of m * 2^e, m above 0. -/
def dyLog (m : Nat) (e : Int) : Int := e + Nat.log2 m

/-- The multiple of 2^q next to m * 2^e: nearest even, or as the random bits of R320 choose. -/
def roundMul (rnd : Option Nat) (m : Nat) (e q : Int) : Nat :=
  if q ≤ e then m * 2 ^ (e - q).toNat
  else
    let sh := (q - e).toNat
    let n := m / 2 ^ sh
    let r := m % 2 ^ sh
    if r = 0 then n
    else
      match rnd with
      | some b => if b / 2 ^ 32 % 2 ^ 32 < r * 2 ^ 32 / 2 ^ sh then n + 1 else n
      | none => if 2 ^ sh < 2 * r || (2 * r = 2 ^ sh && n % 2 = 1) then n + 1 else n

/-- The code of sign, n * 2^q, where n is at most 2^(fraction bits + 1). -/
def packFp (c : Nat) (neg : Bool) (n : Nat) (q : Int) : Nat :=
  let (eb, fb, bias) := fmtShape c
  let (n, q) := if n = 2 ^ (fb + 1) then (2 ^ fb, q + 1) else (n, q)
  let mag := if n < 2 ^ fb then n else (q + fb + bias).toNat * 2 ^ fb + (n - 2 ^ fb)
  b2n neg * 2 ^ (eb + fb) + mag

def infCode (c : Nat) (neg : Bool) : Nat :=
  let (eb, fb, _) := fmtShape c
  b2n neg * 2 ^ (eb + fb) + (2 ^ eb - 1) * 2 ^ fb

/-- Rounds a value to a floating format of one element (R318, R320): the code, and whether it saturated. -/
def roundFp (c : Nat) (rnd : Option Nat) (v : Val) : Nat × Bool :=
  let (_, fb, bias) := fmtShape c
  let (mm, me) := maxFinite c
  match v with
  | .nan => (canonNan c, false)
  | .inf s => if fmtInf c then (infCode c s, false) else (packFp c s mm me, true)
  | .fin s 0 _ => (packFp c s 0 0, false)
  | .fin s m e =>
    if !fmtInf c && dyGt m e mm me then (packFp c s mm me, true)
    else
      let q := max (dyLog m e) (1 - (bias : Int)) - fb
      let n := if fmtInf c && dyGt m e mm me then roundMul none m e q else roundMul rnd m e q
      if fmtInf c && dyGt n q mm me then (infCode c s, false) else (packFp c s n q, false)

/-- Saturates an integer to a format (R321). -/
def roundInt (c : Nat) (i : Int) : Nat × Bool :=
  let w := intWidth c
  let hi : Int := (2 ^ (w - 1) : Nat) - 1
  let lo : Int := -((2 ^ (w - 1) : Nat) : Int)
  if hi < i then (unsigned w hi, true) else if i < lo then (unsigned w lo, true) else (unsigned w i, false)

/-- An integer value. -/
def Val.toInt : Val → Int
  | .fin s m e => (if s then -1 else 1) * ((m * 2 ^ e.toNat / 2 ^ (-e).toNat : Nat) : Int)
  | _ => 0

/-! ## Exact operations -/

def Val.isNan : Val → Bool
  | .nan => true
  | _ => false

def Val.neg : Val → Bool
  | .nan => false
  | .inf s => s
  | .fin s _ _ => s

/-- The exact sum; an exact zero sum is -0 only if both are (R318). -/
def addV : Val → Val → Val
  | .nan, _ => .nan
  | _, .nan => .nan
  | .inf a, .inf b => if a = b then .inf a else .nan
  | .inf a, _ => .inf a
  | _, .inf b => .inf b
  | .fin a m e, .fin b n f =>
    let g := min e f
    let x : Int := (if a then -1 else 1) * ((m * 2 ^ (e - g).toNat : Nat) : Int)
    let y : Int := (if b then -1 else 1) * ((n * 2 ^ (f - g).toNat : Nat) : Int)
    let z := x + y
    if z = 0 then .fin (a && b) 0 0 else .fin (z < 0) z.natAbs g

def mulV : Val → Val → Val
  | .nan, _ => .nan
  | _, .nan => .nan
  | .inf a, .inf b => .inf (a != b)
  | .inf a, .fin b n _ => if n = 0 then .nan else .inf (a != b)
  | .fin a m _, .inf b => if m = 0 then .nan else .inf (a != b)
  | .fin a m e, .fin b n f => .fin (a != b) (m * n) (e + f)

/-- x strictly below y in the order of R313, where -0 is below +0; neither is NaN. -/
def ltV : Val → Val → Bool
  | .inf a, .inf b => a && !b
  | .inf a, _ => a
  | _, .inf b => !b
  | .fin a m e, .fin b n f =>
    if a && !b then true
    else if !a && b then false
    else if a then dyGt m e n f
    else dyGt n f m e
  | _, _ => false

def maxV (x y : Val) : Val := if x.isNan || y.isNan then .nan else if ltV x y then y else x
def minV (x y : Val) : Val := if x.isNan || y.isNan then .nan else if ltV y x then y else x

/-! ## FP32 operations on codes -/

def fadd (a b : Nat) : Nat := (roundFp 1 none (addV (decode 1 a) (decode 1 b))).1
def fmul (a b : Nat) : Nat := (roundFp 1 none (mulV (decode 1 a) (decode 1 b))).1
def fmax (a b : Nat) : Nat := (roundFp 1 none (maxV (decode 1 a) (decode 1 b))).1
def fneg (a : Nat) : Nat := a ^^^ 0x80000000
def fsub (a b : Nat) : Nat := if (decode 1 b).isNan then canonNan 1 else fadd a (fneg b)

/-- The quotient rounded to nearest even: a sticky bit stands for the rest of the division. -/
def fdiv (a b : Nat) : Nat :=
  match decode 1 a, decode 1 b with
  | .nan, _ => canonNan 1
  | _, .nan => canonNan 1
  | .inf _, .inf _ => canonNan 1
  | .inf s, .fin t _ _ => infCode 1 (s != t)
  | .fin s _ _, .inf t => packFp 1 (s != t) 0 0
  | .fin s m e, .fin t n f =>
    if n = 0 then (if m = 0 then canonNan 1 else infCode 1 (s != t))
    else
      let q := m * 2 ^ 64 / n
      let r := if m * 2 ^ 64 % n = 0 then 0 else 1
      (roundFp 1 none (.fin (s != t) (2 * q + r) (e - f - 65))).1

def negInf : Nat := 0xFF800000

/-- exp_ix9 (R316). -/
def expIx9 (x : Nat) : Nat :=
  match decode 1 x with
  | .nan => canonNan 1
  | .inf _ => if flag x 31 then 0 else Config.expIx9 x % 2 ^ 32
  | .fin _ 0 _ => 0x3F800000
  | _ => Config.expIx9 x % 2 ^ 32

/-! ## LSE-merge (R315, R331) -/

/-- D of LSE_DIM. -/
def lseD (k : Nat) : Nat := if k = 0 then 64 else if k = 1 then 128 else 256

def nanRec (p : List Nat) : Bool :=
  match decode 1 (p.headD 0) with
  | .nan => true
  | .inf s => !s
  | _ => (decode 1 ((p[1]?).getD 0)).isNan

/-- Merges two records of FP32 words. -/
def lseMerge (p q : List Nat) : List Nat :=
  if nanRec p || nanRec q then p.map (fun _ => canonNan 1)
  else if p.headD 0 = negInf && q.headD 0 = negInf then negInf :: (p.drop 1).map (fun _ => 0)
  else
    let m := fmax (p.headD 0) (q.headD 0)
    let sp := expIx9 (fsub (p.headD 0) m)
    let sq := expIx9 (fsub (q.headD 0) m)
    m :: (p.drop 1).zipWith (fun x y => fadd (fmul x sp) (fmul y sq)) (q.drop 1)

/-! ## Blocks in memory (R311, R319) -/

/-- Cuts a list into runs of `n`; `fuel` bounds the runs. -/
def runs {α : Type} (fuel n : Nat) (l : List α) : List (List α) :=
  match fuel with
  | 0 => []
  | k + 1 => if l.isEmpty || n = 0 then [] else l.take n :: runs k n (l.drop n)

def chunksOf {α : Type} (n : Nat) (l : List α) : List (List α) := runs (l.length + 1) n l

/-- The elements of one block as codes. -/
def readBlk (c : Nat) (b : List Byte) : List Nat :=
  if c = 6 then (List.range 4).map (fun i => leNat b / 2 ^ (6 * i) % 64)
  else if c = 7 then
    let x := leNat (b.drop 16)
    (List.range 32).map (fun i =>
      if x = 255 then canonNan 0
      else
        match decodeFp 7 (leNat (b.take 16) / 2 ^ (4 * i) % 16) with
        | .fin s m e => (roundFp 0 none (.fin s m (e + x - 127))).1
        | _ => 0)
  else [leNat b]

/-- The elements of a buffer as codes. -/
def readElems (c : Nat) (b : List Byte) : List Nat := (chunksOf (blockSize c) b).flatMap (readBlk c)

/-- E of R319 for a group of magnitudes that are not all 0 or NaN. -/
def mxExp (l : List Val) : Int :=
  let am := l.foldl (fun a v => match a, v with
    | .fin _ m e, .fin _ n f => if dyGt n f m e then Val.fin false n f else a
    | .fin .., .inf _ => .fin false 3 128
    | a, _ => a) (Val.fin false 0 0)
  match am with
  | .fin _ 0 _ => -127
  | .fin _ m e => max (-127) (min 127 (dyLog m e - 2))
  | _ => -127

/-- Rounds a group of 32 to one FMT_E2M1 block (R319): binary64 codes, and how many saturated. `rnd` gives the random
bits of R320 by place in the group. -/
def roundMx (rnd : Nat → Option Nat) (l : List Val) : List Nat × Nat :=
  if l.any Val.isNan then (l.map (fun _ => canonNan 0), 0)
  else
    let ex := mxExp l
    let r := (List.range l.length).zipWith (fun i v =>
      let w : Val := match v with | .fin s m e => .fin s m (e - ex) | v => v
      let (c, sat) := roundFp 7 (rnd i) w
      match decodeFp 7 c with
      | .fin s m e => ((roundFp 0 none (.fin s m (e + ex))).1, sat)
      | _ => (0, sat)) l
    (r.map (·.1), (r.filter (·.2)).length)

/-- The bytes of one block. -/
def writeBlk (c : Nat) (l : List Nat) : List Byte :=
  if c = 6 then leBytes 3 ((List.range 4).foldl (fun a i => a + (l[i]?).getD 0 % 64 * 2 ^ (6 * i)) 0)
  else if c = 7 then
    let vs := l.map (decode 7)
    if vs.any Val.isNan then List.replicate 16 0 ++ [255]
    else
      let ex := mxExp vs
      let code (v : Val) : Nat := (roundFp 7 none (match v with | .fin s m e => .fin s m (e - ex) | v => v)).1
      leBytes 16 ((List.range 32).foldl (fun a i => a + code ((vs[i]?).getD (.fin false 0 0)) * 2 ^ (4 * i)) 0) ++ leBytes 1 (ex + 127).toNat
  else leBytes (blockSize c) (l.headD 0)

/-- The bytes of a run of elements. -/
def writeElems (c : Nat) (l : List Nat) : List Byte := (chunksOf (blockElems c) l).flatMap (writeBlk c)

/-! ## A reducing Heat's fields -/

/-- What the arithmetic of a Heat needs (R287). -/
structure Red where
  oper : Nat
  mode : Nat
  rnd : Bool
  nanFail : Bool
  fin : Nat
  fout : Nat
  seed : Nat
  /-- Words of a record, for OPER 7. -/
  rec_ : Nat
  deriving DecidableEq, Repr

/-- The format in which partials travel (R322, R325, R328, R332). -/
def Red.part (r : Red) : Nat :=
  if r.oper = 7 then 1
  else if r.oper = 1 || r.oper = 2 || 4 ≤ r.oper then r.fin
  else if r.mode = 2 then FMT_Q96
  else if r.mode = 1 then r.fin
  else if r.fin = 0 || r.fin = 1 then 0
  else if r.fin = 9 then 8
  else if r.fin = 8 then FMT_INT64
  else 1

/-- Elements that stay together: a block of both formats, a record of OPER 7 (DEDUCED, log entry 35). -/
def Red.unit (r : Red) : Nat := if r.oper = 7 then r.rec_ else max (blockElems r.fin) (blockElems r.fout)

/-- R314: the combination of fields is allowed. -/
def Red.allowed (r : Red) (op : Nat) : Bool :=
  let fl := fmtFloat r.fin
  let combo :=
    if r.oper = 7 then r.fin == 1 && (r.mode == 0 || r.mode == 3) && r.fout == 1 && (op == 0x20 || op == 0x23)
    else if 4 ≤ r.oper then (r.fin == 8 || r.fin == 9) && r.mode ≤ 1 && r.fout == r.fin
    else if r.oper = 1 || r.oper = 2 then r.mode ≤ 1 && r.fout == r.fin
    else if fl then
      (if r.mode = 0 || r.mode = 3 then fmtFloat r.fout
       else if r.mode = 1 then r.fout == r.fin
       else r.oper == 0 && r.fin != 0 && fmtFloat r.fout && r.fout != 0)
    else r.oper == 0 && ((r.mode == 0 && (if r.fin = 9 then r.fout == 9 || r.fout == 8 else r.fout == 8)) || (r.mode == 1 && r.fout == r.fin))
  r.fin < 10 && r.fout < 10 && r.oper < 8 && combo
    && (!r.rnd || ((r.oper == 0 || r.oper == 3) && 4 ≤ r.fout && r.fout ≤ 7))

/-- sr_bits of R320. -/
def srBits (seed idx stage : Nat) : Nat :=
  let w := 2 ^ 64
  let z := (seed + 0x9E3779B97F4A7C15 * (idx + 1) + stage * 2 ^ 48) % w
  let z := (z ^^^ (z / 2 ^ 30)) * 0xBF58476D1CE4E5B9 % w
  let z := (z ^^^ (z / 2 ^ 27)) * 0x94D049BB133111EB % w
  z ^^^ (z / 2 ^ 31)

/-- The random bits for an element at a rounding, where RND asks for them. -/
def Red.bits (r : Red) (idx stage : Nat) : Option Nat := if r.rnd then some (srBits r.seed idx stage) else none

/-- What a rounding reports: saturated elements, NaNs, and the abort cause of R331. -/
structure Noted where
  sat : Nat := 0
  nan : Nat := 0
  abort : Option Nat := none
  deriving DecidableEq, Repr

def Noted.add (a b : Noted) : Noted := ⟨a.sat + b.sat, a.nan + b.nan, match a.abort with | some c => some c | none => b.abort⟩

/-- What R331 makes of NaN results among `l` in format `c`. -/
def Red.noteNan (r : Red) (c : Nat) (l : List Val) : Noted :=
  let n := (l.filter Val.isNan).length
  if n = 0 then {} else if r.nanFail then { abort := some 0x20 } else if c = 6 then { abort := some 0x21 } else { nan := n }

/-- Rounds values to a format; `idx` is the place of the first in the source layout (R320). -/
def Red.roundTo (r : Red) (c idx stage : Nat) (l : List Val) : List Nat × Noted :=
  let note := r.noteNan c l
  if c = 7 then
    let gs := (List.range (ceilDiv l.length 32)).map (fun g => roundMx (fun i => r.bits (idx + 32 * g + i) stage) ((l.drop (32 * g)).take 32))
    (gs.flatMap (·.1), { note with sat := gs.foldl (fun a g => a + g.2) 0 })
  else
    let f (i : Nat) (v : Val) : Nat × Bool := if fmtFloat c then roundFp c (r.bits (idx + i) stage) v else roundInt c v.toInt
    let rs := (List.range l.length).zipWith f l
    (rs.map (·.1), { note with sat := (rs.filter (·.2)).length })

/-- An input element's code in the accumulator's format (R317, R322). ANCHORED inputs become FP32 first (R326). -/
def Red.convert (r : Red) (b : Nat) : Nat :=
  let p := r.part
  if p = r.fin then b
  else if p = FMT_Q96 then (roundFp 1 none (decode r.fin b)).1
  else if fmtFloat p then (roundFp p none (decode r.fin b)).1
  else (roundInt p (decode r.fin b).toInt).1

/-- Combines partials of the same elements; `idx` is the place of the first, `lap` the Lap (R313, R315, R322, R325)
(DEDUCED, log entry 35). -/
def Red.combine (r : Red) (idx lap : Nat) (x y : List Nat) : List Nat × Noted :=
  let p := r.part
  if r.oper = 7 then
    (((chunksOf r.rec_ x).zipWith lseMerge (chunksOf r.rec_ y)).flatMap id, {})
  else if 4 ≤ r.oper then
    (x.zipWith (fun a b => if r.oper = 4 then a &&& b else if r.oper = 5 then a ||| b else a ^^^ b) y, {})
  else if p = FMT_Q96 then (x.zipWith (fun a b => (a + b) % 2 ^ 96) y, {})
  else
    let f (a b : Nat) : Val :=
      let u := decode p a
      let v := decode p b
      if r.oper = 0 then addV u v else if r.oper = 1 then maxV u v else if r.oper = 2 then minV u v else mulV u v
    let vs := x.zipWith f y
    if r.mode = 1 && (r.oper = 0 || r.oper = 3) then r.roundTo p idx (lap + 1) vs
    else
      let r0 : Red := { r with rnd := false, nanFail := false }
      ((r0.roundTo p idx 0 vs).1, {})

/-- The Anchor's rounding of partials to FMT_OUT (R318 to R321, R331). NARROW partials are rounded already. -/
def Red.anchor (r : Red) (idx : Nat) (x : List Nat) : List Nat × Noted :=
  let p := r.part
  if r.oper = 7 then
    (x.map (fun a => if (decode 1 a).isNan then canonNan 1 else a), r.noteNan 1 (x.map (decode 1)))
  else if p = r.fout && r.mode = 1 && (r.oper = 0 || r.oper = 3) then (x, {})
  else if p = r.fout then (x.map (fun a => if fmtFloat p && (decode p a).isNan then canonNan p else a), if fmtFloat p then r.noteNan p (x.map (decode p)) else {})
  else r.roundTo r.fout idx 0 (x.map (decode p))

/-! ## ANCHORED (R326 to R329) -/

/-- The local anchor byte of a block of FP32 codes. -/
def anchorByte (l : List Nat) : Nat :=
  let vs := l.map (decode 1)
  if vs.any (fun v => match v with | .fin .. => false | _ => true) then 0xFF
  else
    let ex := vs.foldl (fun (a : Int) v => match v with
      | .fin _ 0 _ => a
      | .fin _ m e => max a (dyLog m e)
      | _ => a) (-126)
    (ex + 126).toNat

/-- q of R327 as a 96-bit code, and whether bits were lost. -/
def anchorQ (a b : Nat) : Nat × Bool :=
  match decode 1 b with
  | .fin s m e =>
    let sh : Int := e + 77 - ((a : Int) - 126)
    let n := if 0 ≤ sh then m * 2 ^ sh.toNat else m / 2 ^ (-sh).toNat
    let lost := sh < 0 && m % 2 ^ (-sh).toNat != 0
    (unsigned 96 (if s then -(n : Int) else n), lost)
  | _ => (0, false)

/-- The exact value S * 2^(A - 77) of a sum under anchor `a`; an exact zero is +0 (R318). -/
def anchorVal (a b : Nat) : Val :=
  let s := signed 96 b
  .fin (s < 0) s.natAbs (((a : Int) - 126) - 77)

/-- Rounds the sums of a run of anchor blocks (R328, R329). `idx` is a multiple of 32. -/
def Red.anchorRound (r : Red) (anchors : List Nat) (idx : Nat) (x : List Nat) : List Nat × Noted :=
  let vs := (List.range x.length).zipWith (fun i b =>
    let a := (anchors[(idx + i) / 32]?).getD 0
    if a = 0xFF then Val.nan else anchorVal a b) x
  let (l, n) := r.roundTo r.fout idx 0 vs
  (l, match n.abort with | some 0x20 => { n with abort := some 0x22 } | _ => n)

end Sys2Proof.Machine
end

