-- ==== Sys2Proof/Machine/Mara.lean ====
section
/-!
DEFINITION. What a Marathon island computes (12_marathon_engine.md, R337 to R351): block rows in landing memory, the
attention of one query row over one block, the finish of a row.
-/

namespace Sys2Proof.Machine

/-! ## Shapes (R340, R345) -/

/-- Bytes of one token's vector (R340). -/
def tokBytes (fmt dim : Nat) : Nat := if fmt = 7 then lseD dim / 32 * 17 else lseD dim * blockSize fmt

/-- Bytes of a KV block. -/
def kvBlock (s : SeqObj) : Nat := 512 * tokBytes s.fmt s.dim

/-- Bytes of a block row. -/
def kvRow (s : SeqObj) : Nat := s.heads * kvBlock s

/-- Query rows of a request: q * H * G. -/
def attRows (s : SeqObj) (a : Att) : Nat := a.q * s.heads * a.g

/-- Offset of a block table entry (R341). -/
def tableEntry (s : SeqObj) (layer j : Nat) : Nat := s.table + 8 * (layer * s.cap + j)

/-- Why an attention request cannot read its rows: the offset of a table entry (R341), or how the memory failed (R359). -/
inductive AttErr where
  | row (entry : Nat)
  | poison
  | bus
  deriving DecidableEq, Repr

/-- A block row of the shard, from landing memory (R341). -/
def shardRow (m : List Host.Cell) (d : Ix9) (s : SeqObj) (layer j : Nat) : Sum AttErr (List Byte) :=
  let off := tableEntry s layer j
  match lmRead m d s.owner off 8 with
  | .ok b =>
    let e := leNat b
    let at_ := bits e 37 8 * 256
    if !flag e 0 || lmSpace d s.owner < at_ + kvRow s then .inl (.row off)
    else
      match lmRead m d s.owner at_ (kvRow s) with
      | .ok b => .inr b
      | .poisoned _ => .inl .poison
      | _ => .inl .bus
  | .poisoned _ => .inl .poison
  | _ => .inl .bus

/-! ## One query row and one block (R347, R349, R350) -/

/-- R347: a key at position k is allowed for a query at position p (DEDUCED, log entry 36). -/
def maskAllows (mask window p k : Nat) : Bool :=
  if mask = 1 then k ≤ p else if mask = 2 then p < k + window && k ≤ p else true

/-- The fixed pairwise tree of R350; the number of values is a power of two of at most 2^fuel. -/
def treeSum (fuel : Nat) (l : List Val) : Nat :=
  match fuel with
  | 0 => (roundFp 1 none (l.headD (.fin false 0 0))).1
  | n + 1 =>
    match l with
    | [] => 0
    | [v] => (roundFp 1 none v).1
    | l => treeSum n ((chunksOf 2 l).map (fun p => match p with
        | [a, b] => decode 1 (roundFp 1 none (addV a b)).1
        | a :: _ => a
        | [] => .fin false 0 0))

def dotTree (q k : List Val) : Nat := treeSum 9 (q.zipWith mulV k)

/-- Format of the probabilities (R349): BF16, E4M3, or E2M1 with P4. -/
def probFmt (qFmt kvFmt : Nat) (p4 : Bool) : Nat :=
  if qFmt = 4 || qFmt = 5 then (if kvFmt = 4 || kvFmt = 5 then 4 else if kvFmt = 7 then (if p4 then 7 else 4) else 2) else 2

/-- round_p of R350 over the keys of a block. -/
def roundP (pf : Nat) (l : List Nat) : List Val :=
  if pf = 7 then (chunksOf 32 l).flatMap (fun g => (roundMx (fun _ => none) (g.map (decode 1))).1.map (decode 7))
  else l.map (fun x => decode pf (roundFp pf none (decode 1 x)).1)

/-- att_block of R350 on a record m, l, O; none where nothing is allowed. -/
def attBlock (pf scale : Nat) (allowed : Nat → Bool) (q : List Val) (ks vs : List (List Val)) (row : List Nat) : Option (List Nat) :=
  let s := (List.range ks.length).zipWith (fun j k => if allowed j then fmul (dotTree q k) scale else negInf) ks
  let bm := s.foldl fmax negInf
  if bm = negInf then none
  else
    let m := fmax (row.headD negInf) bm
    let c := expIx9 (fsub (row.headD negInf) m)
    let p := roundP pf ((List.range s.length).zipWith (fun j x => if allowed j then expIx9 (fsub x m) else 0) s)
    let l := fadd (fmul ((row[1]?).getD 0) c) (treeSum 9 p)
    let o := (List.range (row.length - 2)).zipWith (fun e x =>
      fadd (fmul x c) (treeSum 9 (p.zipWith (fun pj v => mulV pj ((v[e]?).getD (.fin false 0 0))) vs))) (row.drop 2)
    some (m :: l :: o)

/-- A row that nothing has been added to (R350). -/
def freshRow (dim : Nat) : List Nat := negInf :: List.replicate (lseD dim + 1) 0

/-- The vectors of one half of a block. -/
def vectors (fmt dim : Nat) (b : List Byte) : List (List Val) :=
  (chunksOf (tokBytes fmt dim) b).map (fun t => (readElems fmt t).map (decode fmt))

/-- What an island's pass over a shard leaves: records, blocks read, blocks skipped. -/
structure Pass where
  recs : List (List Nat)
  blocks : Nat := 0
  skipped : Nat := 0
  deriving DecidableEq, Repr

/-- One block row of a shard of `tokens` tokens from position `first`, for every query row (R345, R350). -/
def passRow (s : SeqObj) (a : Att) (tokens first j : Nat) (qs : List (List Val)) (bytes : List Byte) (p : Pass) : Pass :=
  let pf := probFmt a.qFmt s.fmt a.p4
  let kv (h : Nat) : List (List Val) × List (List Val) :=
    let b := (bytes.drop (h * kvBlock s)).take (kvBlock s)
    (vectors s.fmt s.dim (b.take (kvBlock s / 2)), vectors s.fmt s.dim (b.drop (kvBlock s / 2)))
  let kvs := (List.range s.heads).map kv
  let out := (List.range p.recs.length).zipWith (fun r row =>
    let i := r / (s.heads * a.g)
    let (ks, vs) := (kvs[r / a.g % s.heads]?).getD ([], [])
    let ok (t : Nat) : Bool := 256 * j + t < tokens && maskAllows a.mask a.window (a.qPos + i) (first + 256 * j + t)
    match attBlock pf a.scale ok ((qs[r]?).getD []) ks vs row with
    | some x => (x, 0)
    | none => (row, 1)) p.recs
  { recs := out.map (·.1), blocks := p.blocks + s.heads, skipped := p.skipped + (out.foldl (fun n x => n + x.2) 0) }

/-- Some query row of the request may use a key of block row j (R350). -/
def rowUsed (a : Att) (tokens first j : Nat) : Bool :=
  (List.range a.q).any (fun i => (List.range 256).any (fun t =>
    256 * j + t < tokens && maskAllows a.mask a.window (a.qPos + i) (first + 256 * j + t)))

/-- An island's pass over its blocks of a shard, in rising row order (R337, R350) (DEDUCED, log entry 36). -/
def islandPass (s : SeqObj) (a : Att) (tokens first : Nat) (row : Nat → Sum AttErr (List Byte)) (qs : List (List Val)) :
    List Nat → Pass → Sum AttErr Pass
  | [], p => .inr p
  | j :: js, p =>
    if !rowUsed a tokens first j then islandPass s a tokens first row qs js { p with skipped := p.skipped + p.recs.length }
    else
      match row j with
      | .inl e => .inl e
      | .inr b => islandPass s a tokens first row qs js (passRow s a tokens first j qs b p)

/-- The block rows that an island computes: j with j mod 4 the island (R337). -/
def islandRows (tokens island : Nat) : List Nat := (List.range (ceilDiv tokens 256)).filter (fun j => j % 4 == island)

/-- The query rows of a buffer (R345). -/
def queryRows (s : SeqObj) (a : Att) (b : List Byte) : List (List Val) :=
  (chunksOf (lseD s.dim * blockSize a.qFmt) b).map (fun r => (readElems a.qFmt r).map (decode a.qFmt))

/-- Merges the islands' records in island order (R337). -/
def mergeIslands (l : List (List (List Nat))) : List (List Nat) :=
  match l with
  | [] => []
  | x :: r => r.foldl (fun a b => a.zipWith lseMerge b) x

/-- A finished row (R351): its elements in OUT_FMT, empty, NaN. -/
def finishRow (outFmt : Nat) (row : List Nat) : List Nat × Bool × Bool :=
  let l := (row[1]?).getD 0
  if row.any (fun x => (decode 1 x).isNan) then ((row.drop 2).map (fun _ => canonNan outFmt), false, true)
  else if l % 2 ^ 31 = 0 then ((row.drop 2).map (fun _ => 0), true, false)
  else ((row.drop 2).map (fun x => (roundFp outFmt none (decode 1 (fdiv x l))).1), false, false)

/-- The output bytes of a request (R351), with the counts of empty rows and of NaN rows. -/
def attOutput (a : Att) (recs : List (List Nat)) : List Byte × Nat × Nat :=
  if a.part then (recs.flatMap (writeElems 1), 0, 0)
  else
    let rs := recs.map (finishRow a.outFmt)
    (rs.flatMap (fun r => writeElems a.outFmt r.1), (rs.filter (·.2.1)).length, (rs.filter (·.2.2)).length)

/-- Header of a scatter request (R355). -/
def scatterHeader (s : SeqObj) (a : Att) (home : Nat) : List Byte :=
  leBytes 4 s.tag ++ leBytes 1 a.layer ++ leBytes 1 s.dim ++ leBytes 1 (s.heads - 1) ++ leBytes 1 (a.g - 1) ++ leBytes 2 (a.q - 1)
  ++ leBytes 1 a.qFmt ++ leBytes 1 (a.mask + b2n a.p4 * 4 + b2n a.ordered * 8) ++ leBytes 3 a.qPos ++ leBytes 3 a.window
  ++ leBytes 4 a.scale ++ leBytes 2 home ++ leBytes 8 0

/-- The Baton stream of the shard (R356): header and block rows for LAYER. -/
def batonStream (m : List Host.Cell) (d : Ix9) (s : SeqObj) (a : Att) (bib : Nat) : Sum AttErr (List Byte) :=
  let head := leBytes 4 (bib % 2 ^ 16) ++ leBytes 4 (s.first % 2 ^ 24) ++ leBytes 4 (a.tokens % 2 ^ 24) ++ leBytes 20 0
  (List.range (ceilDiv a.tokens 256)).foldl (fun acc j =>
    match acc with
    | .inl e => .inl e
    | .inr b => (match shardRow m d s a.layer j with
        | .inl e => .inl e
        | .inr r => .inr (b ++ r))) (.inr head)

end Sys2Proof.Machine
end

