-- ==== Sys2Proof/Machine/Heat.lean ====
section
/-!
DEFINITION. The collective engine (10_collectives.md): the Laps of each algorithm (R293, R294), how a Heat's data moves
(R295, R296, R298), its arithmetic, its output and finish Laps (R300 to R302), and aborts (R303 to R305).
-/

namespace Sys2Proof.Machine

/-! ## Names -/

def heatKey (group epoch seq : Nat) : Nat := (group * 256 + epoch) * 65536 + seq

/-- Keys from here on are local Marathon requests. -/
def localBase : Nat := 2 ^ 40

/-- Origin of control messages sent as writes (R297): no Heat has this key. -/
def ctrlBase : Nat := 2 ^ 50

def heatAt (d : Ix9) (key : Nat) : Option Heat := look d.h.heats key

def updHeat (d : Ix9) (key : Nat) (g : Heat → Heat) : Ix9 := { d with h := { d.h with heats := upd d.h.heats key g } }

def updGroup (d : Ix9) (g : Nat) (f : Group → Group) : Ix9 := { d with h := { d.h with groups := upd d.h.groups g f } }

/-- Opcodes that reduce (R288), the scatter of R354 among them. -/
def reducing (op : Nat) : Bool := op == 0x20 || op == 0x21 || op == 0x23 || op == 0x30

def Heat.red (h : Heat) : Red := ⟨h.oper, h.mode, h.rnd == 1, h.nanFail, h.fin, h.fout, h.seed, lseD h.lseDim + 2⟩

/-- Elements of the source layout of R288. -/
def Heat.total (h : Heat) : Nat := if h.op = 0x21 || h.op = 0x22 || h.op = 0x25 then h.ep.n * h.count else h.count

/-- The sum's blocks have anchors (R326). -/
def Heat.q96 (h : Heat) : Bool := reducing h.op && h.red.part == FMT_Q96

/-- Order of Laps: the anchor Laps 0x8000 + k come before Lap 0 (R326). -/
def lapOrd (lap : Nat) : Nat := if 0x8000 ≤ lap && lap < 0xFFFE then lap - 0x8000 else 0x10000 + lap

/-- Member data of a Bib; none where the table has no connection. -/
def GroupEp.peer (g : GroupEp) (bib : Nat) : Option Member :=
  match g.table[bib]? with
  | some x => if x.conn = 0xFFFFFF then none else some x
  | none => none

/-! ## Plans (R294) -/

def treeDepth (r : Nat) : Nat := Nat.log2 (r + 1)

/-- A numbering of the members as a tree: number of a Bib and Bib of a number. -/
structure Shape where
  n : Nat
  off : Nat
  flip : Bool
  deriving DecidableEq, Repr

def Shape.num (t : Shape) (b : Nat) : Nat := if t.flip then t.n - 1 - b else (b + t.n - t.off) % t.n
def Shape.bib (t : Shape) (r : Nat) : Nat := if t.flip then t.n - 1 - r else (r + t.off) % t.n
def Shape.parent (t : Shape) (b : Nat) : Option Nat := if t.num b = 0 then none else some (t.bib ((t.num b - 1) / 2))
def Shape.children (t : Shape) (b : Nat) : List Nat :=
  ([2 * t.num b + 1, 2 * t.num b + 2].filter (· < t.n)).map t.bib

/-- Depth of tree 0 (R294). -/
def depthOf (n : Nat) : Nat := Nat.log2 n

def Heat.tree0 (h : Heat) : Shape := ⟨h.ep.n, 0, false⟩
def Heat.tree1 (h : Heat) : Shape := ⟨h.ep.n, 0, true⟩
def Heat.rooted (h : Heat) : Shape := ⟨h.ep.n, h.root, false⟩

/-- The up half of a tree: Laps `base` to base + D - 1. -/
def upXfers (t : Shape) (me base : Nat) (sp : Space) (lo hi : Nat) : List Xfer :=
  let dep := treeDepth (t.num me)
  let D := depthOf t.n
  if hi ≤ lo then []
  else
    (t.children me).map (fun c => ({ lap := base + D - 1 - dep, peer := c, send := false, space := sp, lo := lo, hi := hi } : Xfer))
    ++ (match t.parent me with
        | some p => [{ lap := base + D - dep, peer := p, send := true, space := sp, lo := lo, hi := hi }]
        | none => [])

/-- The down half of a tree: Laps `base` to base + D - 1. -/
def downXfers (t : Shape) (me base : Nat) (sp : Space) (lo hi : Nat) : List Xfer :=
  let dep := treeDepth (t.num me)
  if hi ≤ lo then []
  else
    (match t.parent me with
     | some p => [{ lap := base + dep - 1, peer := p, send := false, space := sp, lo := lo, hi := hi }]
     | none => [])
    ++ (t.children me).map (fun c => ({ lap := base + dep, peer := c, send := true, space := sp, lo := lo, hi := hi } : Xfer))

/-- Elements of a ring block (R294) and block `j`'s range. -/
def ringBlock (h : Heat) : Nat :=
  if h.op = 0x21 || h.op = 0x22 then h.count else roundUp (ceilDiv h.count h.ep.n) h.red.unit
def blockRange (h : Heat) (j : Nat) : Nat × Nat := (min h.total (j * ringBlock h), min h.total ((j + 1) * ringBlock h))

def Heat.next (h : Heat) : Nat := (h.ep.bib + 1) % h.ep.n
def Heat.prev (h : Heat) : Nat := (h.ep.bib + h.ep.n - 1) % h.ep.n

/-- Block `b - k` of a ring. -/
def ringBack (h : Heat) (k : Nat) : Nat := (h.ep.bib + (k + 1) * h.ep.n - k) % h.ep.n

/-- Ring Laps: in Lap base + k this member sends block b - k - s and receives block b - k - s - 1 (DEDUCED, log entry 34). -/
def ringXfers (h : Heat) (base s : Nat) (sp : Space) : List Xfer :=
  (List.range (h.ep.n - 1)).flatMap (fun k =>
    let (a, b) := blockRange h (ringBack h (k + s))
    let (e, f) := blockRange h (ringBack h (k + s + 1))
    (if a < b then [({ lap := base + k, peer := h.next, send := true, space := sp, lo := a, hi := b } : Xfer)] else [])
    ++ (if e < f then [{ lap := base + k, peer := h.prev, send := false, space := sp, lo := e, hi := f }] else []))

/-- A chain along the ring: this member stands at position `p` of 0 to N - 1 (DEDUCED, log entry 34). -/
def chainXfers (h : Heat) (p : Nat) (sp : Space) : List Xfer :=
  (if p + 1 < h.ep.n then [({ lap := p, peer := h.next, send := true, space := sp, lo := 0, hi := h.count } : Xfer)] else [])
  ++ (if 0 < p then [{ lap := p - 1, peer := h.prev, send := false, space := sp, lo := 0, hi := h.count }] else [])

/-- H of R294. -/
def halfOf (h : Heat) : Nat := min h.count (roundUp (ceilDiv h.count 2) h.red.unit)

/-- Anchor blocks of the source (R326). -/
def anchorCount (h : Heat) : Nat := ceilDiv h.total 32

/-- The anchor Laps (R326). -/
def anchorPlan (h : Heat) : List Xfer :=
  if !h.q96 then []
  else
    let D := depthOf h.ep.n
    let half := ceilDiv (anchorCount h) 2
    upXfers h.tree0 h.ep.bib 0x8000 .anchor 0 half ++ upXfers h.tree1 h.ep.bib 0x8000 .anchor half (anchorCount h)
    ++ downXfers h.tree0 h.ep.bib (0x8000 + D) .anchor 0 half ++ downXfers h.tree1 h.ep.bib (0x8000 + D) .anchor half (anchorCount h)

/-- The transfers of a Heat at this member, every Lap (R294). -/
def planOf (h : Heat) : List Xfer :=
  let n := h.ep.n
  let me := h.ep.bib
  let D := depthOf n
  if n = 1 then []
  else anchorPlan h ++
    (if h.op = 0x20 then
       (if h.alg = 1 then ringXfers h 0 1 .partial_ ++ ringXfers h (n - 1) 0 .result
        else if h.alg = 3 then
          upXfers h.tree0 me 0 .partial_ 0 h.count
          ++ [{ lap := D, peer := 0, send := me = 0, space := .result, lo := 0, hi := h.count, mc := true }]
        else if h.mode = 3 then upXfers h.tree0 me 0 .partial_ 0 h.count ++ downXfers h.tree0 me D .result 0 h.count
        else
          upXfers h.tree0 me 0 .partial_ 0 (halfOf h) ++ upXfers h.tree1 me 0 .partial_ (halfOf h) h.count
          ++ downXfers h.tree0 me D .result 0 (halfOf h) ++ downXfers h.tree1 me D .result (halfOf h) h.count)
     else if h.op = 0x21 then ringXfers h 0 1 .partial_
     else if h.op = 0x22 then ringXfers h 0 0 .result
     else if h.op = 0x23 then
       (if h.alg = 1 then chainXfers h ((me + n - h.root + n - 1) % n) .partial_ else upXfers h.rooted me 0 .partial_ 0 h.count)
     else if h.op = 0x24 then
       (if h.alg = 1 then chainXfers h ((me + n - h.root) % n) .result
        else if h.alg = 3 then [{ lap := D, peer := h.root, send := me = h.root, space := .result, lo := 0, hi := h.count, mc := true }]
        else downXfers h.rooted me D .result 0 h.count)
     else if h.op = 0x25 then
       (List.range (n - 1)).flatMap (fun k =>
         let dest := (me + k + 1) % n
         let fr := (me + n - k - 1) % n
         [{ lap := k, peer := dest, send := true, space := .result, lo := dest * h.count, hi := (dest + 1) * h.count },
          { lap := k, peer := fr, send := false, space := .result, lo := fr * h.count, hi := (fr + 1) * h.count }])
     else if h.op = 0x26 then
       (List.range (n - 1)).flatMap (fun k =>
         let dest := (me + k + 1) % n
         let fr := (me + n - k - 1) % n
         let s := (h.counts[dest]?).getD (0, 0, 0, 0)
         let r := (h.counts[fr]?).getD (0, 0, 0, 0)
         [{ lap := k, peer := dest, send := true, space := .result, lo := s.1, hi := s.1 + s.2.1 },
          { lap := k, peer := fr, send := false, space := .result, lo := r.2.2.1, hi := r.2.2.1 + r.2.2.2 }])
     else if h.op = 0x30 then
       downXfers h.rooted me 0 .query 0 (max 1 ((h.data.map (·.length)).getD 1)) ++ upXfers h.rooted me D .partial_ 0 h.count
     else if h.op = 0x31 then
       (List.range (n - 1)).flatMap (fun k =>
         [{ lap := k, peer := h.next, send := true, space := .baton, lo := 0, hi := 0, known := false },
          { lap := k, peer := h.prev, send := false, space := .baton, lo := 0, hi := 32, known := false }])
     else [])

/-- Ranges whose Anchor this member is (R323). -/
def anchorRanges (h : Heat) : List (Nat × Nat) :=
  let me := h.ep.bib
  let all := [(0, h.count)]
  let l :=
    if h.op = 0x20 then
      (if h.ep.n = 1 then all
       else if h.alg = 1 then [blockRange h me]
       else if h.alg = 3 || h.mode = 3 then (if me = 0 then all else [])
       else (if me = 0 then [(0, halfOf h)] else []) ++ (if me + 1 = h.ep.n then [(halfOf h, h.count)] else []))
    else if h.op = 0x21 then [(me * h.count, (me + 1) * h.count)]
    else if h.op = 0x23 then (if me = h.root then all else [])
    else []
  l.filter (fun r => r.1 < r.2)

/-- Bibs that R304 step 2 calls neighbours. -/
def neighbours (h : Heat) : List Nat :=
  let me := h.ep.bib
  let near (t : Shape) : List Nat := (match t.parent me with | some p => [p] | none => []) ++ t.children me
  let ring := [h.prev, h.next]
  let l :=
    if h.op = 0x25 || h.op = 0x26 then List.range h.ep.n
    else if h.op = 0x27 then near h.tree0
    else if h.op = 0x30 then near h.rooted
    else if h.op = 0x31 || h.op = 0x21 || h.op = 0x22 || h.alg = 1 then ring
    else if h.op = 0x20 && h.alg = 2 && h.mode != 3 then near h.tree0 ++ near h.tree1
    else if h.op = 0x20 then near h.tree0
    else near h.rooted
  ((l.filter (fun b => b != me)).foldl insertNat [])

/-! ## Control messages (R297) -/

/-- The 24 bytes of a control message. -/
def Ctrl.encode (c : Ctrl) : List Byte :=
  leBytes 1 c.kind ++ leBytes 1 c.status ++ leBytes 1 c.cause ++ leBytes 1 c.epoch ++ leBytes 4 c.tag ++ leBytes 2 c.seq
  ++ leBytes 2 c.lap ++ leBytes 2 c.sender ++ leBytes 2 c.origin ++ leBytes 4 c.a ++ leBytes 4 c.b

def ctrlOf (l : List Byte) : Ctrl :=
  ⟨fieldLE l 0 1, fieldLE l 1 1, fieldLE l 2 1, fieldLE l 3 1, fieldLE l 4 4, fieldLE l 8 2, fieldLE l 10 2, fieldLE l 12 2,
   fieldLE l 14 2, fieldLE l 16 4, fieldLE l 20 4⟩

/-- A connection that control messages and writes of a Heat may use. -/
def connLive (d : Ix9) (n : Nat) : Bool :=
  let st := (connOf d n).state
  csREADY_RX ≤ st && st ≤ csDRAIN

/-- Sends a control message to a Bib: HEAT_CTRL, or a write into window 0xFFFFFF on a MODE 1 connection. -/
def ctrlTo (d : Ix9) (g : GroupEp) (bib : Nat) (c : Ctrl) : Ix9 :=
  match g.peer bib with
  | none => d
  | some p =>
    let b := ({ c with epoch := g.epoch, tag := g.tag, sender := g.bib } : Ctrl).encode
    if !connLive d p.conn then d
    else if (connOf d p.conn).roce then
      let k := d.h.nextLocal
      postMsg { d with h := { d.h with nextLocal := k + 1 } } p.conn
        { org := .heat ctrlBase k, op := 0x11, inl := some b, window := 0xFFFFFF, total := 24 }
    else answer d p.conn (.ctrl b)

/-- Sends a control message by multicast (R298, R304). -/
def ctrlMc (d : Ix9) (g : GroupEp) (mcg : Nat) (c : Ctrl) : Ix9 :=
  let b := ({ c with epoch := g.epoch, tag := g.tag, sender := g.bib } : Ctrl).encode
  sendMc d ⟨mcg, 0, 0, 0, 0x11, 2, 0, 0, 0, 24, true, true, false, false, none, b, 0, true, 0, 0, 0⟩ none

/-! ## Ready Laps and lateness (R299, R300) -/

def Xfer.before (x y : Xfer) : Bool := lapOrd x.lap < lapOrd y.lap

/-- Sends of earlier Laps than `lap` are posted. -/
def sentBefore (h : Heat) (lap : Nat) : Bool := h.xfers.all (fun x => !x.send || x.done || lapOrd lap ≤ lapOrd x.lap)

/-- LAP_WINDOW of a group in µs (R299). -/
def lapWindow (d : Ix9) (g : GroupEp) : Nat := if g.lapWin = 0 then rget d Fld.COLL_LAP_WINDOW else g.lapWin

/-- The member is ready for a Lap from now on: its window begins (R299, R300). -/
def readyLap (d : Ix9) (h : Heat) (lap : Nat) : Heat :=
  if has h.readyAt lap then h
  else { h with readyAt := put h.readyAt lap d.now, windowEnd := put h.windowEnd lap (d.el + 1000 * lapWindow d h.ep) }

/-- Notes the Laps that have become ready. -/
def noteReady (d : Ix9) (key : Nat) : Ix9 :=
  updHeat d key (fun h => h.xfers.foldl (fun h x => if !x.send && sentBefore h x.lap then readyLap d h x.lap else h) h)

/-- The input of a Lap from a Bib is complete; its last byte arrived at `at_`: its lateness (R300). -/
def noteArrived (at_ : Nat) (h : Heat) (lap bib : Nat) : Heat :=
  let t := match look h.readyAt lap with | some r => at_ - r | none => 0
  match h.late with
  | some (v, l, b) => if v < t || (t = v && (lapOrd lap < lapOrd l || (lap = l && bib < b))) then { h with late := some (t, lap, bib) } else h
  | none => { h with late := some (t, lap, bib) }

/-- Bytes of a transfer have arrived now. -/
def Heat.bytesIn (h : Heat) (now : Nat) (p : Xfer → Bool) : Heat :=
  { h with xfers := h.xfers.map (fun x => if !x.send && p x then { x with arrived := some now } else x) }

/-- RESULT of a completion with ST_OK (R300). -/
def lateResult (h : Heat) : Nat :=
  match h.late with
  | some (v, l, b) => b % 65536 + l % 65536 * 65536 + min v (2 ^ 32 - 1) * 2 ^ 32
  | none => 0

/-- The Lap this member works on: the first with an incomplete transfer, else the finish Laps. -/
def currentLap (h : Heat) : Nat :=
  match (h.xfers.filter (fun x => !x.done)).foldl (fun (a : Option Nat) x => match a with
      | some l => if lapOrd x.lap < lapOrd l then some x.lap else a
      | none => some x.lap) none with
  | some l => l
  | none => if h.sentUp then 0xFFFF else 0xFFFE

/-! ## Bytes of a transfer (R332) -/

/-- Indices of a data range whose block moves (R329). -/
def liveIdx (h : Heat) (lo hi : Nat) : List Nat :=
  ((List.range (hi - lo)).map (lo + ·)).filter (fun i => (h.anchors[i / 32]?).getD 0 != 0xFF)

def xBytes (h : Heat) (x : Xfer) : Nat :=
  match x.space with
  | .partial_ => if h.q96 then 12 * (liveIdx h x.lo x.hi).length else sizeOf_ h.red.part (x.hi - x.lo)
  | .result => sizeOf_ h.fout (x.hi - x.lo)
  | _ => x.hi - x.lo

/-- Bytes that a chunk never splits. -/
def xUnit (h : Heat) (x : Xfer) : Nat :=
  match x.space with
  | .partial_ => if h.q96 then 384 else blockSize h.red.part
  | .result => blockSize h.fout
  | _ => 1

def chunkSize (d : Ix9) : Nat := 2 ^ rget d Fld.COLL_CHUNK_LOG2

/-- Bytes of a chunk of a transfer: whole format blocks. -/
def chunkBytes (d : Ix9) (h : Heat) (x : Xfer) : Nat := chunkSize d / xUnit h x * xUnit h x

def chunkCount (d : Ix9) (h : Heat) (x : Xfer) : Nat := ceilDiv (xBytes h x) (chunkBytes d h x)

/-- Elements [lo, hi) of a list. -/
def sub {α : Type} (l : List α) (lo hi : Nat) : List α := (l.drop lo).take (hi - lo)

/-- A list with the elements from `lo` on replaced by `b`. -/
def splice {α : Type} (l : List α) (lo : Nat) (b : List α) : List α := l.take lo ++ b ++ l.drop (lo + b.length)

/-- The bytes a send carries. A Baton of a received shard is what has come of it. -/
def xData (h : Heat) (x : Xfer) : List Byte :=
  match x.space with
  | .anchor => (sub h.anchors x.lo x.hi).map (fun a => BitVec.ofNat 8 a)
  | .partial_ =>
    if h.q96 then (liveIdx h x.lo x.hi).flatMap (fun i => leBytes 12 ((h.acc[i]?).getD 0))
    else writeElems h.red.part (sub h.acc x.lo x.hi)
  | .result =>
    if h.op = 0x25 || h.op = 0x26 then sub (h.data.getD []) (sizeOf_ h.fin x.lo) (sizeOf_ h.fin x.hi)
    else sub h.res (sizeOf_ h.fout x.lo) (sizeOf_ h.fout x.hi)
  | .query => h.data.getD []
  | .baton =>
    if x.lap = 0 then h.res
    else
      match h.xfers.find? (fun y => !y.send && y.space == .baton && y.lap + 1 == x.lap) with
      | some y => y.chunks.flatMap (·.2)
      | none => []

/-! ## Starting, loading (R288, R317, R326) -/

/-- The accumulators and anchors of a Heat whose source has been read, and what is known of the results. -/
def loadHeat (h : Heat) (b : List Byte) : Heat :=
  let total := sizeOf_ h.fout (if h.op = 0x26 then h.counts.foldl (fun a c => max a (c.2.2.1 + c.2.2.2)) 0 else h.total)
  let zero : List Byte := List.replicate total 0
  if h.op = 0x30 || h.op = 0x31 then { h with data := some b }
  else if reducing h.op then
    let es := (readElems h.fin b).map h.red.convert
    let an := if h.q96 then (chunksOf 32 es).map anchorByte else []
    { h with data := some b, acc := es, anchors := an, res := zero }
  else if h.op = 0x22 then
    { h with data := some b, res := splice zero (sizeOf_ h.fin (h.ep.bib * h.count)) b,
             rounded := [(h.ep.bib * h.count, (h.ep.bib + 1) * h.count)] }
  else if h.op = 0x24 then
    (if h.ep.bib = h.root then { h with data := some b, res := b, rounded := [(0, h.count)] } else { h with data := some b, res := zero })
  else if h.op = 0x25 then
    let c := sizeOf_ h.fin h.count
    { h with data := some b, res := splice zero (h.ep.bib * c) (sub b (h.ep.bib * c) ((h.ep.bib + 1) * c)) }
  else if h.op = 0x26 then
    let s := (h.counts[h.ep.bib]?).getD (0, 0, 0, 0)
    { h with data := some b,
             res := splice zero (sizeOf_ h.fin s.2.2.1) (sub b (sizeOf_ h.fin s.1) (sizeOf_ h.fin (s.1 + s.2.1))) }
  else { h with data := some b }

/-- Fixes the integers of an ANCHORED Heat once its anchors are known; gives how many inputs lost bits (R327). -/
def alignHeat (h : Heat) : Heat × Nat :=
  let qs := (List.range h.acc.length).zipWith (fun i b =>
    let a := (h.anchors[i / 32]?).getD 0
    if a = 0xFF then (0, false) else anchorQ a b) h.acc
  ({ h with acc := qs.map (·.1), anchored := true }, (qs.filter (·.2)).length)

/-! ## Aborts (R303, R304) -/

def ctrlAbort (h : Heat) (a : Abort) : Ctrl :=
  { kind := 2, status := a.status, cause := a.cause, seq := h.seq, lap := a.lap, origin := a.origin, a := a.suspect }

/-- Sends one ABORT to each of the Bibs, and counts it. -/
def sendAborts (d : Ix9) (h : Heat) (a : Abort) (dest : List Nat) : Ix9 :=
  dest.foldl (fun d b => count (ctrlTo d h.ep b (ctrlAbort h a)) Fld.COLL_ABORTS_SENT h.tile) d

/-- RELEASE to the tree-0 children (R301). -/
def sendRelease (d : Ix9) (h : Heat) (st cause : Nat) (dest : List Nat) : Ix9 :=
  dest.foldl (fun d b => ctrlTo d h.ep b
    { kind := 4, status := st, cause := cause, seq := h.seq, lap := 0xFFFF, origin := (h.aborted.map (·.origin)).getD 0 }) d

/-- The Heat has the finish Laps of R301. -/
def Heat.finishes (h : Heat) : Bool := !h.fast && h.op != 0x30

/-- Starts the queries of R302. -/
def startQuery (d : Ix9) (key : Nat) (h : Heat) : Ix9 :=
  if h.queries.isSome then d
  else
    let d := updHeat d key (fun h => { h with queries := some (rget d Fld.COLL_ABORT_REPEAT) })
    let dest := (match h.tree0.parent h.ep.bib with | some p => [p] | none => []).foldl insertNat [0]
    dest.foldl (fun d b => ctrlTo d h.ep b { kind := 5, seq := h.seq, lap := 0xFFFF }) d

/-- The member marks the Heat aborted and spreads the ABORT, leaving out the member it came from (R302, R304). -/
def heatAbort (d : Ix9) (key : Nat) (a : Abort) (from_ : Option Nat) : Ix9 :=
  match heatAt d key with
  | none => d
  | some h =>
    if h.finished || h.aborted.isSome then d
    else if h.sentUp && h.decision.isNone && !a.silent then startQuery d key h
    else
      let dest := (neighbours h).filter (fun b => from_ != some b)
      let native := dest.filter (fun b => match h.ep.peer b with | some p => !(connOf d p.conn).roce | none => false)
      let d := if localBase ≤ key then d else sendAborts d h a dest
      let d := match h.ep.ctrlMc with
        | some g => if localBase ≤ key then d else count (ctrlMc d h.ep g (ctrlAbort h a)) Fld.COLL_ABORTS_SENT h.tile
        | none => d
      let d := updHeat d key (fun h => { h with aborted := some a, repeats := rget d Fld.COLL_ABORT_REPEAT, repeatTo := native })
      if h.ep.bib = 0 && h.finishes && h.decision.isNone && !a.silent then
        let d := updHeat d key (fun h => { h with decision := some (a.status, a.cause) })
        sendRelease d { h with aborted := some a } a.status a.cause (h.tree0.children 0)
      else d

/-- This member detects a condition of R303: it aborts as origin. `loc`: its own status and cause, where they differ. -/
def heatOrigin (d : Ix9) (key status cause suspect : Nat) (loc : Option (Nat × Nat) := none) : Ix9 :=
  match heatAt d key with
  | none => d
  | some h => heatAbort d key ⟨status, cause, h.ep.bib, currentLap h, suspect, loc, false⟩ none

/-- RESULT of a Heat that ends otherwise (R304). -/
def abortResult (a : Abort) : Nat := a.origin % 65536 + a.lap % 65536 * 2 ^ 16 + a.suspect % 65536 * 2 ^ 32

/-! ## Receiving (R295, R322 to R328) -/

/-- Own accumulators are at hand. -/
def accReady (h : Heat) : Bool := if h.op = 0x30 then !h.acc.isEmpty else h.data.isSome && (!h.q96 || h.anchored)

def overlaps (x y : Xfer) : Bool := x.lo < y.hi && y.lo < x.hi

/-- All chunks of a receive have come. -/
def recvFull (d : Ix9) (h : Heat) (x : Xfer) : Bool :=
  !x.send && !x.done && !x.mc && x.known && x.chunks.length == chunkCount d h x && (h.op != 0x26 || x.counted)

/-- The receive may be taken now: ORDERED combines own, lower child, higher child (R324). -/
def recvTakable (d : Ix9) (h : Heat) (i : Nat) (x : Xfer) : Bool :=
  recvFull d h x &&
    (match x.space with
     | .partial_ => accReady h && (h.mode != 3 || (h.xfers.take i).all (fun y => y.send || y.space != .partial_ || y.done || !overlaps x y))
     | .result => h.data.isSome
     | .anchor => h.data.isSome
     | _ => true)

def addNoted (d : Ix9) (tile : Nat) (n : Noted) : Ix9 :=
  let d := if n.sat = 0 then d else count d Fld.REDUCE_SAT tile n.sat
  if n.nan = 0 || n.abort.isSome then d else count d Fld.REDUCE_NAN tile n.nan

/-- Takes a complete receive into the Heat. -/
def takeRecv (d : Ix9) (key i : Nat) : Ix9 :=
  match heatAt d key with
  | none => d
  | some h =>
    match h.xfers[i]? with
    | none => d
    | some x =>
      let b := x.chunks.flatMap (·.2)
      let fin (h : Heat) : Heat := noteArrived (x.arrived.getD d.now) { h with xfers := h.xfers.set i { x with done := true, chunks := if x.space = .baton then x.chunks else [] } } x.lap x.peer
      match x.space with
      | .anchor =>
        let up := x.lap < 0x8000 + depthOf h.ep.n
        let v := b.map (·.toNat)
        let v := if up then (sub h.anchors x.lo x.hi).zipWith max v else v
        updHeat d key (fun h => fin { h with anchors := splice h.anchors x.lo v })
      | .partial_ =>
        let es :=
          if h.q96 then
            (let live := liveIdx h x.lo x.hi
             (List.range (x.hi - x.lo)).map (fun k => match findAt live (· == x.lo + k) with
               | some (p, _) => leNat (sub b (12 * p) (12 * p + 12))
               | none => 0))
          else (readElems h.red.part b).take (x.hi - x.lo)
        let (r, n) := h.red.combine x.lo x.lap (sub h.acc x.lo x.hi) es
        let d := addNoted (updHeat d key (fun h => fin { h with acc := splice h.acc x.lo r })) h.tile n
        (match n.abort with
         | some c => heatOrigin d key ST_REDUCE_INVALID c h.ep.bib
         | none => d)
      | .result => updHeat d key (fun h => fin { h with res := splice h.res (sizeOf_ h.fout x.lo) b })
      | .query => updHeat d key (fun h => fin { h with data := some b })
      | .baton => updHeat d key fin

/-- Takes every receive that may be taken. -/
def takeAll (d : Ix9) (key : Nat) : Ix9 :=
  match heatAt d key with
  | none => d
  | some h => (List.range h.xfers.length).foldl (fun d i =>
      match heatAt d key with
      | some h => (match h.xfers[i]? with
          | some x => if h.aborted.isNone && recvTakable d h i x then takeRecv d key i else d
          | none => d)
      | none => d) d

/-- Every anchor Lap is over: the inputs become integers (R327). -/
def anchorStep (d : Ix9) (key : Nat) : Ix9 :=
  match heatAt d key with
  | none => d
  | some h =>
    if h.q96 && !h.anchored && h.data.isSome && h.xfers.all (fun x => x.space != .anchor || x.done) then
      let (h2, lost) := alignHeat h
      let d := updHeat d key (fun _ => h2)
      if lost = 0 then d else count d Fld.REDUCE_TRUNC h.tile lost
    else d

/-- Rounds the ranges this member is the Anchor of, once they are complete (R318, R323, R328, R331). -/
def roundStep (d : Ix9) (key : Nat) : Ix9 :=
  match heatAt d key with
  | none => d
  | some h => (anchorRanges h).foldl (fun d (lo, hi) =>
      match heatAt d key with
      | none => d
      | some h =>
        if h.aborted.isSome || h.rounded.contains (lo, hi) || !accReady h
            || h.xfers.any (fun x => !x.send && !x.done && x.space == .partial_ && x.lo < hi && lo < x.hi) then d
        else
          let (codes, n) := if h.q96 then h.red.anchorRound h.anchors lo (sub h.acc lo hi) else h.red.anchor lo (sub h.acc lo hi)
          let d := addNoted d h.tile n
          match n.abort with
          | some c => heatOrigin d key ST_REDUCE_INVALID c h.ep.bib
          | none => updHeat d key (fun h => { h with res := splice h.res (sizeOf_ h.fout lo) (writeElems h.fout codes), rounded := h.rounded ++ [(lo, hi)] })) d

/-! ## Sending (R295) -/

/-- The results of a range are at hand. -/
def resReady (h : Heat) (x : Xfer) : Bool :=
  h.op == 0x25 || h.op == 0x26
    || h.rounded.any (fun r => r.1 ≤ x.lo && x.hi ≤ r.2)
    || h.xfers.any (fun y => !y.send && y.space == .result && y.done && y.lo ≤ x.lo && x.hi ≤ y.hi)

/-- What a send carries is complete. -/
def sendReady (h : Heat) (x : Xfer) : Bool :=
  h.data.isSome && sentBefore h x.lap &&
    (match x.space with
     | .anchor => h.xfers.all (fun y => y.send || y.done || y.space != .anchor || !y.before x || !overlaps x y)
     | .partial_ => accReady h && h.xfers.all (fun y => y.send || y.done || y.space != .partial_ || !y.before x || !overlaps x y)
     | .result => resReady h x
     | .query => h.xfers.all (fun y => y.send || y.done || y.space != .query)
     | .baton => true)

/-- Connection, window and key a send uses. -/
def sendPath (d : Ix9) (h : Heat) (x : Xfer) : Option Member :=
  if x.space = .baton then
    match h.att.bind (fun a => look d.h.seqs a.seq) with
    | some s => some ⟨s.batonConn, s.nextWin, s.nextRkey⟩
    | none => none
  else h.ep.peer x.peer

/-- Posts the chunks of a send for which credits are at hand (DESIGN CHOICE, log entry 22). -/
def postChunks (fuel : Nat) (d : Ix9) (key i : Nat) : Ix9 :=
  match fuel with
  | 0 => d
  | k + 1 =>
    match heatAt d key with
    | none => d
    | some h =>
      match h.xfers[i]? with
      | none => d
      | some x =>
        if x.done || !x.send || x.mc || h.aborted.isSome || !sendReady h x then d
        else if h.op = 0x26 && !x.counted then d
        else
          let total := if x.space = .baton && x.lap != 0 then
              (match h.xfers.find? (fun y => !y.send && y.space == .baton && y.lap + 1 == x.lap) with
               | some y => if y.known then some (y.hi - y.lo) else none
               | none => none)
            else if x.space = .baton then some h.res.length else some (xBytes h x)
          let cb := chunkBytes d h x
          match total with
          | none => d
          | some t =>
            if ceilDiv t cb ≤ x.n then updHeat d key (fun h => { h with xfers := h.xfers.set i { x with done := true } })
            else
              match x.cred, sendPath d h x with
              | slot :: cr, some p =>
                let b := sub (xData h x) (x.n * cb) ((x.n + 1) * cb)
                if b.length != min cb (t - x.n * cb) then d
                else
                  let d := updHeat d key (fun h => { h with inflight := h.inflight + 1,
                                                            xfers := h.xfers.set i { x with n := x.n + 1, cred := cr } })
                  let d := postMsg d p.conn { org := .heat key (i * 2 ^ 20 + x.n), op := 0x11, inl := some b, window := p.win,
                                              rkey := p.rkey, offset := slot * chunkSize d, total := b.length }
                  postChunks k d key i
              | _, _ => d

/-- Packets of the multicast Lap carry this many bytes (DESIGN CHOICE, log entry 22). -/
def mcPiece : Nat := 4096

/-- The MARK of a chunk (R298). -/
def sendMark (d : Ix9) (h : Heat) (mcg lap chunk bytes : Nat) : Ix9 :=
  ctrlMc d h.ep mcg { kind := 6, seq := h.seq, lap := lap, a := chunk, b := bytes }

/-- A multicast slot that this member, as root of an in-fabric Lap, has filled and its subtree has not freed (R298). -/
def mcHeld (h : Heat) (slot : Nat) : Bool :=
  h.xfers.any (fun x => x.send && x.mc && slot < x.n) && !(h.rooted.children h.ep.bib).all (fun c => h.mcFreed.contains (c, slot))

/-- A multicast slot is still held by a Heat of the group. -/
def mcSlotBusy (d : Ix9) (group slot : Nat) : Bool :=
  d.h.heats.any (fun (k, h) => k < localBase && h.group == group && h.aborted.isNone && mcHeld h slot)

/-- What a Heat still owes of its in-fabric Lap: the root slots not freed, another member credits not passed on (R298). -/
def mcOwes (d : Ix9) (h : Heat) : Bool :=
  h.xfers.any (fun x => x.mc && (List.range (min 8 (chunkCount d h x))).any (fun slot =>
    if x.send then mcHeld h slot
    else look h.mcPassed slot != some ((chunkCount d h x - 1 - slot) / 8 * 8 + slot)))

/-- Sends the chunks of the in-fabric Lap whose slot is free (R298). -/
def mcChunks (fuel : Nat) (d : Ix9) (key i : Nat) : Ix9 :=
  match fuel with
  | 0 => d
  | k + 1 =>
    match heatAt d key with
    | none => d
    | some h =>
      match h.xfers[i]?, h.ep.dataMc with
      | some x, some mcg =>
        if x.done || !x.send || !x.mc || h.aborted.isSome || !sendReady h x then d
        else if chunkCount d h x ≤ x.n then updHeat d key (fun h => { h with xfers := h.xfers.set i { x with done := true } })
        else
          let slot := x.n % 8
          let kids := h.rooted.children h.ep.bib
          if mcSlotBusy d h.group slot then d
          else
            let cb := chunkBytes d h x
            let b := sub (xData h x) (x.n * cb) ((x.n + 1) * cb)
            let lane := match kids.head? with
              | some c => (match h.ep.peer c with | some p => (connOf d p.conn).lane | none => 4)
              | none => 4
            let d := updHeat d key (fun h => { h with mcFreed := h.mcFreed.filter (fun f => f.2 != slot),
                                                      xfers := h.xfers.set i { x with n := x.n + 1 } })
            let d := (List.range (ceilDiv b.length mcPiece)).foldl (fun d j =>
              let q := sub b (j * mcPiece) ((j + 1) * mcPiece)
              sendMc d ⟨mcg, 0, 0, lane, 0x10, 2, 0, 0, (slot * chunkSize d + j * mcPiece) / 256, q.length, true,
                        (j + 1) * mcPiece ≥ b.length, false, false, none, q, 0, true, 0, 0, 0⟩
                ((look d.h.groups h.group).map (·.owner))) d
            mcChunks k (sendMark d h mcg x.lap x.n b.length) key i
      | _, _ => d

/-- Posts what may be sent. -/
def sendAll (d : Ix9) (key : Nat) : Ix9 :=
  match heatAt d key with
  | none => d
  | some h => (List.range h.xfers.length).foldl (fun d i => mcChunks 1024 (postChunks 1024 d key i) key i) d

/-! ## Credits (R295, R296) -/

/-- The window into which a transfer's input comes, and its slots. -/
def recvWin (d : Ix9) (h : Heat) (x : Xfer) : Nat :=
  if x.space = .baton then (match h.att.bind (fun a => look d.h.seqs a.seq) with | some s => s.batonWin | none => 0) else h.ep.stageWin

def slotCount (d : Ix9) (w : Nat) : Nat := min 1024 ((winOf d w).pages * 4096 / chunkSize d)

/-- Slots of a peer that are granted and not landed: its unused credits. -/
def unusedCredits (d : Ix9) (group peer : Nat) : Nat :=
  (d.h.slots.filter (fun (_, u) => u.peer == peer && u.landed.isNone
    && (match heatAt d u.heat with | some h => h.group == group | none => false))).length

/-- Another Heat of the group that began earlier still wants to grant this peer credits. -/
def earlierWants (d : Ix9) (key group peer : Nat) : Bool :=
  d.h.heats.any (fun (k, h) => k < key && h.group == group && !h.finished && h.aborted.isNone
    && h.xfers.any (fun x => !x.send && !x.done && !x.mc && x.peer == peer && x.n < chunkCount d h x))

/-- The receive for which this member would grant a slot to a peer next: the first Lap that lacks input. -/
def wantsFrom (d : Ix9) (h : Heat) (peer : Nat) : Option (Nat × Xfer) :=
  let open_ := h.xfers.filter (fun x => !x.send && !x.done && !x.mc)
  let lap := open_.foldl (fun a x => min a (lapOrd x.lap)) (2 ^ 20)
  findAt h.xfers (fun x => !x.send && !x.done && !x.mc && x.peer == peer && lapOrd x.lap == lap
    && ((h.op == 0x26 && !x.counted) || x.n < max (if x.known then 0 else 1) (chunkCount d h x)))

/-- Grants one slot, or sends the first credit of all-to-allv, to the peer. -/
def grantTo (d : Ix9) (key peer : Nat) : Ix9 × Bool :=
  match heatAt d key with
  | none => (d, false)
  | some h =>
    match wantsFrom d h peer with
    | none => (d, false)
    | some (i, x) =>
      let c : Ctrl := { kind := 1, seq := h.seq, lap := x.lap, a := h.hash }
      if h.op = 0x26 && !x.counted then
        (ctrlTo (updHeat d key (fun h => { h with xfers := h.xfers.set i { x with counted := true } })) h.ep peer
          { c with b := xBytes h x }, true)
      else if 4 ≤ unusedCredits d h.group peer || earlierWants d key h.group peer then (d, false)
      else
        let w := recvWin d h x
        let base := if h.ep.dataMc.isSome && x.space != .baton then 8 else 0
        let n := slotCount d w - base
        let (v, d) := draw d
        match pickFree v n (fun s => has d.h.slots (w * 1024 + base + s)) (n + 1) with
        | none => (d, false)
        | some s =>
          let slot := base + s
          let d := { d with h := { d.h with slots := put d.h.slots (w * 1024 + slot) { heat := key, lap := x.lap, peer := peer, chunk := x.n } } }
          let d := updHeat d key (fun h => { h with xfers := h.xfers.set i { x with n := x.n + 1 } })
          (ctrlTo d h.ep peer { c with b := slot }, true)

/-- Grants slots among the waiting senders in round robin, while any can be granted. -/
def grantAll (fuel : Nat) (d : Ix9) (key : Nat) : Ix9 :=
  match fuel with
  | 0 => d
  | k + 1 =>
    match heatAt d key with
    | none => d
    | some h =>
      if h.aborted.isSome || h.finished || (h.data.isNone && h.op != 0x30) then d
      else
        let rr := (lookD d.h.groups h.group).rr
        let ps := (h.xfers.map (·.peer)).foldl insertNat []
        let order := ps.filter (fun p => rr < p) ++ ps.filter (fun p => p ≤ rr)
        let r := order.foldl (fun (acc : Ix9 × Bool) p =>
          if acc.2 then acc
          else
            match grantTo acc.1 key p with
            | (d, true) => (updGroup d h.group (fun g => { g with rr := p }), true)
            | (d, false) => (d, false)) (d, false)
        if r.2 then grantAll k r.1 key else r.1

/-! ## Input that lands (R295) -/

/-- Reads a range of a window's memory: landing memory from the block, other memory from the bytes brought along. -/
def windowRead (m : List Host.Cell) (d : Ix9) (tile w off n : Nat) (r : ReadData) : ReadData :=
  let win := winOf d w
  match xlate d (xisle tile) win.asid { va := win.base + off, len := n }, r with
  | .ok segs, r => (match readSegs m d segs r with
      | .own => .own
      | x => x)
  | _, .ok b => if b.length = n then .ok b else .own
  | _, r => r

/-- The header of a Baton stream gives its length (R356). -/
def batonKnown (d : Ix9) (h : Heat) (x : Xfer) (b : List Byte) : Xfer :=
  if x.known then x
  else
    match h.att.bind (fun a => look d.h.seqs a.seq) with
    | some s => { x with known := true, lo := 0, hi := 32 + ceilDiv (fieldLE b 8 3) 256 * kvRow s }
    | none => x

/-- A chunk's bytes are at hand: its transfer takes them, and its slot is free again but for a Baton (R356). -/
def chunkIn (d : Ix9) (slotKey : Nat) (u : SlotUse) (b : List Byte) : Ix9 :=
  match heatAt d u.heat with
  | none => { d with h := { d.h with slots := drop d.h.slots slotKey } }
  | some h =>
    match findAt h.xfers (fun x => !x.send && x.lap == u.lap && x.peer == u.peer) with
    | none => { d with h := { d.h with slots := drop d.h.slots slotKey } }
    | some (i, x) =>
      let x := if x.space = .baton && u.chunk = 0 then batonKnown d h x b else x
      let d := updHeat d u.heat (fun h => { h with xfers := h.xfers.set i { x with chunks := put x.chunks u.chunk b } })
      if x.space = .baton then d else { d with h := { d.h with slots := drop d.h.slots slotKey } }

/-- A write into a staging slot is complete (R44): the engine reads the chunk. -/
def slotLanded (m : List Host.Cell) (d : Ix9) (w off bytes : Nat) (r : ReadData) : Ix9 :=
  let k := w * 1024 + off / chunkSize d
  match look d.h.slots k with
  | none => d
  | some u =>
    let d := { d with h := { d.h with slots := put d.h.slots k { u with landed := some bytes } } }
    let d := if u.landed.isSome then d else updHeat d u.heat (·.bytesIn d.now (fun x => x.lap == u.lap && x.peer == u.peer))
    match heatAt d u.heat with
    | none => { d with h := { d.h with slots := drop d.h.slots k } }
    | some h =>
      match windowRead m d h.tile w off bytes r with
      | .ok b => chunkIn d k { u with landed := some bytes } b
      | .own => d
      | .poisoned _ => heatOrigin d u.heat ST_HEAT_ABORTED 0x07 h.ep.bib (some (ST_DATA_POISON, 0))
      | _ => heatOrigin d u.heat ST_HEAT_ABORTED 0x07 h.ep.bib (some (ST_BUS_ERROR, 0))

/-- Slots of Batons that are computed and passed on are free (R356). -/
def freeBatons (d : Ix9) (key : Nat) : Ix9 :=
  match heatAt d key with
  | none => d
  | some h =>
    let origin (lap : Nat) : Nat := (h.ep.bib + 2 * h.ep.n - lap - 1) % h.ep.n
    let passed (lap : Nat) : Bool := h.xfers.all (fun x => !(x.send && x.space == .baton && x.lap == lap + 1) || x.done)
    let goes (u : SlotUse) : Bool := u.heat == key && u.landed.isSome
      && h.xfers.any (fun x => !x.send && x.space == .baton && x.lap == u.lap && has x.chunks u.chunk)
      && (match h.att with | some a => a.shards.contains (origin u.lap) | none => true) && passed u.lap
    { d with h := { d.h with slots := d.h.slots.filter (fun e => !goes e.2) } }

/-! ## The multicast Lap at a receiver (R298) -/

/-- Credit for a multicast slot, to the parent in the tree of the Lap. -/
def mcPass (d : Ix9) (g : GroupEp) (root seq hash lap slot : Nat) : Ix9 :=
  match (⟨g.n, root, false⟩ : Shape).parent g.bib with
  | some p => ctrlTo d g p { kind := 1, seq := seq, lap := lap, a := hash, b := slot }
  | none => d

/-- The multicast Lap of a Heat. -/
def Heat.mcLap (h : Heat) : Nat := match h.xfers.find? (·.mc) with | some x => x.lap | none => 0

/-- A slot whose whole subtree has freed it: credit goes to the tree-0 parent. `again`: a MARK has been repeated for a chunk
whose credit has been passed. -/
def mcCredit (d : Ix9) (key slot : Nat) (again : Bool := false) : Ix9 :=
  match heatAt d key with
  | none => d
  | some h =>
    let t := h.rooted
    if again && (look h.mcPassed slot).isSome && look h.mcPassed slot = look h.mcTaken slot then
      mcPass d h.ep h.root h.seq h.hash h.mcLap slot
    else if (h.ep.bib :: t.children h.ep.bib).all (fun c => h.mcFreed.contains (c, slot)) && (t.parent h.ep.bib).isSome then
      mcPass (updHeat d key (fun h => { h with mcFreed := h.mcFreed.filter (fun f => f.2 != slot),
                                               mcPassed := put h.mcPassed slot (num h.mcTaken slot) }))
        h.ep h.root h.seq h.hash h.mcLap slot
    else d

/-- A chunk of the multicast Lap is in its slot: it is read, and the slot is free at this member. -/
def mcTake (m : List Host.Cell) (d : Ix9) (key chunk bytes : Nat) (r : ReadData) : Ix9 :=
  match heatAt d key with
  | none => d
  | some h =>
    match findAt h.xfers (fun x => x.mc && !x.send && !x.done) with
    | none => mcCredit d key (chunk % 8) true
    | some (i, x) =>
      if has x.chunks chunk then mcCredit d key (chunk % 8) true
      else
        match windowRead m d h.tile h.ep.stageWin (chunk % 8 * chunkSize d) bytes r with
        | .ok b =>
          let x := { x with chunks := put x.chunks chunk b }
          let full := x.chunks.length = chunkCount d h x
          let d := updHeat d key (fun h =>
            let h := { h with mcFreed := (h.ep.bib, chunk % 8) :: h.mcFreed, mcTaken := put h.mcTaken (chunk % 8) chunk,
                              mcGot := put h.mcGot (chunk % 8) 0 }
            if full then
              noteArrived (x.arrived.getD d.now)
                { h with xfers := h.xfers.set i { x with done := true, chunks := [] },
                         res := splice h.res (sizeOf_ h.fout x.lo) (x.chunks.flatMap (·.2)) } x.lap x.peer
            else { h with xfers := h.xfers.set i x })
          mcCredit d key (chunk % 8)
        | .own => d
        | .poisoned _ => heatOrigin d key ST_HEAT_ABORTED 0x07 h.ep.bib (some (ST_DATA_POISON, 0))
        | _ => heatOrigin d key ST_HEAT_ABORTED 0x07 h.ep.bib (some (ST_BUS_ERROR, 0))

/-! ## Output and completion (R292, R300, R301) -/

def segsBytes (l : List Seg) : Nat := l.foldl (fun a s => a + s.len) 0

/-- The group or sequence object that waits for its last Heat goes (R286, R343). -/
def destroyWaits (d : Ix9) : Ix9 :=
  let d := d.h.groups.foldl (fun d (g, x) =>
    match x.dying with
    | some (k, s) =>
      if d.h.heats.any (fun (n, h) => n < localBase && h.group == g && !h.finished) then d
      else endEntry { d with h := { d.h with groups := drop d.h.groups g, heats := d.h.heats.filter (fun e => !(e.2.group == g && e.1 < localBase)) } } k s ST_OK
    | none => d) d
  d.h.seqs.foldl (fun d (n, x) =>
    match x.dying with
    | some (k, s) =>
      if d.h.heats.any (fun (_, h) => !h.finished && (match h.att with | some a => a.seq == n | none => false)) then d
      else endEntry { d with h := { d.h with seqs := drop d.h.seqs n } } k s ST_OK
    | none => d) d

/-- The member's part is over with this outcome. -/
def heatComplete (d : Ix9) (key status cause : Nat) (silent : Bool := false) : Ix9 :=
  match heatAt d key with
  | none => d
  | some h =>
    if h.finished then d
    else
      let d := updHeat d key (fun h => { h with finished := true, queries := none })
      let ok := status = ST_OK
      let isLocal := decide (localBase ≤ key)
      let d := if isLocal || h.entry.isNone then d
        else count d (if ok then Fld.COLL_HEATS_OK else Fld.COLL_HEATS_ABORTED) h.tile
      let d := if h.att.isSome && h.entry.isSome then count d Fld.MARA_REQS h.tile else d
      let d := if isLocal then d
        else
          let (v, l, b) := h.late.getD (0, 0, 0)
          rset (rset (rset (rset d Fld.LAP_SLOWEST_GROUP h.tile h.group) Fld.LAP_SLOWEST_BIB h.tile b)
            Fld.LAP_SLOWEST_LATE h.tile (min v (2 ^ 32 - 1))) Fld.LAP_SLOWEST_LAP h.tile l
      let result := if ok then (if isLocal then (match h.att with | some a => a.tokens | none => 0) else lateResult h)
        else if isLocal then 0
        else match h.aborted with | some a => abortResult a | none => 0
      let d := match h.entry with
        | some (k, s) => if silent then d else endEntry d k s status cause (segsBytes h.dst) result
        | none => d
      destroyWaits d

/-- An aborted Heat completes once its writes have ended (R304 step 5). -/
def abortStep (d : Ix9) (key : Nat) : Ix9 :=
  match heatAt d key with
  | none => d
  | some h =>
    match h.aborted with
    | some a =>
      if h.finished || h.inflight != 0 || h.acks != 0 then d
      else
        let (st, cs) := a.local_.getD (a.status, a.cause)
        heatComplete d key st cs a.silent
    | none => d

/-- Writes pieces of the output, each at its offset in the destination, with the acknowledgements SCOPE and BARRIER ask for
(R45). -/
def heatWrite (d : Ix9) (key : Nat) (out : List (Nat × List Byte)) : Ix9 :=
  match heatAt d key with
  | none => d
  | some h =>
    let segs := out.flatMap (fun (off, b) => slice off b.length h.dst)
    let (d, poison) := out.foldl (fun (acc : Ix9 × Bool) (off, b) =>
      match writeSegs acc.1 (slice off b.length h.dst) b with | (d, p) => (d, acc.2 || p)) (d, false)
    let ps := pathsOf d segs
    let d := updHeat d key (fun h => { h with written := true, acks := ps.length })
    let d := ps.foldl (fun d p => needAck d p (.heat key) h.scope h.barrier) d
    if poison then heatOrigin d key ST_HEAT_ABORTED 0x07 h.ep.bib (some (ST_DATA_POISON, 0)) else d

/-- The output of a collective once it is complete, in pieces with their offsets: OP_ALL_TO_ALLV writes the blocks of its
counts table and no other byte. -/
def outputOf (h : Heat) : Option (List (Nat × List Byte)) :=
  if h.op = 0x30 || h.op = 0x31 then none
  else if h.data.isNone || h.xfers.any (fun x => !x.done) || (anchorRanges h).any (fun r => !h.rounded.contains r) then none
  else if h.op = 0x21 then some [(0, sub h.res (sizeOf_ h.fout (h.ep.bib * h.count)) (sizeOf_ h.fout ((h.ep.bib + 1) * h.count)))]
  else if h.op = 0x23 then some (if h.ep.bib = h.root then [(0, h.res)] else [])
  else if h.op = 0x26 then
    some ((h.counts.filter (fun c => c.2.2.2 != 0)).map (fun c =>
      (sizeOf_ h.fout c.2.2.1, sub h.res (sizeOf_ h.fout c.2.2.1) (sizeOf_ h.fout (c.2.2.1 + c.2.2.2)))))
  else if h.op = 0x27 then some []
  else some [(0, h.res)]

/-- The output is visible: the finish Laps begin, or the member completes (R301). -/
def finishStep (d : Ix9) (key : Nat) : Ix9 :=
  match heatAt d key with
  | none => d
  | some h =>
    if !h.written || h.acks != 0 || h.aborted.isSome || h.finished then d
    else
      let d := updHeat d key (fun h => readyLap d { h with visible := true } 0xFFFE)
      if localBase ≤ key || !h.finishes then heatComplete d key ST_OK 0
      else if !(h.tree0.children h.ep.bib).all h.ups.contains then d
      else if h.ep.bib = 0 then
        (if h.decision.isSome then d
         else
           let d := updHeat d key (fun h => { h with decision := some (0, 0) })
           heatComplete (sendRelease d h 0 0 (h.tree0.children 0)) key ST_OK 0)
      else if h.sentUp then d
      else
        match h.tree0.parent h.ep.bib with
        | some p => ctrlTo (updHeat d key (fun h => readyLap d { h with sentUp := true } 0xFFFF)) h.ep p { kind := 3, seq := h.seq, lap := 0xFFFE }
        | none => d

/-- A Heat that is over and owes nothing, a repair of its in-fabric Lap included (R298), is forgotten. -/
def heatForget (d : Ix9) (key : Nat) : Ix9 :=
  match heatAt d key with
  | none => d
  | some h =>
    if h.finished && h.repeats = 0 && h.decision.isNone && h.inflight = 0 && (h.aborted.isSome || (h.xfers.all (fun x => !x.send || x.done) && !mcOwes d h)) then
      let d := if h.xfers.any (·.mc) then updGroup d h.group (fun g => { g with mcLast := some (h.seq, h.hash, h.mcLap) }) else d
      { d with h := { d.h with heats := drop d.h.heats key, slots := d.h.slots.filter (fun e => e.2.heat != key) } }
    else d

/-- The source is read as soon as it lies in landing memory. -/
def loadStep (m : List Host.Cell) (d : Ix9) (key : Nat) (r : ReadData) : Ix9 :=
  match heatAt d key with
  | none => d
  | some h =>
    if h.data.isSome || h.aborted.isSome || h.entry.isNone then d
    else
      match readSegs m d h.src r with
      | .ok b => updHeat d key (fun h =>
          let head := match h.att, h.att.bind (fun a => look d.h.seqs a.seq) with
            | some a, some s => if h.op = 0x30 && !h.xfers.isEmpty then scatterHeader s a h.ep.bib else []
            | _, _ => []
          let b := head ++ b
          let h := loadHeat h b
          if h.op = 0x30 then { h with xfers := h.xfers.map (fun x => if x.space = .query then { x with hi := b.length } else x) } else h)
      | .own => d
      | .poisoned _ => heatOrigin d key ST_HEAT_ABORTED 0x07 h.ep.bib (some (ST_DATA_POISON, 0))
      | _ => heatOrigin d key ST_HEAT_ABORTED 0x07 h.ep.bib (some (ST_BUS_ERROR, 0))

/-- A needed peer has no connection (R296). -/
def memberStep (d : Ix9) (key : Nat) : Ix9 :=
  match heatAt d key with
  | none => d
  | some h =>
    if h.aborted.isSome || h.finished || localBase ≤ key then d
    else
      match h.xfers.find? (fun x => x.space != .baton && !x.mc && (h.ep.peer x.peer).isNone) with
      | some x => heatOrigin d key ST_HEAT_MEMBERSHIP 0x03 x.peer
      | none => d

/-- Connections of a Heat that have left READY, or on which a write drew RESETTING (R303 causes 0x03, 0x04). -/
def connStep (d : Ix9) (key : Nat) : Ix9 :=
  match heatAt d key with
  | none => d
  | some h =>
    if h.aborted.isSome || h.finished || localBase ≤ key then d
    else
      let peers := ((h.xfers.map (·.peer)) ++ (if h.finishes then neighbours { h with op := 0x27 } else [])).foldl insertNat []
      let conns := ((peers.filter (· != h.ep.bib)).filterMap (fun b => (h.ep.peer b).map (fun p => (b, p.conn))))
        ++ (match h.att.bind (fun a => look d.h.seqs a.seq) with
            | some s => if h.op = 0x31 && 1 < h.ep.n then [(h.next, s.batonConn)] else []
            | none => [])
      let mine (c : Conn) : Bool := c.txMsgs.any (fun m => match m.org with | .heat k _ => k == key | _ => false)
      match conns.find? (fun x => (connOf d x.2).resetCnt != 0 && mine (connOf d x.2)) with
      | some (b, _) => heatOrigin d key ST_HEAT_ABORTED 0x03 b
      | none =>
        match conns.find? (fun x => (connOf d x.2).state != csREADY) with
        | some (b, _) => heatOrigin d key ST_HEAT_ABORTED 0x04 b
        | none => d

/-- One round of a Heat's own work. -/
def heatRound (m : List Host.Cell) (d : Ix9) (key : Nat) : Ix9 :=
  let d := connStep (memberStep (loadStep m d key .own) key) key
  let d := takeAll (noteReady d key) key
  let d := roundStep (anchorStep d key) key
  let d := sendAll d key
  let d := grantAll 4096 (freeBatons (noteReady d key) key) key
  match heatAt d key with
  | some h =>
    let d := match (if h.written || h.aborted.isSome then none else outputOf h) with
      | some b => heatWrite d key b
      | none => d
    heatForget (abortStep (finishStep d key) key) key
  | none => d

/-- Runs a Heat until it can do nothing more: as many rounds as it has transfers, and two. -/
def heatRun (m : List Host.Cell) (d : Ix9) (key : Nat) : Ix9 :=
  match heatAt d key with
  | none => d
  | some h => (List.range (h.xfers.length + 2)).foldl (fun d _ => heatRound m d key) d

/-- Runs every Heat. -/
def heatsRun (m : List Host.Cell) (d : Ix9) : Ix9 := destroyWaits (d.h.heats.foldl (fun d (k, _) => heatRun m d k) d)

/-- A message of a Heat on the transport has ended. -/
def heatMsgEnded (d : Ix9) (key status : Nat) (peer : Nat) : Ix9 :=
  let d := updHeat d key (fun h => { h with inflight := h.inflight - 1 })
  if status = ST_OK then d
  else if status = ST_ENDPOINT_RESETTING then heatOrigin d key ST_HEAT_ABORTED 0x03 peer
  else if status = ST_KEY_UNAVAILABLE then heatOrigin d key ST_HEAT_ABORTED 0x0A peer
  else heatOrigin d key ST_HEAT_ABORTED 0x04 peer

/-- One acknowledgement of a Heat's output has come. -/
def heatAcked (d : Ix9) (key : Nat) : Ix9 := updHeat d key (fun h => { h with acks := h.acks - 1 })

end Sys2Proof.Machine
end

