-- ==== Sys2Proof/Machine/Coll.lean ====
section
/-!
DEFINITION. The commands of the collective and Marathon engines: Heats that start (R287 to R293), groups (R281 to R286),
control messages and timers (R296 to R305), sequence objects and attention requests (R338 to R356).
-/

namespace Sys2Proof.Machine

/-! ## Heats that start -/

/-- Fields of a Heat entry (R287, R315). -/
def Entry.hOper (e : Entry) : Nat := e.oparg0 % 16
def Entry.hMode (e : Entry) : Nat := e.oparg0 / 16 % 4
def Entry.hRnd (e : Entry) : Nat := e.oparg0 / 64 % 2
def Entry.hNan (e : Entry) : Bool := flag e.oparg0 7
def Entry.hFin (e : Entry) : Nat := e.oparg1 % 16
def Entry.hFout (e : Entry) : Nat := e.oparg1 / 16 % 16
def Entry.hAlg (e : Entry) : Nat := e.oparg1 / 256 % 4
def Entry.hFast (e : Entry) : Bool := flag e.oparg1 10
def Entry.hRoot (e : Entry) : Nat := bits e.oparg1 26 11
def Entry.hLse (e : Entry) : Nat := bits e.oparg1 28 27
def Entry.hCount (e : Entry) : Nat := e.operandAt 3 % 2 ^ 40

/-- DESC_HASH of a Heat entry (R296). -/
def descHash (e : Entry) : Nat :=
  crc32c (leBytes 1 e.op ++ leBytes 1 e.oparg0 ++ leBytes 4 e.oparg1 ++ leBytes 8 (if e.op = 0x26 then 0 else e.hCount))

/-- The algorithm of a Heat (R293). -/
def algOf (d : Ix9) (op mode alg bytes : Nat) (mc : Bool) : Nat :=
  if alg != 0 then alg
  else if op = 0x20 then
    (if mode = 3 || bytes ≤ rget d Fld.COLL_ALG_TREE_MAX * 1024 then 2
     else if mc && rget d Fld.COLL_ALG_MC_MIN * 1024 ≤ bytes then 3 else 1)
  else if op = 0x24 then (if mc && rget d Fld.COLL_ALG_MC_MIN * 1024 ≤ bytes then 3 else 2)
  else if op = 0x23 then 2
  else if op = 0x21 || op = 0x22 then 1
  else 0

/-- The counts table of OP_ALL_TO_ALLV (R289). -/
def countsOf (b : List Byte) : List (Nat × Nat × Nat × Nat) :=
  (chunksOf 16 b).map (fun l => (fieldLE l 0 4, fieldLE l 4 4, fieldLE l 8 4, fieldLE l 12 4))

/-- The Heat of an entry, before its source is read. -/
def heatOf (d : Ix9) (g : Group) (group seq k : Nat) (e : Entry) : Heat :=
  let red := reducing e.op
  let fin := e.hFin
  let mode := if red then e.hMode else 0
  let h : Heat :=
    { group := group, ep := g.ep, tile := g.tile, seq := seq, entry := some (k, e.slot), op := e.op,
      oper := if red then e.hOper else 0, mode := mode, rnd := if red then e.hRnd else 0, nanFail := red && e.hNan,
      fin := fin, fout := if red then e.hFout else fin,
      alg := algOf d e.op mode e.hAlg (sizeOf_ fin e.hCount) g.ep.dataMc.isSome, fast := e.hFast,
      root := if e.op = 0x23 || e.op = 0x24 then e.hRoot else 0, count := if e.op = 0x26 then 0 else e.hCount,
      seed := e.operandAt 4, lseDim := e.hLse, hash := descHash e,
      src := (e.bufs.head?.map (·.segs)).getD [], dst := ((e.bufs[1]?).map (·.segs)).getD [],
      scope := e.scope, barrier := e.barrier,
      counts := if e.op = 0x26 then (match e.src.head? with | some (_, b) => countsOf b | none => []) else [] }
  if e.op = 0x27 then { h with oper := 0, fin := 1, fout := 1, alg := 0, fast := false, count := 0, data := some [], src := [], dst := [] }
  else h

/-- (EPOCH, HEAT_SEQ) of a Heat that starts now: what it took at acceptance, or the next of the epoch that has replaced it
(R286, R291) (DEDUCED, log entry 33). -/
def startSeq (g : Group) (e : Entry) : Nat × Nat :=
  match e.heat with
  | some (ep, s) => if ep = g.ep.epoch then (s, g.nextSeq) else (g.nextSeq, (g.nextSeq + 1) % 65536)
  | none => (g.nextSeq, (g.nextSeq + 1) % 65536)

/-- The member table is read in place, and its memory cannot be reached (R283, R371) (DESIGN CHOICE, log entry 63). -/
def tableDown (d : Ix9) (g : Group) : Bool := (pathsOf d g.place).any (fun p => !pathUp d p)

/-- Puts a Heat into the engine; a recorded ABORT ends it at once (R305) (DEDUCED, log entry 33). -/
def enterHeat (d : Ix9) (key : Nat) (h : Heat) : Ix9 :=
  let g := lookD d.h.groups h.group
  let d := updGroup d h.group (fun g => { g with lastStarted := some h.seq })
  let h := { h with xfers := planOf h }
  match look g.recorded h.seq with
  | some a =>
    let d := updGroup d h.group (fun g => { g with recorded := drop g.recorded h.seq })
    -- an undecided Bib 0 holds what it decided at a QUERY (R302)
    let dec := if h.ep.bib = 0 && h.finishes then some (a.status, a.cause) else none
    let d := { d with h := { d.h with heats := put d.h.heats key { h with aborted := some a, decision := dec } } }
    heatForget (heatComplete d key a.status a.cause) key
  | none =>
    let d := { d with h := { d.h with heats := put d.h.heats key h } }
    if tableDown d g then heatOrigin d key ST_HEAT_ABORTED 0x07 h.ep.bib (some (ST_BUS_ERROR, 0)) else d

/-! ## Control messages (R296 to R305) -/

/-- (e, s) is above (f, t) in the order of epochs and HEAT_SEQs, which wrap. -/
def seqAbove (e s f t : Nat) : Bool :=
  if e = f then (let x := (s + 65536 - t) % 65536; 1 ≤ x && x < 32768) else (e + 256 - f) % 256 < 128

/-- A Heat by what a control message names. -/
def ctrlHeat (d : Ix9) (tile : Nat) (c : Ctrl) : Option (Nat × Heat) :=
  d.h.heats.find? (fun (k, h) => k < localBase && h.tile == tile && h.ep.tag == c.tag && h.ep.epoch == c.epoch && h.seq == c.seq)

def ctrlGroup (d : Ix9) (tile : Nat) (c : Ctrl) : Option (Nat × Group) :=
  d.h.groups.find? (fun (_, g) => g.tile == tile && g.ep.tag == c.tag)

/-- Keeps a message for a Heat that has not started. -/
def keepEarly (d : Ix9) (g : Nat) (c : Ctrl) : Ix9 := updGroup d g (fun g => { g with early := g.early ++ [c] })

/-- The Heat has not started yet in the group's epoch. -/
def notStarted (g : Group) (c : Ctrl) : Bool :=
  match g.lastStarted with
  | some l => seqAbove c.epoch c.seq g.ep.epoch l
  | none => c.epoch == g.ep.epoch || seqAbove c.epoch 0 g.ep.epoch 0

/-- The oldest Heat of a group that waits for credits of a peer: the one its sender side works on (R296). -/
def waitingHeat (d : Ix9) (group peer : Nat) : Option (Nat × Heat) :=
  d.h.heats.find? (fun (k, h) => k < localBase && h.group == group && !h.finished && h.aborted.isNone
    && h.xfers.any (fun x => x.send && !x.done && !x.mc && x.peer == peer && x.n + x.cred.length < max 1 (chunkCount d h x)))

/-- A CREDIT (R296, R298). -/
def onCredit (d : Ix9) (tile : Nat) (c : Ctrl) : Ix9 :=
  match ctrlHeat d tile c with
  | some (key, h) =>
    if h.aborted.isSome then d
    else if c.a != h.hash && !(h.op = 0x30 && h.xfers.any (fun x => x.send && x.space == .query && x.lap == c.lap && x.peer == c.sender))
    then heatOrigin d key ST_HEAT_ABORTED 0x05 c.sender
    else if h.xfers.any (fun x => x.mc && x.lap == c.lap) then
      mcCredit (updHeat d key (fun h => { h with mcFreed := (c.sender, c.b % 1024) :: h.mcFreed })) key (c.b % 1024)
    else
      match findAt h.xfers (fun x => x.send && x.lap == c.lap && x.peer == c.sender) with
      | none => d
      | some (i, x) =>
        if h.op = 0x26 && !x.counted then
          (if c.b = xBytes h x then updHeat d key (fun h => { h with xfers := h.xfers.set i { x with counted := true } })
           else heatOrigin d key ST_HEAT_ABORTED 0x05 c.sender)
        else updHeat d key (fun h => { h with xfers := h.xfers.set i { x with cred := x.cred ++ [c.b % 1024] } })
  | none =>
    match ctrlGroup d tile c with
    | none => d
    | some (gn, g) =>
      match waitingHeat d gn c.sender with
      | some (key, h) =>
        if seqAbove c.epoch c.seq h.ep.epoch h.seq then
          heatOrigin d key ST_HEAT_MEMBERSHIP (if c.epoch = h.ep.epoch then 2 else 1) c.sender
        else d
      | none => if notStarted g c then keepEarly d gn c else d

/-- An ABORT (R302, R304, R305). -/
def onHeatAbort (d : Ix9) (tile : Nat) (c : Ctrl) : Ix9 :=
  let a : Abort := ⟨c.status, c.cause, c.origin, c.lap, c.a % 65536, none, false⟩
  match ctrlHeat d tile c with
  | some (key, h) =>
    if h.finished || h.aborted.isSome then d
    else
      let d := if h.sentUp then d else count d Fld.COLL_ABORTS_RCVD h.tile
      heatAbort d key a (some c.sender)
  | none =>
    match ctrlGroup d tile c with
    | none => d
    | some (gn, g) =>
      let next := match g.lastStarted with | some l => (l + 1) % 65536 | none => 0
      if c.epoch = g.ep.epoch && (c.seq + 65536 - next) % 65536 < 16 && !has g.recorded c.seq then
        count (updGroup d gn (fun g => { g with recorded := put g.recorded c.seq a })) Fld.COLL_ABORTS_RCVD tile
      else d

/-- A FINISH_UP of a tree-0 child (R301). -/
def onFinishUp (d : Ix9) (tile : Nat) (c : Ctrl) : Ix9 :=
  match ctrlHeat d tile c with
  | some (key, h) =>
    if h.ups.contains c.sender then d
    else updHeat d key (fun h => noteArrived d.now { h with ups := insertNat h.ups c.sender } 0xFFFE c.sender)
  | none =>
    match ctrlGroup d tile c with
    | some (gn, g) => if notStarted g c then keepEarly d gn c else d
    | none => d

/-- A RELEASE (R301, R302): the member holds the decision, forwards it and completes with it. -/
def onRelease (d : Ix9) (tile : Nat) (c : Ctrl) : Ix9 :=
  match ctrlHeat d tile c with
  | none => d
  | some (key, h) =>
    if h.decision.isSome || h.fast then d
    else if c.status = 0 then
      (if h.sentUp && !h.finished then
         let d := updHeat d key (fun h => noteArrived d.now { h with decision := some (0, 0) } 0xFFFF c.sender)
         heatComplete (sendRelease d h 0 0 (h.tree0.children h.ep.bib)) key ST_OK 0
       else d)
    else
      let a : Abort := ⟨c.status, c.cause, c.origin, c.lap, 0, none, false⟩
      let d := updHeat d key (fun h => { h with decision := some (c.status, c.cause), queries := none,
                                                aborted := match h.aborted with | some a => some a | none => some a })
      abortStep (sendRelease d { h with aborted := some a } c.status c.cause (h.tree0.children h.ep.bib)) key

/-- A QUERY for a Heat that Bib 0 has not started: it decides abort, with the cause of an ABORT it has recorded or 0x01, and
answers; when the Heat starts it ends with that (R302, R305) (DEDUCED, log entry 33). -/
def queryUnstarted (d : Ix9) (tile : Nat) (c : Ctrl) : Ix9 :=
  match ctrlGroup d tile c with
  | none => d
  | some (gn, g) =>
    if g.ep.bib != 0 || c.epoch != g.ep.epoch || !notStarted g c then d
    else
      let a := (look g.recorded c.seq).getD ⟨ST_HEAT_ABORTED, 0x01, 0, 0xFFFF, 0, none, false⟩
      ctrlTo (updGroup d gn (fun g => { g with recorded := put g.recorded c.seq a })) g.ep c.sender
        { kind := 4, status := a.status, cause := a.cause, seq := c.seq, lap := 0xFFFF, origin := a.origin }

/-- A QUERY (R302): whoever holds the decision answers; an undecided Bib 0 decides abort first. -/
def onQuery (d : Ix9) (tile : Nat) (c : Ctrl) : Ix9 :=
  match ctrlHeat d tile c with
  | none => queryUnstarted d tile c
  | some (key, h) =>
    let d := if h.ep.bib = 0 && h.decision.isNone && h.finishes then
        (match h.aborted with
         | some a => updHeat d key (fun h => { h with decision := some (a.status, a.cause) })
         | none => heatOrigin d key ST_HEAT_ABORTED 0x01 0)
      else d
    match heatAt d key with
    | some h => (match h.decision with
        | some (st, cs) => sendRelease d h st cs [c.sender]
        | none => d)
    | none => d

/-- A MARK repeated for a Heat that is over at this member: its slot is free, and the credit goes to the parent again. -/
def markOver (d : Ix9) (tile : Nat) (c : Ctrl) : Ix9 :=
  match ctrlGroup d tile c with
  | none => d
  | some (_, g) =>
    match g.mcLast with
    | some (seq, hash, lap) => if c.epoch = g.ep.epoch && c.seq = seq then mcPass d g.ep c.sender seq hash lap (c.a % 8) else d
    | none => d

/-- A MARK (R298): the member takes the chunk, or asks the root for it again. -/
def onMark (m : List Host.Cell) (d : Ix9) (tile : Nat) (c : Ctrl) : Ix9 :=
  match ctrlHeat d tile c with
  | none => markOver d tile c
  | some (key, h) =>
    match h.xfers.find? (fun x => x.mc && !x.send) with
    | none => d
    | some x =>
      let slot := c.a % 8
      let d := updHeat d key (fun h => { h with mcMark := put h.mcMark slot (c.a, c.b) })
      if x.done || has x.chunks c.a then mcCredit d key slot true
      else if c.b ≤ num h.mcGot slot then mcTake m d key c.a c.b .own
      else ctrlTo d h.ep x.peer { kind := 7, seq := h.seq, lap := x.lap, a := c.a }

/-- A REPAIR (R298): the root sends the chunk again by unicast into the same slot. -/
def onRepair (d : Ix9) (tile : Nat) (c : Ctrl) : Ix9 :=
  match ctrlHeat d tile c with
  | none => d
  | some (key, h) =>
    match findAt h.xfers (fun x => x.mc && x.send), h.ep.peer c.sender with
    | some (i, x), some p =>
      if x.n ≤ c.a || c.a + 8 < x.n then d
      else
        let cb := chunkBytes d h x
        let b := sub (xData h x) (c.a * cb) ((c.a + 1) * cb)
        let k := d.h.nextLocal
        let d := { d with h := { d.h with nextLocal := k + 1 } }
        let d := updHeat (count d Fld.COLL_MC_REPAIRS tile) key (fun h => { h with inflight := h.inflight + 1 })
        postMsg d p.conn { org := .heat key ((i + 1) * 2 ^ 40 + k), op := 0x11, inl := some b, window := p.win, rkey := p.rkey,
                           offset := c.a % 8 * chunkSize d, total := b.length }
    | _, _ => d

/-- Acts on a control message by its KIND; reserved kinds are discarded. -/
def onCtrl (m : List Host.Cell) (d : Ix9) (tile : Nat) (c : Ctrl) : Ix9 :=
  if c.kind = 1 then onCredit d tile c
  else if c.kind = 2 then onHeatAbort d tile c
  else if c.kind = 3 then onFinishUp d tile c
  else if c.kind = 4 then onRelease d tile c
  else if c.kind = 5 then onQuery d tile c
  else if c.kind = 6 then onMark m d tile c
  else if c.kind = 7 then onRepair d tile c
  else d

/-- Messages that came before their Heat started act now (R296). -/
def replayEarly (m : List Host.Cell) (d : Ix9) (group : Nat) : Ix9 :=
  let g := lookD d.h.groups group
  let here (c : Ctrl) : Bool := (ctrlHeat d g.tile c).isSome
  let d' := updGroup d group (fun g => { g with early := g.early.filter (fun c => !here c) })
  (g.early.filter here).foldl (fun d c => onCtrl m d g.tile c) d'

/-- The message of a HEAT_CTRL packet at a tile (R297): its trailer and age hold (R193, R235); a unicast one passes the
checks of its connection, and its tag with ENC, and is discarded uncounted where XPORT is not ready (R186). The packet
leaves the tile's input unless its key is being fetched. -/
def openCtrl (d : Ix9) (k : Packet) : Ix9 × Option (Nat × Ctrl) :=
  let n := k.conn
  let took (d : Ix9) : Ix9 := { d with net := { d.net with toTile := takeFrom d.net.toTile k } }
  let tile := match d.net.toTile.find? (fun e => e.2.contains k) with | some (t, _) => bufTile t | none => if k.mc then lowestTile d else homeTile d n
  if k.typ != 0x11 then (d, none)
  else if (connOf d n).roce && !k.mc then (took d, some (tile, ctrlOf k.payload))
  else if k.crc != k.trailer then (count (took d) Fld.FAB_BAD_PKT, none)
  else if 500 ≤ ageMs d k then
    (count (took d) Fld.RD_EXPIRED (if !k.mc && blockValid d n then homeTile d n else lowestTile d), none)
  else if k.mc then (took d, some (tile, ctrlOf k.payload))
  else if !blockValid d n then (count (took d) Fld.CONN_NO_BLOCK, none)
  else if !xportReady d (homeTile d n) then (took d, none)
  else if !connLive d n then (count (took d) Fld.CONN_DEAD_DISCARDS tile, none)
  else if !peerMatches (connOf d n) (.native k) then (count (took d) Fld.CONN_PEER_MISMATCH tile, none)
  else
    match openPkt d n 2 (.native k) with
    | (d, .pass l) => (took d, some (tile, ctrlOf l))
    | (d, .wait) => (d, none)
    | (d, .fail _) => (match tagFail (took d) n with
        | (d, true) => (enterError d n 3 none true, none)
        | (d, false) => (d, none))
    | (d, _) => (took d, none)

/-- A control message of a kind arrives. -/
def ctrlReceived (m : List Host.Cell) (d : Ix9) (kind : Nat) (k : Packet) : Ix9 :=
  match openCtrl d k with
  | (d', some (tile, c)) =>
    if c.kind = kind && islandReady d (iCOLL tile) then heatsRun m (onCtrl m d' tile c) else d
  | (d', none) => d'

/-! ## Timers (R298, R299, R301, R302, R304) -/

/-- INTERVAL after the last ABORT: another one to the native neighbours. -/
def abortRepeat (d : Ix9) (key : Nat) : Ix9 :=
  match heatAt d key with
  | some h =>
    (match h.aborted with
     | some a =>
       if h.repeats = 0 then d
       else heatForget (sendAborts (updHeat d key (fun h => { h with repeats := h.repeats - 1 })) h a h.repeatTo) key
     | none => d)
  | none => d

/-- INTERVAL after the last QUERY: another one, or, LAP_WINDOW after the last, the end with cause 0x09. -/
def queryRepeat (d : Ix9) (key : Nat) : Ix9 :=
  match heatAt d key with
  | some h =>
    (match h.queries with
     | some 0 =>
       heatComplete (updHeat d key (fun h => { h with aborted := some ⟨ST_HEAT_ABORTED, 0x09, h.ep.bib, 0xFFFF, 0, none, false⟩ })) key ST_HEAT_ABORTED 0x09
     | some (q + 1) =>
       let d := updHeat d key (fun h => { h with queries := some q })
       let dest := (match h.tree0.parent h.ep.bib with | some p => [p] | none => []).foldl insertNat [0]
       dest.foldl (fun d b => ctrlTo d h.ep b { kind := 5, seq := h.seq, lap := 0xFFFF }) d
     | none => d)
  | none => d

/-- 2 * LAP_WINDOW after completion the decision is dropped. -/
def decisionHoldEnd (d : Ix9) (key : Nat) : Ix9 :=
  match heatAt d key with
  | some h => if h.finished then heatForget (updHeat d key (fun h => { h with decision := none, repeats := 0 })) key else d
  | none => d

/-- REPAIR µs after its MARK without credit for the slot: the MARK again. -/
def mcRepairTimer (d : Ix9) (key slot : Nat) : Ix9 :=
  match heatAt d key with
  | some h =>
    (match h.xfers.find? (fun x => x.mc && x.send), h.ep.dataMc with
     | some x, some mcg =>
       let kids := h.rooted.children h.ep.bib
       if x.n = 0 || h.aborted.isSome || kids.all (fun c => h.mcFreed.contains (c, slot)) then d
       else
         match ((List.range x.n).filter (fun i => i % 8 == slot)).getLast? with
         | some i => sendMark d h mcg x.lap i (min (chunkBytes d h x) (xBytes h x - i * chunkBytes d h x))
         | none => d
     | _, _ => d)
  | none => d

/-- The window of a Lap that this member is ready for has run out (R299): an incomplete input aborts the Heat, in Lap 0xFFFF the member queries. -/
def lapWindowEnd (d : Ix9) (key lap : Nat) : Ix9 :=
  match heatAt d key with
  | none => d
  | some h =>
    if h.finished || h.aborted.isSome || !has h.windowEnd lap then d
    else if lap = 0xFFFF then (if h.sentUp && h.decision.isNone then startQuery d key h else d)
    else if lap = 0xFFFE then
      (if h.sentUp || !h.visible then d
       else
         match (h.tree0.children h.ep.bib).find? (fun c => !h.ups.contains c) with
         | some c => heatOrigin d key ST_HEAT_ABORTED 0x01 c
         | none => d)
    else
      match h.xfers.find? (fun x => !x.send && !x.done && x.lap == lap) with
      | some x => heatOrigin d key ST_HEAT_ABORTED 0x01 x.peer
      | none => d

/-! ## OP_ALL_REDUCE to OP_GROUP_BARRIER -/

/-- A started Heat entry of an opcode enters the engine. -/
def opHeat (m : List Host.Cell) (d : Ix9) (op k slot : Nat) : Ix9 :=
  match startedEntry d op k slot with
  | some (s, e) =>
    let gn := e.object % 4096
    match look d.h.groups gn with
    | none => endEntry d k slot ST_BAD_ENTRY 0x40
    | some g =>
      if g.owner != s.func || g.tile != s.tile then endEntry d k slot ST_BAD_ENTRY 0x40
      else
        let (seq, nextSeq) := startSeq g e
        let d := updGroup (updEntry d k slot (fun e => { e with phase := 1 })) gn (fun g => { g with nextSeq := nextSeq })
        let key := heatKey gn g.ep.epoch seq
        heatsRun m (replayEarly m (enterHeat d key (heatOf d g gn seq k e)) gn)
  | none => d

/-! ## OP_GROUP_SET (R282 to R286) -/

def groupEpOf (e : Entry) (table : List Byte) : GroupEp :=
  { bib := e.fld 2 15 0, n := e.fld 2 31 16 + 1, stageWin := e.fld 2 55 32, epoch := e.fld 2 63 56, tag := e.fld 2 95 64,
    ctrlMc := if flag (e.slotAt 3) 31 then some (e.fld 3 16 0) else none,
    dataMc := if flag (e.slotAt 3) 63 then some (e.fld 3 48 32) else none, lapWin := e.fld 3 89 64,
    table := (chunksOf 16 table).map (fun l => ⟨fieldLE l 0 3, fieldLE l 4 3, fieldLE l 8 4⟩) }

/-- R284 checks 1 to 6; the old epoch is given for ACTION 1. -/
def groupCheck (d : Ix9) (s : Sq) (action : Nat) (old : Option Group) (g : GroupEp) : Option Nat :=
  let conns := (List.range g.n).filterMap (fun b => if b = g.bib then none else (g.peer b).map (·.conn))
  let okConn (n : Nat) : Bool :=
    let c := connOf d n
    c.owner == s.func && c.state != csRESET && c.state != csQUARANTINE && homeTile d n == s.tile && (c.lane == 4 || c.lane == 5)
  let t0 : Shape := ⟨g.n, 0, false⟩
  let t1 : Shape := ⟨g.n, 0, true⟩
  let near (t : Shape) : List Nat := (match t.parent g.bib with | some p => [p] | none => []) ++ t.children g.bib
  let need := [(g.bib + 1) % g.n, (g.bib + g.n - 1) % g.n] ++ near t0 ++ near t1
  let w := winOf d g.stageWin
  if g.n ≤ g.bib then some 0x43
  else if !conns.all okConn || !(conns.all (fun n => (connOf d n).lane == (connOf d (conns.headD 0)).lane)) then some 0x44
  else if 1 < g.n && !need.all (fun b => b == g.bib || (g.peer b).isSome) then some 0x45
  else if !(w.v && !w.quar && w.owner == s.func && w.wr && 16 * chunkSize d ≤ w.pages * 4096) then some 0x46
  else if (if action = 0 then old.isSome else match old with
      | some o => o.owner != s.func || o.tile != s.tile || g.epoch != (o.ep.epoch + 1) % 256
      | none => true) then some 0x47
  else if g.dataMc.isSome && conns.any (fun n => (connOf d n).roce) then some 0x48
  else none

/-- OP_GROUP_SET. -/
def opGroupSet (m : List Host.Cell) (d : Ix9) (k slot : Nat) (r : ReadData) : Ix9 :=
  match startedEntry d 0x28 k slot with
  | some (s, e) =>
    let gn := e.object % 4096
    let old := look d.h.groups gn
    let action := e.opflags % 4
    if action = 2 then
      match old with
      | some g =>
        if g.owner != s.func || g.dying.isSome then endEntry d k slot ST_BAD_ENTRY 0x47
        else destroyWaits (updGroup (updEntry d k slot (fun e => { e with phase := 1 })) gn (fun g => { g with dying := some (k, slot) }))
      | none => endEntry d k slot ST_BAD_ENTRY 0x47
    else
      match readSegs m d ((e.bufs.head?.map (·.segs)).getD []) r with
      | .own => d
      | .poisoned _ => endEntry d k slot ST_DATA_POISON
      | .fail _ => endEntry d k slot ST_BUS_ERROR
      | .domainDown => endEntry d k slot ST_BUS_ERROR
      | .ok b =>
        let g := groupEpOf e b
        -- with HBM the table is copied; its place in the quota is not visible (DESIGN CHOICE, log entry 63)
        let place := if stacksOf d.code = 0 then (e.bufs.head?.map (·.segs)).getD [] else []
        match groupCheck d s action old g with
        | some cause => endEntry d k slot ST_BAD_ENTRY cause
        | none =>
          if action = 0 then
            (if quotaAllows d s.func rHEAT 1 then
               endEntry { d with h := { d.h with groups := put d.h.groups gn { owner := s.func, tile := s.tile, ep := g, place := place } } } k slot ST_OK 0 b.length
             else endEntry d k slot ST_QUOTA 0x01)
          else
            endEntry (updGroup d gn (fun o => { o with ep := g, place := place, mcLast := none, nextSeq := 0, lastStarted := none, recorded := [],
                                                       early := o.early.filter (fun c => c.epoch == g.epoch) })) k slot ST_OK 0 b.length
  | none => d

/-! ## Sequence objects (R338 to R343) -/

/-- The object that an attribute block describes (R339). -/
def seqOf (s : Sq) (b : List Byte) : SeqObj :=
  let v := leNat b
  { owner := s.func, tile := s.tile, layers := bits v 7 0 + 1, heads := bits v 11 8 + 1, dim := bits v 13 12, fmt := bits v 19 16,
    tokens := bits v 54 32, first := bits v 87 64, cap := bits v 110 96, table := bits v 191 128,
    group := if flag v 207 then some (bits v 203 192) else none, tag := bits v 255 224, batonConn := bits v 279 256,
    batonWin := bits v 311 288, nextWin := bits v 343 320, nextRkey := bits v 383 352, context := bits v 408 384 }

/-- The fields a modify may not change (R343). -/
def sameFixed (a b : SeqObj) : Bool :=
  a.layers == b.layers && a.heads == b.heads && a.dim == b.dim && a.fmt == b.fmt && a.cap == b.cap && a.table == b.table
    && a.group == b.group && a.tag == b.tag

/-- R343 checks 2 to 7. -/
def seqCheck (d : Ix9) (s : Sq) (old : Option SeqObj) (n : SeqObj) : Option (Nat × Nat) :=
  if n.table % 4096 != 0 || lmSpace d s.func < n.table + 8 * n.layers * n.cap then some (ST_BAD_ENTRY, 0x71)
  else if (match old with | some o => !sameFixed o n | none => false) then some (ST_BAD_ENTRY, 0x72)
  else if (match n.group with
      | some g => (match look d.h.groups g with | some x => x.owner != s.func || x.tile != s.tile | none => true)
      | none => false) then some (ST_BAD_ENTRY, 0x73)
  else if n.dim = 3 || !([2, 3, 4, 5, 7].contains n.fmt) then some (ST_ATT_SHAPE, 0x04)
  else if 4194304 < n.tokens || 256 * n.cap < n.tokens then some (ST_ATT_CONTEXT_LIMIT, 0x01)
  else if 16777216 < n.first + n.tokens || 16777216 < n.context then some (ST_ATT_CONTEXT_LIMIT, 0x02)
  else none

/-- OP_ATT_BLOCK_TABLE. CAP_BLOCKS outside 1 to 16,384 is cause 0x07 (R584). -/
def opBlockTable (m : List Host.Cell) (d : Ix9) (k slot : Nat) (r : ReadData) : Ix9 :=
  match startedEntry d 0x32 k slot with
  | some (s, e) =>
    let n := e.object % 65536
    let action := e.opflags % 4
    let old := look d.h.seqs n
    if (action = 0) = old.isSome then endEntry d k slot ST_BAD_ENTRY 0x70
    else if (match old with | some o => o.owner != s.func || o.tile != s.tile | none => false) then endEntry d k slot ST_BAD_ENTRY 0x73
    else if action = 2 then
      destroyWaits { updEntry d k slot (fun e => { e with phase := 1 }) with
        h := { (updEntry d k slot (fun e => { e with phase := 1 })).h with seqs := upd d.h.seqs n (fun o => { o with dying := some (k, slot) }) } }
    else
      match readSegs m d ((e.bufs.head?.map (·.segs)).getD []) r with
      | .own => d
      | .poisoned _ => endEntry d k slot ST_DATA_POISON
      | .fail _ => endEntry d k slot ST_BUS_ERROR
      | .domainDown => endEntry d k slot ST_BUS_ERROR
      | .ok b =>
        let x := seqOf s b
        if x.cap = 0 || 16384 < x.cap then endEntry d k slot ST_BAD_ENTRY 0x07
        else
          match seqCheck d s old x with
          | some (st, c) => endEntry d k slot st c
          | none =>
            if action = 0 && !quotaAllows d s.func rSEQ 1 then endEntry d k slot ST_QUOTA 0x01
            else endEntry { d with h := { d.h with seqs := put d.h.seqs n { x with dying := (old.map (·.dying)).getD none } } } k slot ST_OK 0 64
  | none => d

/-! ## Attention requests (R344 to R356) -/

/-- DESC_HASH of an attention Heat (R354). -/
def attHash (op : Nat) (s : SeqObj) (a : Att) : Nat :=
  crc32c (leBytes 1 op ++ leBytes 1 a.layer ++ leBytes 1 s.dim ++ leBytes 1 (s.heads - 1) ++ leBytes 1 s.fmt
    ++ leBytes 1 (a.mask + b2n a.p4 * 4) ++ leBytes 3 a.window)

/-- The fields of an attention entry (R344). -/
def attOf (e : Entry) (tokens : Nat) : Att :=
  { seq := e.object % 65536, decode := e.op = 0x30, part := flag e.opflags 0, p4 := flag e.opflags 1, ordered := flag e.opflags 2,
    layer := e.oparg0, q := e.oparg1 % 4096 + 1, qFmt := e.oparg1 / 4096 % 16, outFmt := bits e.oparg1 19 16,
    g := bits e.oparg1 23 20 + 1, mask := bits e.oparg1 25 24, qPos := e.fld 3 23 0, window := e.fld 3 47 24,
    scale := e.fld 4 31 0, tokens := tokens }

/-- Scatter or ring mode of an attention entry (R344). -/
def attScatter (e : Entry) : Bool := e.op == 0x30 && flag e.oparg1 26
def attGrouped (e : Entry) (s : SeqObj) : Bool := attScatter e || (e.op == 0x31 && s.group.isSome)

/-- A row that a request cannot read ends it (R341, R359). -/
def attFail (d : Ix9) (key : Nat) (x : AttErr) : Ix9 :=
  match heatAt d key with
  | none => d
  | some h =>
    if localBase ≤ key then
      let d' := updHeat d key (fun h => { h with finished := true })
      let end_ (st c r : Nat) : Ix9 := match h.entry with
        | some (k, s) => endEntry (count d' Fld.MARA_REQS h.tile) k s st c (segsBytes h.dst) r
        | none => d'
      heatForget (destroyWaits (match x with
        | .row off => end_ ST_XLATE_FAULT 0x40 off
        | .poison => end_ ST_DATA_POISON 0 0
        | .bus => end_ ST_BUS_ERROR 0 0)) key
    else
      match x with
      | .row _ => heatOrigin d key ST_XLATE_FAULT 0x40 h.ep.bib
      | .poison => heatOrigin d key ST_HEAT_ABORTED 0x07 h.ep.bib (some (ST_DATA_POISON, 0))
      | .bus => heatOrigin d key ST_HEAT_ABORTED 0x07 h.ep.bib (some (ST_BUS_ERROR, 0))

/-- Every MARA island a request needs is ready (R359). -/
def maraReady (d : Ix9) : Bool := (List.range (tilesOf d.code)).all (fun t => islandReady d (iMARA t))

/-- The Heat of an attention entry outside a group. -/
def Heat.ofAtt (s : SeqObj) (a : Att) (k : Nat) (e : Entry) : Heat :=
  { group := 0, ep := {}, tile := s.tile, seq := 0, entry := some (k, e.slot), op := e.op, oper := 7, mode := if a.ordered then 3 else 0,
    fast := e.op = 0x30 || flag e.opflags 3, count := attRows s a * (lseD s.dim + 2), lseDim := s.dim, hash := attHash e.op s a,
    src := (e.bufs.head?.map (·.segs)).getD [], dst := ((e.bufs[1]?).map (·.segs)).getD [], scope := e.scope,
    barrier := e.barrier, att := some a }

/-- OP_ATT_DECODE and OP_ATT_PREFILL: the request starts. -/
def opAtt (m : List Host.Cell) (d : Ix9) (op k slot : Nat) : Ix9 :=
  match startedEntry d op k slot with
  | some (sq, e) =>
    match look d.h.seqs (e.object % 65536) with
    | none => endEntry d k slot ST_BAD_ENTRY 0x73
    | some s =>
      if s.owner != sq.func || s.tile != sq.tile then endEntry d k slot ST_BAD_ENTRY 0x73
      else if !maraReady d then endEntry d k slot ST_NOT_READY
      else
        let a := attOf e s.tokens
        let h := Heat.ofAtt s a k e
        let d := updEntry d k slot (fun e => { e with phase := 1 })
        if !attGrouped e s then
          let key := localBase + d.h.nextLocal
          heatsRun m { d with h := { d.h with nextLocal := d.h.nextLocal + 1, heats := put d.h.heats key h } }
        else
          let gn := s.group.getD 0
          match look d.h.groups gn with
          | none => endEntry d k slot ST_BAD_ENTRY 0x74
          | some g =>
            let (seq, nextSeq) := startSeq g e
            let d := updGroup d gn (fun g => { g with nextSeq := nextSeq })
            let key := heatKey gn g.ep.epoch seq
            let h := { h with group := gn, ep := g.ep, seq := seq, root := g.ep.bib }
            if op = 0x31 then
              match batonStream m d s a g.ep.bib with
              | .inr b => heatsRun m (replayEarly m (enterHeat d key { h with res := b }) gn)
              | .inl x => heatsRun m (attFail (enterHeat d key h) key x)
            else heatsRun m (replayEarly m (enterHeat d key h) gn)
  | none => d

/-- The request in a query header (R355). -/
def Att.ofHeader (b : List Byte) (sn : Nat := 0) (tokens : Nat := 0) : Att :=
  { seq := sn, decode := true, part := true, p4 := flag (fieldLE b 11 1) 2, ordered := flag (fieldLE b 11 1) 3,
    layer := fieldLE b 4 1, q := fieldLE b 8 2 % 4096 + 1, qFmt := fieldLE b 10 1, outFmt := 1,
    g := fieldLE b 7 1 % 16 + 1, mask := fieldLE b 11 1 % 4, qPos := fieldLE b 12 3, window := fieldLE b 15 3,
    scale := fieldLE b 18 4, tokens := tokens }

/-- The Heat that a query header opens at a holder. -/
def Heat.ofHeader (g : Group) (gn seq : Nat) (b : List Byte) (a : Att) : Heat :=
  { group := gn, ep := g.ep, tile := g.tile, seq := seq, op := 0x30, oper := 7, mode := if a.ordered then 3 else 0,
    fast := true, root := fieldLE b 22 2 % g.ep.n, att := some a }

/-- A holder's Heat, with the sequence object that it serves. -/
def Heat.serves (h : Heat) (s : SeqObj) (a : Att) : Heat :=
  { h with att := some a, lseDim := s.dim, count := attRows s a * (lseD s.dim + 2), hash := attHash 0x30 s a }

/-- A holder opens a scatter Heat as its first chunk arrives (R353, R355). -/
def scatterOpen (m : List Host.Cell) (d : Ix9) (gn seq peer : Nat) (b : List Byte) : Ix9 :=
  match look d.h.groups gn with
  | none => d
  | some g =>
    let key := heatKey gn g.ep.epoch seq
    if has d.h.heats key || !notStarted g { kind := 0, epoch := g.ep.epoch, seq := seq } then d
    else
      let tag := fieldLE b 0 4
      let a := Att.ofHeader b
      let h := Heat.ofHeader g gn seq b a
      let open_ (h : Heat) : Ix9 := enterHeat { d with h := { d.h with groups := upd d.h.groups gn (fun g => { g with nextSeq := (seq + 1) % 65536 }) } } key h
      if !present d uMARATHON then heatsRun m (heatOrigin (open_ h) key ST_UNIT_ABSENT 0x01 g.ep.bib)
      else
        match d.h.seqs.find? (fun (_, s) => s.group == some gn && s.tag == tag) with
        | none => heatsRun m (heatOrigin (open_ h) key ST_ATT_SHAPE 0x0B g.ep.bib)
        | some (sn, s) =>
          if s.dim != fieldLE b 5 1 || s.heads != fieldLE b 6 1 + 1 || s.layers ≤ a.layer then
            heatsRun m (heatOrigin (open_ h) key ST_ATT_SHAPE 0x0B g.ep.bib)
          else if 16777216 < a.qPos + a.q then heatsRun m (heatOrigin (open_ h) key ST_ATT_CONTEXT_LIMIT 0x03 g.ep.bib)
          else
            let a := Att.ofHeader b sn s.tokens
            let len := 32 + attRows s a * lseD s.dim * blockSize a.qFmt
            let d := open_ (h.serves s a)
            let d := updHeat d key (fun h => { h with xfers := h.xfers.map (fun x =>
              if x.space != .query then x
              else if !x.send && x.peer == peer then { x with hi := len, n := 1, chunks := [(0, b)] }
              else { x with hi := len }) })
            heatsRun m (replayEarly m d gn)

/-- The records of a request are complete at its home or alone: its output is written (R351). -/
def attWrite (d : Ix9) (key : Nat) (recs : List (List Nat)) : Ix9 :=
  match heatAt d key with
  | none => d
  | some h =>
    match h.att with
    | none => d
    | some a =>
      let (b, empty, nan) := attOutput a recs
      let d := if empty = 0 then d else count d Fld.MARA_EMPTY_ROWS h.tile empty
      let d := if nan = 0 then d else count d Fld.MARA_NAN_ROWS h.tile nan
      heatWrite d key [(0, b)]

/-- What follows the arithmetic of a request: a home with every record merged writes its output, a holder whose part is
sent is done (R354). -/
def attStep (d : Ix9) (key : Nat) : Ix9 :=
  match heatAt d key with
  | none => d
  | some h =>
    if h.op != 0x30 || h.finished || h.aborted.isSome || h.written || h.acc.isEmpty then d
    else if h.xfers.any (fun x => !x.send && !x.done) then d
    else if h.entry.isSome then attWrite d key (chunksOf (lseD h.lseDim + 2) h.acc)
    else if h.xfers.all (·.done) && h.inflight = 0 then
      heatForget (count (updHeat d key (fun h => { h with finished := true })) Fld.MARA_SERVED h.tile) key
    else d

def attsRun (m : List Host.Cell) (d : Ix9) : Ix9 := heatsRun m (d.h.heats.foldl (fun d (k, _) => attStep d k) d)

/-- The bytes of a shard's stream, its tokens and first position, once they are at hand: own (ring Lap none) or received. -/
def shardAt (h : Heat) (a : Att) : Option (Nat × Option (List Byte)) :=
  let i := a.shards.length
  let origin := (h.ep.bib + i * h.ep.n - i) % h.ep.n
  if i = 0 then some (h.ep.bib, none)
  else
    match h.xfers.find? (fun x => !x.send && x.space == .baton && x.lap + 1 == i) with
    | some x => if x.done then some (origin, some (x.chunks.flatMap (·.2))) else none
    | none => none

/-- Queries of a request: a scatter Heat's follow the header. -/
def attQueries (h : Heat) : Option (List Byte) :=
  if h.op = 0x30 && h.entry.isNone then
    (if h.xfers.all (fun x => x.send || x.space != .query || x.done) then h.data.map (·.drop 32) else none)
  else if h.op = 0x30 && 1 < h.ep.n && h.entry.isSome && !h.xfers.isEmpty then h.data.map (·.drop 32)
  else h.data

/-- MARA_ISLAND_DONE: an island has finished its blocks of the shard in work (R337, R350). -/
def maraIslandDone (m : List Host.Cell) (d : Ix9) (key island : Nat) : Ix9 :=
  match heatAt d key with
  | none => d
  | some h =>
    match h.att with
    | none => d
    | some a =>
      match look d.h.seqs a.seq, attQueries h, shardAt h a with
      | some s, some qb, some (origin, stream) =>
        let want := if h.op = 0x31 && key < localBase then h.ep.n else 1
        if h.finished || h.aborted.isSome || h.written || a.done.contains island || tilesOf d.code ≤ island || want ≤ a.shards.length then d
        else
          let (tokens, first) := match stream with
            | some b => (fieldLE b 8 3, fieldLE b 4 3)
            | none => (a.tokens, s.first)
          let row (j : Nat) : Sum AttErr (List Byte) := match stream with
            | some b => .inr (sub b (32 + j * kvRow s) (32 + (j + 1) * kvRow s))
            | none => shardRow m d s a.layer j
          let init : List (List Nat) := match look a.islands island with
            | some l => chunksOf (lseD s.dim + 2) l
            | none => List.replicate (attRows s a) (freshRow s.dim)
          match islandPass s a tokens first row (queryRows s a qb) (islandRows tokens island) { recs := init } with
          | .inl x => attFail d key x
          | .inr p =>
            let d := if p.blocks = 0 then d else count d Fld.MARA_BLOCKS island p.blocks
            let d := if p.skipped = 0 then d else count d Fld.MARA_SKIPPED island p.skipped
            let a := { a with islands := put a.islands island (p.recs.flatMap id), done := island :: a.done }
            let all := (List.range (tilesOf d.code)).all a.done.contains
            let a := if all then { a with done := [], shards := a.shards ++ [origin] } else a
            let d := updHeat d key (fun h => { h with att := some a })
            if a.shards.length < want || !all then attsRun m d
            else
              let recs := mergeIslands ((List.range (tilesOf d.code)).map (fun i => chunksOf (lseD s.dim + 2) (lookD a.islands i)))
              if h.op = 0x30 && key < localBase then attsRun m (updHeat d key (fun h => { h with acc := recs.flatMap id }))
              else attsRun m (attWrite d key recs)
      | _, _, _ => d

/-! ## Memory events of the engines -/

/-- A complete write into a window: a staging chunk, or a repaired chunk of the multicast Lap. -/
def collLanded (m : List Host.Cell) (d : Ix9) (w off bytes : Nat) : Ix9 :=
  let slot := off / chunkSize d
  if has d.h.slots (w * 1024 + slot) then slotLanded m d w off bytes .own
  else
    match d.h.heats.find? (fun (_, h) => h.ep.stageWin == w && h.aborted.isNone && has h.mcMark slot && h.xfers.any (fun x => x.mc && !x.send && !x.done)) with
    | some (key, h) => (match look h.mcMark slot with
        | some (chunk, n) => if n ≤ bytes then mcTake m (updHeat d key (fun h => Heat.bytesIn { h with mcGot := put h.mcGot slot bytes } d.now (·.mc))) key chunk n .own else d
        | none => d)
    | none => d

/-- Multicast data into a staging window (R298): the byte count of its slot. -/
def collMc (m : List Host.Cell) (d : Ix9) (w off bytes : Nat) : Ix9 :=
  let slot := off / chunkSize d
  match d.h.heats.find? (fun (_, h) => h.ep.stageWin == w && h.aborted.isNone && h.xfers.any (fun x => x.mc && !x.send && !x.done)) with
  | some (key, h) =>
    let d := updHeat d key (fun h => Heat.bytesIn { h with mcGot := bump h.mcGot slot bytes } d.now (·.mc))
    (match look h.mcMark slot with
     | some (chunk, n) => if n ≤ num h.mcGot slot + bytes then mcTake m d key chunk n .own else d
     | none => d)
  | none => d

/-- A write into a staging window faulted at check 6 of R134: cause 0x06 (R303). -/
def collFaulted (d : Ix9) (w cause : Nat) : Ix9 :=
  d.h.heats.foldl (fun d (key, h) =>
    if h.ep.stageWin = w && key < localBase && !h.finished then
      heatOrigin d key ST_HEAT_ABORTED 0x06 h.ep.bib (some (faultStatus cause, cause))
    else d) d

/-- The engine's read of a staged chunk or of a multicast slot comes back (R295). -/
def stageRead (m : List Host.Cell) (d : Ix9) (w slot : Nat) (r : ReadData) : Ix9 :=
  match look d.h.slots (w * 1024 + slot) with
  | some u => (match u.landed with
      | some n => heatsRun m (slotLanded m d w (slot * chunkSize d) n r)
      | none => d)
  | none =>
    match d.h.heats.find? (fun (_, h) => h.ep.stageWin == w && has h.mcMark slot && h.xfers.any (fun x => x.mc && !x.send && !x.done)) with
    | some (key, h) => (match look h.mcMark slot with
        | some (chunk, n) => if n ≤ num h.mcGot slot then heatsRun m (mcTake m d key chunk n r) else d
        | none => d)
    | none => d

/-- The read of a Heat's source comes back. -/
def heatSource (m : List Host.Cell) (d : Ix9) (key : Nat) (r : ReadData) : Ix9 := attsRun m (heatsRun m (loadStep m d key r))

end Sys2Proof.Machine
end

