-- ==== Sys2Proof/Machine/Stride.lean ====
section
/-!
DEFINITION. The Stride engines (14_stride_engines.md): channels, queue entries, descriptor chains, pacing, pause and
stop.
-/

namespace Sys2Proof.Machine

/-! ## Channels (R383 to R385, R400, R405) -/

def chanTile (d : Ix9) (c : Nat) : Nat := c % tilesOf d.code

/-- States of STRIDE_CH_STATUS.STATE (R405). -/
def chIDLE : Nat := 0
def chRUN : Nat := 1
def chPAUSING : Nat := 2
def chPAUSED : Nat := 3
def chSTOPPING : Nat := 4

def chanState (d : Ix9) (c : Nat) : Nat := rget d Fld.STRIDE_CH_STATUS_STATE c

def setChan (d : Ix9) (c st : Nat) : Ix9 := rset d Fld.STRIDE_CH_STATUS_STATE c st

def updChan (d : Ix9) (c : Nat) (g : Chan → Chan) : Ix9 := { d with stride := upd d.stride c g }

/-- Changes descriptor number `k` of a channel. -/
def updRun (d : Ix9) (c k : Nat) (g : DescRun → DescRun) : Ix9 :=
  updChan d c (fun s => { s with runs := s.runs.map (fun r => if r.k = k then g r else r) })

def runAt (d : Ix9) (c k : Nat) : Option DescRun := (look d.stride c).bind (fun s => s.runs.find? (fun r => r.k == k))

/-- The target a channel's port names; none for a local channel (R384). -/
def chanTarget (d : Ix9) (c : Nat) : Option Target :=
  let p := rget d Fld.STRIDE_CH_CFG_PORT c
  if p = 0 then some .host else if p ≤ 4 then some (.accel (p - 1)) else none

/-- R384 permits a source or destination target on a channel. -/
def chanPermits (d : Ix9) (c : Nat) (dst : Bool) (t : Target) : Bool :=
  match chanTarget d c with
  | none => true
  | some w => if (rget d Fld.STRIDE_CH_CFG_DIR c = 0) = (dst = true) then t == w else true

def chanPermitsAll (d : Ix9) (c : Nat) (src dst : List Seg) : Bool :=
  src.all (fun s => chanPermits d c false s.phys.target) && dst.all (fun s => chanPermits d c true s.phys.target)

/-- The channel may serve entries of a queue (R383, R389 cause 0x80). -/
def chanUsable (d : Ix9) (c : Nat) (s : Sq) : Bool :=
  rget d Fld.STRIDE_CH_CFG_OWNER c == s.func && tileServes d s (chanTile d c)

/-- Buffers of a Stride entry: source pieces and destination pieces (R387). -/
def strideBufs (e : Entry) : List Seg × List Seg :=
  match e.op, e.bufs with
  | 0x01, [a, b] => (a.segs, b.segs)
  | 0x02, [b] => ([], b.segs)
  | _, _ => ([], [])

/-- The channel an entry would start on now: the one it names, or one the IX9 chooses, local ones first (R387). -/
def stridePick (d : Ix9) (s : Sq) (e : Entry) : Option Nat × Ix9 :=
  if e.op = 0x03 || e.object != 0xFFFFFF then
    (if chanState d (e.object % 128) = chIDLE then some (e.object % 128) else none, d)
  else
    let (src, dst) := strideBufs e
    let all := (List.range 128).filter (fun c => chanUsable d c s && chanTile d c == s.tile && chanState d c == chIDLE && chanPermitsAll d c src dst)
    let local_ := all.filter (fun c => (chanTarget d c).isNone)
    let pool := if local_.isEmpty then all else local_
    match pool with
    | [] => (none, d)
    | [c] => (some c, d)
    | _ => (pool[(draw d).1 % pool.length]?, (draw d).2)

/-- The one transfer of an OP_COPY or OP_FILL entry (R387). -/
def entryRun (e : Entry) : DescRun :=
  let (src, dst) := strideBufs e
  { k := 0, addr := none, src := src, dst := dst,
    desc := { src := if e.op = 0x02 then e.operandAt 1 else 0, dst := 0, rowBytes := segsLen dst,
              op := if e.op = 0x02 then 1 else 0, barrier := e.barrier, scope := e.scope } }

/-- A Stride entry starts: its channel leaves IDLE (R387, R388). False where no channel is free. -/
def strideClaim (d : Ix9) (k : Nat) (s : Sq) (e : Entry) : Ix9 × Bool :=
  match stridePick d s e with
  | (none, d) => (d, false)
  | (some c, d) =>
    let ch : Chan := { sq := k, slot := e.slot, func := s.func, asid := s.asid, chain := e.op == 0x03,
                       runs := if e.op = 0x03 then [] else [entryRun e], nextK := 1 }
    (setChan { d with stride := put d.stride c ch } c chRUN, true)

/-! ## Where the next bytes lie (R387, R390, R392) -/

def DescRun.total (r : DescRun) : Nat := r.desc.rowBytes * r.desc.rows

/-- Virtual address of byte `pos` of a side. -/
def DescRun.va (r : DescRun) (dst : Bool) (pos : Nat) : Nat :=
  let row := pos / max 1 r.desc.rowBytes
  let at_ := pos % max 1 r.desc.rowBytes
  if dst then r.desc.dst + row * r.desc.dstPitch + at_ else r.desc.src + row * r.desc.srcPitch + at_

def XRes.none? : XRes → Bool
  | .ok _ => true
  | _ => false

/-- Record of a translation failure of a descriptor (R397). -/
def chanFault (d : Ix9) (ch : Chan) (c : Nat) (addr tag : Nat) (write : Bool) (f : XFault) : Ix9 :=
  recordFault d ch.func { fault := f, write := write, asid := ch.asid, sqId := sqIdOf ch.sq, tag := tag,
                          slot := addr % 2 ^ 32, object := c }

/-- What a translation for a channel gives. -/
inductive Side where
  | seg (s : Seg)
  | wait
  | bad (b : Bad)
  deriving DecidableEq, Repr

/-- R116 on a piece: the connection of a remote descriptor belongs to the function (DEDUCED, log entry 38). -/
def remoteOwned (d : Ix9) (f : Nat) (s : Seg) : Bool :=
  match s.phys.target with
  | .remote n _ _ => (connOf d n).owner == f
  | _ => true

/-- Translates one address of a channel. -/
def chanXlate (d : Ix9) (ch : Chan) (c : Nat) (addr tag va : Nat) (write : Bool) : Ix9 × Side :=
  let isl := xisle (chanTile d c)
  match xlate d isl ch.asid { va := va, len := 1, write := write, remote := true } with
  | .ok (s :: _) =>
    if remoteOwned d ch.func s then (d, .seg { s with len := s.page - va % s.page })
    else (chanFault d ch c addr tag write ⟨0x09, levelOf s.page, s.gen, va⟩, .bad ⟨ST_XLATE_PERM, 0x09, b2n write, 0, va⟩)
  | .ok [] => (d, .wait)
  | .miss page => (startWalk d isl ch.asid page, .wait)
  | .fault f => (chanFault d ch c addr tag write f, .bad ⟨faultStatus f.cause, f.cause, b2n write, 0, va⟩)
  | .unit st => (d, .bad ⟨st, 0, b2n write, 0, va⟩)

/-- The piece that holds the next byte of a side, translated at the descriptor's first access to its page (R392). -/
def sideNext (d : Ix9) (c : Nat) (ch : Chan) (r : DescRun) (dst : Bool) : Ix9 × Side :=
  match r.addr with
  | none =>
    match slice r.pos (r.total - r.pos) (if dst then r.dst else r.src) with
    | s :: _ => if chanPermits d c dst s.phys.target then (d, .seg s) else (d, .bad ⟨ST_BAD_ENTRY, 0x84, b2n dst, 0, s.va⟩)
    | [] => (d, .wait)
  | some a =>
    let va := r.va dst r.pos
    match (if dst then r.dst else r.src).find? (fun s => s.va ≤ va && va < s.va + s.len) with
    | some s => (d, .seg { s with va := va, len := s.len - (va - s.va), phys := { s.phys with addr := s.phys.addr + (va - s.va) } })
    | none =>
      match chanXlate d ch c a r.desc.tag va dst with
      | (d, .seg s) =>
        if chanPermits d c dst s.phys.target then
          (updRun d c r.k (fun r => if dst then { r with dst := r.dst ++ [s] } else { r with src := r.src ++ [s] }), .seg s)
        else (d, .bad ⟨ST_BAD_ENTRY, 0x84, b2n dst, 0, va⟩)
      | x => x

/-- Keeps STRIDE_CH_ROW and STRIDE_CH_REM (R401). -/
def showPos (d : Ix9) (c k : Nat) : Ix9 :=
  match runAt d c k with
  | none => d
  | some r =>
    let n := max 1 r.desc.rowBytes
    let left := if r.total ≤ r.pos then 0 else n - r.pos % n
    rset (rset d Fld.STRIDE_CH_ROW c (r.pos / n)) Fld.STRIDE_CH_REM c left

/-- The data of a descriptor is issued in full, or it is BAD: the acknowledgements its SCOPE asks for are sought on
every path it wrote; a BARRIER asks for those of the chain's earlier descriptors too (R395). -/
def runEnded (d : Ix9) (c k : Nat) : Ix9 :=
  match look d.stride c, runAt d c k with
  | some ch, some r =>
    if r.ended then d
    else
      let paths := if r.desc.barrier then r.paths ++ ch.paths.filter (fun p => !r.paths.contains p) else r.paths
      let d := updRun d c k (fun r => { r with ended := true, acks := paths.length, burst := none })
      paths.foldl (fun d p => needAck d p (.desc c k) r.desc.scope r.desc.barrier) d
  | _, _ => d

/-- A descriptor goes BAD (R397). -/
def runBad (d : Ix9) (c k : Nat) (b : Bad) : Ix9 :=
  runEnded (updRun d c k (fun r => { r with bad := some (r.bad.getD b) })) c k

/-- `n` more bytes of a descriptor are written at `s`. -/
def runMoved (d : Ix9) (c k n : Nat) (s : Option Seg) : Ix9 :=
  let d := count d Fld.STRIDE_BYTES (chanTile d c) n
  let d := updRun d c k (fun r => { r with pos := r.pos + n, burst := r.burst.bind (fun b => if b ≤ n then none else some (b - n)) })
  let d := match s, runAt d c k with
    | some s, some r =>
      let p := pathOf d s.phys
      let d := updRun d c k (fun r => { r with paths := if r.paths.contains p then r.paths else r.paths ++ [p] })
      let d := updChan d c (fun ch => { ch with paths := if ch.paths.contains p then ch.paths else ch.paths ++ [p] })
      if r.desc.barrier || r.desc.scope = 2 then stillWriting d p (.desc c k) else d
    | _, _ => d
  let d := showPos d c k
  match runAt d c k with
  | some r => if r.pos = r.total then runEnded d c k else d
  | none => d

/-- The descriptor that moves data now: the first started one with data left. -/
def movingRun (ch : Chan) : Option DescRun := ch.runs.find? (fun r => r.started && !r.ended)

/-- Bytes the next access may move: its row, its burst, 512 (R386, R390, R398). None where a request is awaited. -/
def pieceRoom (r : DescRun) : Option Nat :=
  let row := if r.addr.isNone then r.total - r.pos else max 1 r.desc.rowBytes - r.pos % max 1 r.desc.rowBytes
  if r.desc.waitReq then r.burst.map (fun b => min 512 (min b row)) else some (min 512 row)

/-- Posts a message of a channel on a connection (R116). -/
def stridePost (d : Ix9) (c conn window rkey off : Nat) (kind : StrideMsg) (inl : Option (List Byte)) (n : Nat)
    (scope : Nat) (barrier : Bool) : Ix9 :=
  postMsg (updChan d c (fun ch => { ch with msg := some kind, hold := [] })) conn
    { org := .stride c, op := if inl.isSome then 0x11 else 0x13, inl := inl, window := window, rkey := rkey, offset := off,
      total := n, scope := scope, barrier := barrier }

/-- Writes bytes of a descriptor at a piece: locally, or as OP_WRITE. -/
def strideWrite (d : Ix9) (c : Nat) (r : DescRun) (s : Seg) (b : List Byte) : Ix9 :=
  match s.phys.target with
  | .remote conn w key =>
    if connLive d conn then stridePost d c conn w key s.phys.addr (.dataWrite b.length) (some b) b.length r.desc.scope r.desc.barrier
    else runBad d c r.k ⟨ST_CONN_ABORTED, 0, 1, 0, s.va⟩
  | _ =>
    let (d, poison) := memWrite d s.phys b
    if poison then runBad d c r.k ⟨ST_DATA_POISON, 0, 0, 0, s.va⟩ else runMoved d c r.k b.length (some s)

/-- Byte i of a fill is byte (i mod 8) of PATTERN (R387). -/
def fillBytes (pattern pos n : Nat) : List Byte :=
  (List.range n).map (fun i => BitVec.ofNat 8 (pattern / 256 ^ ((pos + i) % 8)))

/-! ## Starting descriptors (R395, R396, R398) -/

/-- Starts descriptors whose turn has come: those before it have no unfinished BARRIER, and NOTIFY has its slot. -/
def strideStart (d : Ix9) (c : Nat) : Ix9 :=
  match look d.stride c with
  | none => d
  | some ch =>
    if !(chanState d c = chRUN || chanState d c = chSTOPPING) then d
    else
      match ch.runs.find? (fun r => !r.started) with
      | none => d
      | some r =>
        let before := ch.runs.filter (fun o => o.k < r.k)
        let cq := ((sqAt d ch.sq).map (·.cq)).getD 0
        if before.any (fun o => o.desc.barrier) || before.any (fun o => !o.ended) then d
        else if r.desc.notify && !cqFree d cq then d
        else
          let d := if r.desc.notify then cqReserve d cq else d
          let d := updRun d c r.k (fun r => { r with started := true, resv := r.desc.notify })
          let d := match r.addr with | some a => rset d Fld.STRIDE_CH_DESC c a | none => d
          let d := showPos d c r.k
          if r.bad.isSome then runEnded d c r.k
          else if r.total = 0 then runEnded d c r.k else d

/-- Does what a channel can do without data from outside: starts descriptors, fills, asks for remote data. -/
def strideGo (fuel : Nat) (d : Ix9) (c : Nat) : Ix9 :=
  match fuel with
  | 0 => d
  | fuel + 1 =>
    let d := strideStart d c
    match look d.stride c with
    | none => d
    | some ch =>
      if !(chanState d c = chRUN || chanState d c = chSTOPPING) || ch.msg.isSome || !ch.begun then d
      else
        match movingRun ch with
        | none => d
        | some r =>
          match pieceRoom r with
          | none => d
          | some n =>
            if r.desc.op = 1 then
              match sideNext d c ch r true with
              | (d, .seg s) =>
                let n := min n s.len
                strideGo fuel (strideWrite d c r s (fillBytes r.desc.src r.pos n)) c
              | (d, .wait) => d
              | (d, .bad b) => strideGo fuel (runBad d c r.k b) c
            else
              match sideNext d c ch r false with
              | (d, .bad b) => strideGo fuel (runBad d c r.k b) c
              | (d, .wait) => d
              | (d, .seg s) =>
                match sideNext d c ch r true with
                | (d, .bad b) => strideGo fuel (runBad d c r.k b) c
                | (d, .wait) => d
                | (d, .seg t) =>
                  match s.phys.target with
                  | .remote conn w key =>
                    let n := min n (min s.len t.len)
                    if connLive d conn then stridePost d c conn w key s.phys.addr (.dataRead n) none n r.desc.scope r.desc.barrier
                    else strideGo fuel (runBad d c r.k ⟨ST_CONN_ABORTED, 0, 0, 0, s.va⟩) c
                  | _ => d

/-- Fuel for a channel: the accesses left of its descriptors and a few. -/
def strideFuel (d : Ix9) (c : Nat) : Nat :=
  match look d.stride c with
  | none => 1
  | some ch => ch.runs.foldl (fun a r => a + 2 * (r.total - r.pos) + 4) 4

def strideRun (d : Ix9) (c : Nat) : Ix9 := strideGo (strideFuel d c) d c

/-- PCIE and status of a failed read (R397). -/
def readBad (landing : Bool) (va : Nat) : ReadData → Bad
  | .poisoned _ => ⟨ST_DATA_POISON, 0, 0, if landing then 0 else 4, va⟩
  | .fail .ur => ⟨ST_BUS_ERROR, 0, 0, 1, va⟩
  | .fail .ca => ⟨ST_BUS_ERROR, 0, 0, 2, va⟩
  | .fail .timeout => ⟨ST_BUS_ERROR, 0, 0, 3, va⟩
  | .domainDown => ⟨ST_BUS_ERROR, 0x06, 0, 5, va⟩
  | _ => ⟨ST_BUS_ERROR, 0, 0, 7, va⟩

/-- SOURCE_READ_COMPLETION of a channel: its next piece has been read, and is written (R386, R390). A read that was
outstanding when PAUSE came still counts (R401). -/
def strideRead (m : List Host.Cell) (d : Ix9) (c : Nat) (rd : ReadData) : Ix9 :=
  match look d.stride c with
  | none => d
  | some ch =>
    let st := chanState d c
    if !(st = chRUN || st = chSTOPPING || st = chPAUSING) || ch.msg.isSome || !ch.begun then d
    else
      match movingRun ch with
      | none => d
      | some r =>
        match pieceRoom r with
        | none => d
        | some n =>
          if r.desc.op = 1 then d
          else
            match sideNext d c ch r false with
            | (d, .seg s) =>
              (match sideNext d c ch r true with
               | (d, .seg t) =>
                 let n := min n (min s.len t.len)
                 (match s.phys.target with
                  | .remote .. => d
                  | _ =>
                    match memRead m d s.phys n rd with
                    | .ok b => strideRun (strideWrite d c r t b) c
                    | x => strideRun (runBad d c r.k (readBad (s.phys.target == .landing) s.va x)) c)
               | (d, .wait) => d
               | (d, .bad b) => strideRun (runBad d c r.k b) c)
            | (d, .wait) => d
            | (d, .bad b) => strideRun (runBad d c r.k b) c

/-! ## Beginning (R387, R388) -/

/-- The channel that serves a started entry. -/
def chanOfEntry (d : Ix9) (k slot : Nat) : Option Nat :=
  (d.stride.find? (fun x => x.2.sq == k && x.2.slot == slot)).map (·.1)

/-- Ends the work of a channel: it is IDLE. -/
def chanIdle (d : Ix9) (c : Nat) : Ix9 :=
  setChan (rset { d with stride := drop d.stride c } Fld.STRIDE_CH_STATUS_STOP_PENDING c 0) c chIDLE

/-- Sets what follows a descriptor: the next address, or the chain's end (R393). -/
def chainNext (d : Ix9) (c a : Nat) : Ix9 :=
  if a % 64 != 0 then updChan d c (fun ch => { ch with next := none, fin := some (some (ST_BAD_ENTRY, 0x04, a)) })
  else updChan d c (fun ch => { ch with next := some a })

/-- Ends the entry of a channel and the channel's work. -/
def chanFinish (d : Ix9) (c status cause bytes result : Nat) : Ix9 :=
  match look d.stride c with
  | none => d
  | some ch => endEntry (chanIdle d c) ch.sq ch.slot status cause bytes result

/-- A chain ends once nothing of it is in work and its end is due (R393, R401 step 3). -/
def chainEnd (d : Ix9) (c : Nat) : Ix9 :=
  match look d.stride c with
  | none => d
  | some ch =>
    if !ch.chain || !ch.runs.isEmpty || ch.msg.isSome then d
    else
      match ch.fin with
      | some (some (st, cause, res)) => chanFinish d c st cause (ch.bytes % 2 ^ 32) res
      | some none =>
        chanFinish d c (ch.firstBad.getD ST_OK) (if ch.firstBad.isSome then 0x01 else 0) (ch.bytes % 2 ^ 32)
          (ch.ended % 2 ^ 32 + ch.bads % 2 ^ 32 * 2 ^ 32)
      | none =>
        if chanState d c = chSTOPPING then chanFinish d c ST_STOPPED 0x02 (ch.bytes % 2 ^ 32) (ch.next.getD 0) else d

/-- OP_COPY, OP_FILL and OP_CHAIN_START: a started entry of the opcode sets its channel to work. -/
def opStride (d : Ix9) (op k slot : Nat) : Ix9 :=
  match startedEntry d op k slot, chanOfEntry d k slot with
  | some (_, e), some c =>
    let d := updEntry (updChan d c (fun ch => { ch with begun := true })) k slot (fun e => { e with phase := 1 })
    if op = 0x03 then
      let d := if flag e.opflags 0 then rset d Fld.STRIDE_CH_REQS c 0 else d
      chainNext (rset d Fld.STRIDE_CH_DESC c (e.operandAt 1)) c (e.operandAt 1)
    else strideRun d c
  | _, _ => d

/-! ## Descriptors (R390 to R393) -/

def descOf (b : List Byte) : Desc :=
  let v := leNat b
  { src := bits v 63 0, dst := bits v 127 64, rowBytes := bits v 159 128, rows := bits v 183 160 + 1,
    srcPitch := bits v 223 192, dstPitch := bits v 255 224, next := bits v 319 256, v := flag v 320,
    op := bit v 321, last := flag v 322, barrier := flag v 323, scope := bits v 325 324, waitReq := flag v 326,
    notify := flag v 327, tag := bits v 351 336 }

/-- R397: ROW_BYTES 0 or a transfer beyond 2^64. -/
def descMalformed (x : Desc) : Bool :=
  x.rowBytes == 0 || decide (2 ^ 64 < x.dst + (x.rows - 1) * x.dstPitch + x.rowBytes)
    || (x.op == 0 && decide (2 ^ 64 < x.src + (x.rows - 1) * x.srcPitch + x.rowBytes))

/-- The bytes of descriptor `a` have come. -/
def descRead (d : Ix9) (c a : Nat) (b : List Byte) : Ix9 :=
  match look d.stride c with
  | none => d
  | some ch =>
    let x := descOf b
    let d := rset d Fld.STRIDE_CH_DESC c a
    if !x.v then chainEnd (updChan d c (fun ch => { ch with next := none, fin := some none })) c
    else
      let bad : Option Bad := if descMalformed x then some ⟨ST_BAD_ENTRY, 0x83, 0, 0, a⟩ else none
      let r : DescRun := { k := ch.nextK, addr := some a, desc := if bad.isSome then { x with rowBytes := 0 } else x, bad := bad }
      let d := updChan d c (fun ch => { ch with runs := ch.runs ++ [r], nextK := ch.nextK + 1, next := none })
      let d := if x.last then updChan d c (fun ch => { ch with fin := some none }) else chainNext d c x.next
      strideRun d c

/-- A descriptor read fails (R393): status and address; the chain ends once its descriptors have ended. -/
def descFailed (d : Ix9) (c a status : Nat) : Ix9 :=
  chainEnd (updChan d c (fun ch => { ch with next := none, fin := some (some (status, 0x04, a)) })) c

/-- DESCRIPTOR_READ_RETURN: the channel's next descriptor has been read, once the last read of the one before is issued
(R391). A descriptor in a remote window is asked for by OP_READ. -/
def descriptorRead (m : List Host.Cell) (d : Ix9) (c : Nat) (rd : ReadData) : Ix9 :=
  match look d.stride c with
  | none => d
  | some ch =>
    if chanState d c != chRUN || ch.msg.isSome || ch.fin.isSome || 2 ≤ ch.runs.length || !ch.runs.all (·.ended) then d
    else
      match ch.next with
      | none => d
      | some a =>
        match chanXlate d ch c a 0 a false with
        | (d, .wait) => d
        | (d, .bad b) => descFailed d c a b.status
        | (d, .seg s) =>
          match s.phys.target with
          | .remote conn w key =>
            if connLive d conn then stridePost d c conn w key s.phys.addr .descRead none 48 0 false
            else descFailed d c a ST_CONN_ABORTED
          | _ =>
            match memRead m d s.phys 48 rd with
            | .ok b => descRead d c a b
            | .poisoned _ => descFailed d c a ST_DATA_POISON
            | _ => descFailed d c a ST_BUS_ERROR

/-! ## The end of a descriptor (R394 to R396) -/

/-- The 16 bytes of a write-back (R394). -/
def DescRun.wb (r : DescRun) : List Byte :=
  match r.bad with
  | none => leBytes 4 (2 ^ 16) ++ leBytes 4 (r.total % 2 ^ 32) ++ leBytes 8 0
  | some b =>
    leBytes 4 (b.status + b.cause * 2 ^ 8 + 2 ^ 17 + b.side * 2 ^ 18 + b.pcie * 2 ^ 19) ++ leBytes 4 (r.pos % 2 ^ 32)
    ++ leBytes 8 (b.addr % 2 ^ 64)

/-- The write-back stands: the NOTIFY completion, the counts, and what follows (R393, R396). -/
def descDone (d : Ix9) (c k : Nat) : Ix9 :=
  match look d.stride c, runAt d c k with
  | some ch, some r =>
    let cq := ((sqAt d ch.sq).map (·.cq)).getD 0
    let (st, cause) := match r.bad with | some b => (b.status, b.cause) | none => (ST_OK, 0)
    let d := if r.resv then
        let e : Cqe := { tag := r.desc.tag, status := st, op := 0x03, sqId := sqIdOf ch.sq, cause := cause,
                         consumed := ((sqAt d ch.sq).map (·.consumed)).getD 0 % 2 ^ 32,
                         bytes := (if r.bad.isSome then r.pos else r.total) % 2 ^ 32, result := r.addr.getD 0, object := c }
        cqWrite (cqRelease d cq) cq e
      else d
    let d := count d (if r.bad.isSome then Fld.STRIDE_DESC_BAD else Fld.STRIDE_DESC_DONE) (chanTile d c)
    let d := updChan d c (fun ch => { ch with
      runs := ch.runs.filter (fun o => o.k != k), ended := ch.ended + 1, bads := ch.bads + b2n r.bad.isSome,
      firstBad := if r.bad.isSome && ch.firstBad.isNone then some st else ch.firstBad,
      bytes := ch.bytes + (if r.bad.isSome then 0 else r.total) })
    strideRun (chainEnd d c) c
  | _, _ => d

/-- A write-back fails (R393): the chain ends. -/
def backFailed (d : Ix9) (c k : Nat) : Ix9 :=
  match look d.stride c, runAt d c k with
  | some ch, some r =>
    let cq := ((sqAt d ch.sq).map (·.cq)).getD 0
    let d := ch.runs.foldl (fun d r => if r.resv then cqRelease d cq else d) d
    let fin := some (some (ST_BUS_ERROR, 0x05, r.addr.getD 0))
    chainEnd (updChan d c (fun ch => { ch with runs := [], msg := none, next := none, fin := fin })) c
  | _, _ => d

/-- DESCRIPTOR_END: the oldest descriptor has moved its data and has its acknowledgements; it is written back. -/
def descriptorEnd (d : Ix9) (c : Nat) : Ix9 :=
  match look d.stride c with
  | none => d
  | some ch =>
    match ch.runs with
    | [] => d
    | r :: _ =>
      match r.addr with
      | none => d
      | some a =>
        if !r.ended || r.acks != 0 || r.back.isSome || ch.msg.isSome || chanState d c = chPAUSED then d
        else
          match chanXlate d ch c a r.desc.tag (a + 0x30) true with
          | (d, .wait) => d
          | (d, .bad _) => backFailed d c r.k
          | (d, .seg s) =>
            match s.phys.target with
            | .remote conn w key =>
              if connLive d conn then
                stridePost (updRun d c r.k (fun r => { r with back := some true })) c conn w key s.phys.addr (.writeBack r.k)
                  (some r.wb) 16 r.desc.scope r.desc.barrier
              else backFailed d c r.k
            | _ =>
              let (d, poison) := memWrite d s.phys r.wb
              if poison then backFailed d c r.k
              else needDest (updRun d c r.k (fun r => { r with back := some true })) (pathOf d s.phys) (.descBack c r.k)

/-- The transfer of an entry is over: the entry ends and its channel is IDLE (R387). -/
def copyDone (d : Ix9) (c k : Nat) : Ix9 :=
  match look d.stride c, runAt d c k with
  | some ch, some r =>
    if ch.chain || !r.ended || r.acks != 0 then d
    else
      match r.bad with
      | none => chanFinish d c ST_OK 0 (r.total % 2 ^ 32) 0
      | some b => chanFinish d c b.status b.cause (r.pos % 2 ^ 32) b.addr
  | _, _ => d

/-- An acknowledgement of a descriptor's data has come, or its request failed (R43, R397): a failure stands before a
withdrawal (R70). -/
def strideAcked (d : Ix9) (c k : Nat) (fail : Option Bad) : Ix9 :=
  let d := updRun d c k (fun r => { r with acks := r.acks - 1, bad := match fail with
    | some b =>
      let b := { b with addr := r.va true (r.pos - 1) }
      some (match r.bad with | some x => if x.status = ST_XLATE_WITHDRAWN then b else x | none => b)
    | none => r.bad })
  copyDone d c k

/-- A message of a channel has ended (R116, R397). -/
def strideMsgEnded (d : Ix9) (c status cause : Nat) : Ix9 :=
  match look d.stride c with
  | none => d
  | some ch =>
    let kind := ch.msg
    let data := ch.hold
    let d := updChan d c (fun ch => { ch with msg := none, hold := [] })
    match kind with
    | none => d
    | some .descRead =>
      (match ch.next with
       | some a => if status = ST_OK then descRead d c a data else descFailed d c a status
       | none => d)
    | some (.writeBack k) => if status = ST_OK then descDone d c k else backFailed d c k
    | some (.dataWrite n) =>
      (match movingRun ch with
       | some r =>
         let va := r.va true r.pos
         if status = ST_OK then
           let d := runMoved d c r.k n none
           copyDone (strideRun d c) c r.k
         else copyDone (strideRun (runBad d c r.k ⟨status, cause, 1, 0, va⟩) c) c r.k
       | none => d)
    | some (.dataRead n) =>
      match movingRun ch with
      | none => d
      | some r =>
        let va := r.va false r.pos
        if status != ST_OK || data.length != n then copyDone (strideRun (runBad d c r.k ⟨status, cause, 0, 0, va⟩) c) c r.k
        else
          match sideNext d c ch r true with
          | (d, .seg t) => copyDone (strideRun (strideWrite d c r t data) c) c r.k
          | (d, .wait) => d
          | (d, .bad b) => copyDone (strideRun (runBad d c r.k b) c) c r.k

/-- Runs every channel once: transfers that need nothing from outside go on, ended ones complete. -/
def stridesRun (d : Ix9) : Ix9 :=
  d.stride.foldl (fun d x =>
    let d := strideRun d x.1
    let d := x.2.runs.foldl (fun d r => copyDone d x.1 r.k) d
    chainEnd d x.1) d

/-- The destination acknowledgement of a write-back is in. -/
def backAcked (d : Ix9) (c k : Nat) (ok : Bool) : Ix9 := if ok then descDone d c k else backFailed d c k

/-! ## Withdrawal and resets (R62, R392, R403) -/

/-- Descriptors that run with translations of a range older than `xgen`: channel and number. -/
def runsOld (d : Ix9) (asid va pages xgen : Nat) : List (Nat × Nat) :=
  d.stride.flatMap (fun (c, ch) =>
    (ch.runs.filter (fun r => r.started && (r.src ++ r.dst).any (fun g => g.inRange asid va pages && g.xgen < xgen))).map
      (fun r => (c, r.k)))

/-- A descriptor is stopped under R62: it ends BAD with ST_XLATE_WITHDRAWN, after destination acknowledgements on every
path it wrote. A paused one ends when it is resumed (R401); it moves nothing more. -/
def runWithdraw (d : Ix9) (c k : Nat) : Ix9 :=
  let d := updRun d c k (fun r => { r with desc := { r.desc with scope := 2 } })
  runBad d c k ⟨ST_XLATE_WITHDRAWN, 0, 0, 0, ((runAt d c k).map (fun r => r.va false r.pos)).getD 0⟩

/-- A function reset or an island reset makes a channel IDLE: no write-back, no completion (R403). -/
def chanReset (d : Ix9) (c : Nat) : Ix9 :=
  match look d.stride c with
  | none => d
  | some ch =>
    let cq := ((sqAt d ch.sq).map (·.cq)).getD 0
    chanIdle (ch.runs.foldl (fun d r => if r.resv then cqRelease d cq else d) d) c

/-! ## Request lines (R398, R399) -/

/-- A pulse of a line: every channel that listens counts it. -/
def linePulse (d : Ix9) (line : Nat) : Ix9 :=
  (List.range 128).foldl (fun d c =>
    if line < 0x3F && rget d Fld.STRIDE_CH_CFG_REQ_LINE c = line then
      (if rget d Fld.STRIDE_CH_REQS c < 65535 then rset d Fld.STRIDE_CH_REQS c (rget d Fld.STRIDE_CH_REQS c + 1)
       else rset d Fld.STRIDE_CH_STATUS_REQ_OVF c 1)
    else d) d

/-- A line of R399 that this device has: DREQ pins, gates and receive counts of its ports, PPS_IN, the second. -/
def lineExists (d : Ix9) (line : Nat) : Bool :=
  line < 16 || (line < 32 && portExists d (line - 16)) || line = 32 || line = 33
    || (34 ≤ line && line < 50 && portExists d (line - 34))

/-- REQUEST_LINE_PULSE. -/
def requestPulse (d : Ix9) (line : Nat) : Ix9 := if lineExists d line then linePulse d line else d

/-- DREQ_EDGE: an edge of a DREQ pin counts where its polarity is the selected one. -/
def dreqEdge (d : Ix9) (pin : Nat) (rising : Bool) : Ix9 :=
  if 16 ≤ pin then d
  else if flag (rget d Fld.STRIDE_DREQ_POL) pin != rising then linePulse d pin else d

/-- Bytes received by a port: a pulse of its line at each further STRIDE_RX_THRESH KiB. -/
def rxPulse (d : Ix9) (p bytes : Nat) : Ix9 :=
  let t := max 1 (rget d Fld.STRIDE_RX_THRESH) * 1024
  let n := (portOf d p).rxBytes + bytes
  let d := updPort d p (fun s => { s with rxBytes := n % t })
  (List.range (n / t)).foldl (fun d _ => linePulse d (34 + p)) d

/-- STRIDE_BURST_START: a WAIT_REQ descriptor that waits takes one request and starts a burst (R398). -/
def burstStart (d : Ix9) (c : Nat) : Ix9 :=
  match look d.stride c with
  | none => d
  | some ch =>
    if !(chanState d c = chRUN || chanState d c = chSTOPPING) || rget d Fld.STRIDE_CH_REQS c = 0 then d
    else
      match movingRun ch with
      | none => d
      | some r =>
        if !r.desc.waitReq || r.burst.isSome then d
        else
          let b := rget d Fld.STRIDE_CH_CFG_BURST_LOG2 c
          let b := if 8 ≤ b && b ≤ 24 then b else 12
          let d := rset d Fld.STRIDE_CH_REQS c (rget d Fld.STRIDE_CH_REQS c - 1)
          strideRun (updRun d c r.k (fun r => { r with burst := some (min (2 ^ b) (r.total - r.pos)) })) c

/-! ## Pause, resume, stop (R400 to R402) -/

/-- BEHAV_LEVEL_CURRENT is 0x40 (R402). -/
def level40 (d : Ix9) : Bool := rget d Fld.BEHAV_LEVEL_CURRENT 0 == 0x40

/-- STOP is written (DEDUCED, log entry 38). -/
def strideStop (d : Ix9) (c : Nat) : Ix9 :=
  let st := chanState d c
  if st = chRUN && (rflag d Fld.STRIDE_CH_CFG_IX4_STOP c || level40 d) then chainEnd (setChan d c chSTOPPING) c
  else if st = chPAUSING then rset d Fld.STRIDE_CH_STATUS_STOP_PENDING c 1
  else if st = chPAUSED then
    match look d.stride c with
    | none => d
    | some ch =>
      let cq := ((sqAt d ch.sq).map (·.cq)).getD 0
      let d := ch.runs.foldl (fun d r => if r.resv then cqRelease d cq else d) d
      let d := updChan d c (fun ch => { ch with runs := ch.runs.map (fun r => { r with resv := false }) })
      if ch.chain then chanFinish d c ST_STOPPED 0x03 (ch.bytes % 2 ^ 32) (rget d Fld.STRIDE_CH_DESC c)
      else
        -- R393 gives RESULT for a descriptor; an entry has none: a free value (DESIGN CHOICE, log entry 3).
        chanFinish (draw d).2 c ST_STOPPED 0x03 (((ch.runs.head?.map (·.pos)).getD 0) % 2 ^ 32) (draw d).1
  else d

/-- PAUSE is written. -/
def stridePause (d : Ix9) (c : Nat) : Ix9 :=
  let st := chanState d c
  if level40 d then strideStop d c
  else if st = chRUN then setChan d c chPAUSING
  else if st = chSTOPPING then setChan (rset d Fld.STRIDE_CH_STATUS_STOP_PENDING c 1) c chPAUSING
  else d

/-- RESUME is written. -/
def strideResume (d : Ix9) (c : Nat) : Ix9 :=
  if level40 d || chanState d c != chPAUSED then d else strideRun (setChan d c chRUN) c

/-- PAUSING_DONE: outstanding reads and writes have finished (R401): no message of the channel runs, and a BARRIER
descriptor or a BAD one has ended (R403). A STOP recorded meanwhile applies. -/
def pausingDone (d : Ix9) (c : Nat) : Ix9 :=
  match look d.stride c with
  | none => d
  | some ch =>
    if chanState d c != chPAUSING || ch.msg.isSome || ch.runs.any (fun r => r.ended) then d
    else
      let d := setChan d c chPAUSED
      if rflag d Fld.STRIDE_CH_STATUS_STOP_PENDING c then strideStop d c else d

/-- A write of STRIDE_CH_CTRL by function `f`: by the owner, or by PF0 in the set-up block (R400, R405). -/
def chanCtrlAllowed (d : Ix9) (c f : Nat) (setup : Bool) : Bool :=
  c < 128 && (if setup then f = 0 else rget d Fld.STRIDE_CH_CFG_OWNER c = f)

end Sys2Proof.Machine
end

