-- ==== Sys2Proof/Machine/Errors.lean ====
section
/-!
DEFINITION. Error records, the error log and what an error asks for (R473 to R478).
-/

namespace Sys2Proof.Machine

/-- An error to record (R473). -/
structure ErrRec where
  unit : Nat
  code : Nat
  level : Nat := 0
  esc : Bool := false
  engine : Nat := 7
  func : Nat := noFunc
  sq : Option Nat := none
  island : Nat := 0
  detail : Nat := 0
  deriving DecidableEq, Repr

/-- The 32 bytes of a record as a number (R473). -/
def ErrRec.word (e : ErrRec) (t : Nat) : Nat :=
  e.code % 256 + e.level % 8 * 2 ^ 8 + b2n e.esc * 2 ^ 11 + e.engine % 8 * 2 ^ 12 + e.func % 2 ^ 10 * 2 ^ 16
  + ((e.sq.getD 0) % 2 ^ 16 + e.island % 256 * 2 ^ 16 + b2n e.sq.isSome * 2 ^ 24) * 2 ^ 32
  + e.detail % 2 ^ 64 * 2 ^ 64 + t / 10 ^ 9 % 2 ^ 32 * 2 ^ 192 + t % 10 ^ 9 * 2 ^ 224

/-- Writes a record of a unit: FIRST, else NEXT, the count, the log (R475, R476). -/
def putRecord (d : Ix9) (unit word : Nat) : Ix9 :=
  let d := count d Fld.ERR_COUNT unit
  let d := if rflag d Fld.ERR_STATUS_FIRST_V unit then rset (rset d Fld.ERR_NEXT unit word) Fld.ERR_STATUS_NEXT_V unit 1
    else rset (rset d Fld.ERR_FIRST unit word) Fld.ERR_STATUS_FIRST_V unit 1
  let d := count d Fld.LOG_COUNT
  { d with rcv := { d.rcv with log := ((word, unit, d.rcv.logSeq) :: d.rcv.log).take 1024, logSeq := d.rcv.logSeq + 1 } }

/-- Records an error, raises its event and asks for the reset of its level (R474 to R477). -/
def errorAt (d : Ix9) (e : ErrRec) (due : Option Due) : Ix9 :=
  let d := putRecord d e.unit (e.word d.now)
  let d := pf0Event d EV_DEVICE e.unit (e.code + e.level * 2 ^ 8 + b2n e.esc * 2 ^ 11)
  match due with
  | some x => let x := { x with code := e.code }; { d with rcv := { d.rcv with due := d.rcv.due ++ [x] } }
  | none => d

/-- The island of an engine of a tile (R483). -/
def engineIsland (tile engine : Nat) : Nat :=
  if engine = 3 then iCOLL tile else if engine = 4 then iMARA tile else if engine = 5 then iCIPH tile
  else if engine = 6 then iSVC tile else iXPORT tile

/-- The next wider level (R478): what a reset of `x` escalates to. Units outside the tiles skip E and T. -/
def widerThan (d : Ix9) (x : Due) : Due :=
  match x.level with
  | 1 => { x with level := 2, target := ((sqAt d x.target).map (·.func)).getD x.target, last := 4 }
  | 2 => if x.engine = 7 then { x with level := 5, last := 4 } else { x with level := 3, last := 4 }
  | 3 => { x with level := 4, engine := 7, last := 4 }
  | 4 => { x with level := 5, last := 4 }
  | _ => { x with level := 6, last := 4 }

/-- The unit in whose block errors of a reset's domain are recorded (R473). -/
def dueUnit (x : Due) : Nat := if x.level = 3 || x.level = 4 || x.level = 1 then uTILE x.tile else uMGMT

/-- Escalates (R478): `code` 0x03 when the reporting of an error failed, 0x06 when a reset ran past its bound. -/
def escalate (d : Ix9) (code oldCode : Nat) (x : Due) : Ix9 :=
  let w := widerThan d x
  errorAt d { unit := dueUnit x, code := code, level := w.level, esc := true, engine := x.engine,
              func := if x.level = 2 then x.target else noFunc, sq := if x.level = 1 then some (sqIdOf x.target) else none,
              island := if x.level = 3 then engineIsland x.tile x.engine else 0, detail := oldCode + x.level * 2 ^ 8 } (some w)

/-- The unit of an island outside the tiles (R15, R16). -/
def islandUnit (d : Ix9) (i : Nat) : Nat :=
  if 12 ≤ i && i < 32 then uTILE ((i - 12) / 5)
  else ((List.range 25).find? (fun u => !(u = uMARATHON || u = uANCHORED || u = uCIPHER || u < 4) && (unitIslands d.code u).contains i)).getD uTRACK

/-- The engine of an island of a tile. -/
def islandEngine (i : Nat) : Nat := match (i - 12) % 5 with | 1 => 3 | 2 => 4 | 3 => 5 | 4 => 6 | _ => 7

/-- UNCORRECTABLE_RAM_ERROR (CODE 0x01): `engine` is the RAM's engine, 7 for a RAM outside the engines. -/
def ramError (d : Ix9) (island engine ram : Nat) : Ix9 :=
  if !(fittedIslands d.code).contains island then d
  else if 12 ≤ island && island < 32 then
    let tile := (island - 12) / 5
    let lvl := if engine < 7 then 3 else 4
    errorAt d { unit := uTILE tile, code := 0x01, level := lvl, engine := engine, island := island, detail := ram }
      (some { level := lvl, tile := tile, engine := engine })
  else errorAt d { unit := islandUnit d island, code := 0x01, level := 5, island := island, detail := ram } (some { level := 5 })

/-- D2D_LINK_ERROR (CODE 0x05), recorded by the unit of its island (R473) (DEDUCED, log entry 44). -/
def d2dError (d : Ix9) (island : Nat) : Ix9 :=
  errorAt d { unit := islandUnit d island, code := 0x05, level := 5, island := island } (some { level := 5 })

/-! ## Hangs (R480 to R482) -/

/-- An entry of the queue waits for a page request (R126). -/
def waitsForPage (d : Ix9) (s : Sq) : Bool :=
  s.entries.any (fun e => e.wait.any (fun p => d.x.pri.contains (xisle s.tile, e.asid s, p)))

/-- The queue's head is an OP_WINDOW_SET that waits for the window table (R133). -/
def waitsForTable (d : Ix9) (s : Sq) : Bool :=
  !d.x.winReady && ((s.entries.find? (fun e => e.stage = .translating || e.stage = .ready)).any (fun e => e.op == 0x43))

/-- R480, R481: the unit has work pending that waits for nothing else. -/
def pendingWork (d : Ix9) : HangUnit → Bool
  | .queue k => match sqAt d k with
    | some s => s.err.isNone && s.paused.isNone && !waitsForPage d s && !waitsForTable d s
        && (s.consumed < s.lim || s.entries.any (fun e => e.stage = .ready))
    | none => false
  | .engine t 0 => d.q.sqs.any (fun (_, s) => s.tile == t && s.err.isNone && s.consumed < s.lim)
  | .engine t 1 => d.c.conns.any (fun (n, c) => homeTile d n == t && (!c.txMsgs.isEmpty || !c.resend.isEmpty))
      || d.c.parked.any (fun p => p.tile == t)
  | .engine t 2 => d.stride.any (fun (c, _) => chanTile d c == t && chanState d c != chPAUSED)
  | .engine t 3 => d.h.heats.any (fun (_, h) => h.tile == t && !h.finished && h.att.isNone)
  | .engine _ 4 => d.h.heats.any (fun (_, h) => h.att.isSome && !h.finished)
  | .engine t 5 => d.ciph.fetching.any (fun f => f.1 == t)
  | .engine _ _ => false
  | .island _ => true

/-- PROGRESS_WINDOW_EXPIRY: a unit with pending work has made no progress for the window: a hang (DEDUCED, log entry 44). -/
def hang (d : Ix9) (h : HangUnit) : Ix9 :=
  if !pendingWork d h then d
  else match h with
  | .queue k =>
    match sqAt d k with
    | none => d
    | some s => errorAt (count d Fld.HANG_COUNT s.tile)
        { unit := uTILE s.tile, code := 0x02, level := 1, func := s.func, sq := some (sqIdOf k), island := iXPORT s.tile }
        (some { level := 1, tile := s.tile, target := k, hang := true })
  | .engine t e =>
    if tilesOf d.code ≤ t || 6 ≤ e then d
    else errorAt (count d Fld.HANG_COUNT t) { unit := uTILE t, code := 0x02, level := 3, engine := e, island := engineIsland t e }
        (some { level := 3, tile := t, engine := e, hang := true })
  | .island i =>
    if !(fittedIslands d.code).contains i then d
    else errorAt (count d Fld.HANG_OTHER) { unit := islandUnit d i, code := 0x02, level := 5, island := i }
        (some { level := 5, hang := true })

end Sys2Proof.Machine
end

