-- ==== Sys2Proof/Machine/Landing.lean ====
section
/-!
DEFINITION. Landing memory as a unit (13_landing_memory.md): ECC outcomes, scrub, sparing, steering, retirement, zeroing.
-/

namespace Sys2Proof.Machine

/-! ## Places (R363) -/

def lmStacks (d : Ix9) : Nat := stacksOf d.code
def lmBankOf (d : Ix9) (pa : Nat) : Nat := Config.lmBank d.code pa % 32
def lmRowOf (d : Ix9) (pa : Nat) : Nat := Config.lmRow d.code pa % 2 ^ 18

/-- Keys: a bank of a stack (channel and bank), a row of a bank, a pin of a channel, a channel. -/
def bankKey (stack ch bank : Nat) : Nat := (stack * 16 + ch) * 32 + bank
def rowKey (stack ch bank row : Nat) : Nat := bankKey stack ch bank * 2 ^ 18 + row
/-- A channel: 16 a stack (R362). -/
def chanKey (stack ch : Nat) : Nat := stack * 16 + ch
def pinKey (stack ch pin : Nat) : Nat := chanKey stack ch * 256 + pin

def updLm (d : Ix9) (f : Lm → Lm) : Ix9 := { d with lm := f d.lm }

/-- Sparing or steering of a stack runs (LM_SPARE_STATUS.BUSY). -/
def spareBusy (d : Ix9) (stack : Nat) : Ix9 :=
  rset d Fld.LM_SPARE_STATUS_BUSY stack
    (b2n (d.lm.sparing.any (fun x => x.1 / (2 ^ 18 * 512) == stack) || d.lm.steering.any (fun x => x.1 / 16 == stack)))

/-! ## Records (R377) -/

/-- Function and offset behind a physical address. -/
def lmOwner (d : Ix9) (pa : Nat) : Nat × Nat :=
  match unitOwner d (pa / unitBytes) with
  | some (f, k) => (f, k * unitBytes + pa % unitBytes)
  | none => (noFunc, 0)

/-- A record of a stack. -/
def lmRecord (d : Ix9) (cls : Nat) (scrub : Bool) (symbol stack ch bank row pa : Nat) : Ix9 :=
  let (f, off) := lmOwner d pa
  putRecord d (uHBM stack)
    (cls % 8 + b2n scrub * 2 ^ 3 + symbol % 256 * 2 ^ 4 + ch % 16 * 2 ^ 12 + bank % 32 * 2 ^ 16
      + (row % 2 ^ 18 + f % 2 ^ 10 * 2 ^ 18) * 2 ^ 32 + pa % 2 ^ 40 * 2 ^ 64 + off % 2 ^ 38 * 2 ^ 128
      + d.now / 10 ^ 9 % 2 ^ 32 * 2 ^ 192 + d.now % 10 ^ 9 * 2 ^ 224)

/-- Type 0x0F event of a stack: class and channel (DEDUCED, log entry 37). -/
def lmEvent (d : Ix9) (stack cls ch : Nat) : Ix9 := pf0Event d EV_DEVICE (uHBM stack) (cls + ch * 2 ^ 8)

/-! ## Retirement (R376) -/

/-- Retires a physical unit: a free one leaves the pool, a held one when it is released. -/
def retireUnit (d : Ix9) (pa : Nat) : Ix9 :=
  let u := pa / unitBytes
  if d.lm.retired.contains u || d.lm.doomed.contains u then d
  else
    let stack := lmStack d pa
    let d := lmRecord (count d Fld.LM_UNITS_RETIRED stack) 6 true 0 stack (lmChannel d pa) (lmBankOf d pa) (lmRowOf d pa) pa
    let d := lmEvent d stack 6 (lmChannel d pa)
    if (unitOwner d u).isSome then updLm d (fun l => { l with doomed := insertNat l.doomed u })
    else capacityEvent (updLm d (fun l => { l with retired := insertNat l.retired u, zeroing := drop l.zeroing u })) rLM

/-! ## Row sparing (R374) -/

/-- Sparing of a row begins: it takes a spare row of its bank; where none is left the unit is retired (R376). -/
def spareRow (d : Ix9) (stack ch bank row : Nat) (pa : Option Nat) : Ix9 :=
  let k := rowKey stack ch bank row
  if has d.lm.sparing k || d.lm.remapped.contains k then d
  else if 8 ≤ num d.lm.rowSpares (bankKey stack ch bank) then
    match pa with
    | some a => retireUnit d a
    | none => d
  else
    spareBusy (updLm d (fun l => { l with rowSpares := bump l.rowSpares (bankKey stack ch bank) 1,
                                          sparing := put l.sparing k 2 })) stack

/-- ROW_REQ is written. -/
def rowReq (d : Ix9) (stack : Nat) : Ix9 :=
  if lmStacks d ≤ stack then d
  else spareRow d stack (rget d Fld.LM_REPAIR_CTRL_CHANNEL stack) (rget d Fld.LM_REPAIR_CTRL_BANK stack)
    (rget d Fld.LM_REPAIR_ROW stack) none

/-- The copy of a row is done and the remap has switched: steps 2 and 3. -/
def rowCopied (d : Ix9) (stack ch bank row : Nat) : Ix9 :=
  let k := rowKey stack ch bank row
  match look d.lm.sparing k with
  | some 2 => updLm d (fun l => { l with sparing := put l.sparing k 4, remapped := insertNat l.remapped k })
  | _ => d

/-! ## Pin steering (R375) -/

/-- Steering of a pin begins, unless its channel has used its spare: one a channel (R362, R375). -/
def steerPin (d : Ix9) (stack ch pin : Nat) : Ix9 :=
  let k := chanKey stack ch
  if has d.lm.steered k || has d.lm.steering k then
    (if num d.lm.steered k = pin + 1 then d
     else lmEvent (rset d Fld.LM_SPARE_STATUS_PIN_EXHAUSTED stack 1) stack 4 ch)
  else spareBusy (updLm d (fun l => { l with steering := put l.steering k (pin, 2) })) stack

/-- PIN_REQ is written. A second request on a channel that has used its spare changes nothing else. -/
def pinReq (d : Ix9) (stack : Nat) : Ix9 :=
  if lmStacks d ≤ stack then d
  else
    let ch := rget d Fld.LM_REPAIR_CTRL_CHANNEL stack
    if has d.lm.steered (chanKey stack ch) || has d.lm.steering (chanKey stack ch) then
      lmEvent (rset d Fld.LM_SPARE_STATUS_PIN_EXHAUSTED stack 1) stack 4 ch
    else steerPin d stack ch (rget d Fld.LM_REPAIR_CTRL_PIN stack)

/-- A second has passed: every pin whose corrected symbols reached PIN_THRESH is steered, and the counts begin anew. -/
def pinWindow (d : Ix9) : Ix9 :=
  let overs := d.lm.pinErr.filter (fun x => rget d Fld.LM_REPAIR_PIN_THRESH ≤ x.2)
  overs.foldl (fun d x => steerPin d (x.1 / 256 / 16) (x.1 / 256 % 16) (x.1 % 256)) (updLm d (fun l => { l with pinErr := [] }))

/-- The channel has been rewritten and reads take the symbol from the spare pin: steps 2 and 3. -/
def pinCopied (d : Ix9) (stack ch : Nat) : Ix9 :=
  match look d.lm.steering (chanKey stack ch) with
  | some (pin, 2) => updLm d (fun l => { l with steering := put l.steering (chanKey stack ch) (pin, 4),
                                                steered := put l.steered (chanKey stack ch) (pin + 1) })
  | _ => d

/-- POST_PACKAGE_REPAIR_DONE: step 4 of a row (with its bank and row) or of a channel's pin. -/
def repairDone (d : Ix9) (stack ch : Nat) (row : Option (Nat × Nat)) : Ix9 :=
  match row with
  | some (bank, r) =>
    let k := rowKey stack ch bank r
    (match look d.lm.sparing k with
     | some 4 =>
       let d := spareBusy (updLm d (fun l => { l with sparing := drop l.sparing k })) stack
       lmRecord (count d Fld.LM_ROWS_SPARED stack) 5 true 0 stack ch bank r 0
     | _ => d)
  | none =>
    match look d.lm.steering (chanKey stack ch) with
    | some (pin, 4) =>
      let d := spareBusy (updLm d (fun l => { l with steering := drop l.steering (chanKey stack ch) })) stack
      let d := rset d Fld.LM_SPARE_STATUS_PINS stack (setBits (rget d Fld.LM_SPARE_STATUS_PINS stack) ch ch 1)
      lmEvent (lmRecord d 4 true pin stack ch 0 0 0) stack 4 ch
    | _ => d

/-! ## ECC outcomes of reads (R369) -/

/-- A read of a codeword at a physical address finds `e`, unless it holds the marker. -/
def eccRead (d : Ix9) (scrub : Bool) (pa : Nat) (e : Ecc) : Ix9 :=
  let stack := lmStack d pa
  let ch := lmChannel d pa
  let (bank, row) := (lmBankOf d pa, lmRowOf d pa)
  if lmStacks d = 0 || unitCount d * unitBytes ≤ pa then d
  else if d.lm.poison.contains (pa / 64) then count d Fld.LM_POISON_READS stack
  else
    match e with
    | .clean => d
    | .corrected sym =>
      let k := rowKey stack ch bank row
      let d := count d Fld.LM_CORR stack
      let d := updLm d (fun l => { l with rowErr := bump l.rowErr k 1, pinErr := bump l.pinErr (pinKey stack ch (sym % 144)) 1 })
      if rget d Fld.LM_REPAIR_ROW_THRESH ≤ num d.lm.rowErr k then spareRow d stack ch bank row (some pa) else d
    | .uncorrectable sym =>
      let u := pa / unitBytes
      let d := updLm d (fun l => { l with poison := insertNat l.poison (pa / 64), unitErr := bump l.unitErr u 1 })
      let d := lmEvent (lmRecord (count d Fld.LM_UNCORR stack) 2 scrub sym stack ch bank row pa) stack 2 ch
      let d := spareRow d stack ch bank row (some pa)
      if rget d Fld.LM_REPAIR_UNIT_THRESH ≤ num d.lm.unitErr u then retireUnit d pa else d

/-- Reads of codewords that hold the marker, within a range of a function's landing space (R369 class 3). -/
def countPoison (d : Ix9) (p : Phys) (n : Nat) : Ix9 :=
  if p.target != .landing || d.lm.poison.isEmpty then d
  else
    let cws := (List.range ((p.addr + n + 63) / 64 - p.addr / 64)).filterMap (fun i => lmPhys d p.func ((p.addr / 64 + i) * 64))
    cws.foldl (fun d a => if d.lm.poison.contains (a / 64) then count d Fld.LM_POISON_READS (lmStack d a) else d) d

/-- PATROL_SCRUB_TICK: the scrub reads its next codeword; after the last one every stack counts a pass (R373)
(DEDUCED, log entry 37). -/
def scrubTick (d : Ix9) (e : Ecc) : Ix9 :=
  let n := unitCount d * (unitBytes / 64)
  if n = 0 then d
  else
    let at_ := d.lm.scrub
    let d := eccRead d true (at_ * 64) e
    if at_ + 1 < n then updLm d (fun l => { l with scrub := at_ + 1 })
    else
      let d := updLm d (fun l => { l with scrub := 0, rowErr := [] })
      (List.range (lmStacks d)).foldl (fun d k => count d Fld.LM_SCRUB_PASSES k) d

end Sys2Proof.Machine
end

