-- ==== Sys2Proof/Machine/Gates.lean ====
section
/-!
DEFINITION. Gates of the network ports in time (R214 to R220), the time base, and the Photo finish (R65 to R69, R491, R492).
-/

namespace Sys2Proof.Machine

/-! ## Gate lists -/

def gateOf (d : Ix9) (p : Nat) : Gate := (portOf d p).gate

def updGate (d : Ix9) (p : Nat) (f : Gate → Gate) : Ix9 := updPort d p (fun s => { s with gate := f s.gate })

/-- The gate of a lane opens: a packet at its head that is longer than every open interval begins in this opening (R216).
Where it closes, what has not begun waits for the next. -/
def gateTurns (d : Ix9) (p old new lane : Nat) : Ix9 :=
  let setAll (d : Ix9) (g : Nat → QPkt → QPkt) : Ix9 := updPort d p (fun s => { s with lanes := upd s.lanes lane (fun l => l.zipIdx.map (fun (k, i) => g i k)) })
  if flag old lane && !flag new lane then setAll d (fun _ k => { k with frag := false })
  else if !flag old lane && flag new lane then
    match lanePick (laneQueue d p lane) with
    | some (i, k) =>
      if gateLongest d p lane < txTime d p (wireOf d p k.len) then setAll d (fun j x => if j = i then { x with frag := true } else x) else d
    | none => d
  else d

/-- An entry of the active list begins at `at_` (R214, R217): the gates, hold, the request line. -/
def gateBegin (d : Ix9) (p i gates dur at_ : Nat) : Ix9 :=
  let e := gateEntry d p (gateActive d p) i
  let op := bits e 9 8
  let hold := (gateOf d p).hold
  let hold := if !preemptive d p then false else if op = 1 then true else if op = 2 then false else hold
  let d := (List.range 8).foldl (fun d l => gateTurns d p (gateOf d p).gates gates l) d
  let d := updGate d p (fun g => { g with entry := i, gates := gates, hold := hold, endAt := at_ + dur })
  let d := rset d Fld.GATE_STATUS_HOLD p (b2n hold)
  if flag e 10 then linePulse d (16 + p) else d

/-- The list begins anew at entry 0, the first entry whose INTERVAL is not 0. Where every INTERVAL is 0 no entry runs: the
gates are open (DESIGN CHOICE, log entry 66). -/
def gateFirst (d : Ix9) (p at_ : Nat) : Ix9 :=
  match gateCycle d p with
  | [] => updGate d p (fun g => { g with entry := 0, gates := 255, endAt := at_ + rget d Fld.GATE_ACT_CYCLE p })
  | (i, g, n) :: _ => gateBegin d p i g n at_

/-- GATE_ENTRY_BEGIN: the entry in progress has ended; the next begins, entry 0 at a cycle boundary (R215). -/
def gateNext (d : Ix9) (p : Nat) : Ix9 :=
  if !gated d p then d
  else
    let g := gateOf d p
    let at_ := g.endAt
    let d := updGate d p (fun g => { g with realign := false })
    if g.realign then gateFirst d p at_
    else
      match (gateCycle d p).dropWhile (fun e => e.1 != g.entry) with
      | _ :: (i, gs, n) :: _ => gateBegin d p i gs n at_
      | _ => gateFirst d p at_

/-- GATE_ENABLE: a write of EN = 1; gates stay open until a list becomes active (R215). -/
def gateEnable (d : Ix9) (p : Nat) : Ix9 := if portExists d p then rset d Fld.GATE_CTRL_EN p 1 else d

/-- GATE_DISABLE: a write of EN = 0 opens every gate, releases hold and cancels a pending swap (R218). -/
def gateDisable (d : Ix9) (p : Nat) : Ix9 :=
  if !portExists d p then d
  else
    let d := rset (rset (rset (rset d Fld.GATE_CTRL_EN p 0) Fld.GATE_STATUS_LIST_ACTIVE p 0) Fld.GATE_STATUS_HOLD p 0)
      Fld.GATE_STATUS_SWAP_PENDING p 0
    updGate d p (fun _ => {})

/-- The first boundary `base + k * cycle`, k at least 0, at or after `t`. -/
def boundaryFrom (base cycle t : Nat) : Nat := if t ≤ base then base else base + ceilDiv (t - base) (max 1 cycle) * max 1 cycle

/-- The first boundary `base + k * cycle` at or after `t`, where k may be negative (R219). -/
def boundaryAt (base cycle t : Nat) : Nat :=
  let c := max 1 cycle
  if base ≤ t then boundaryFrom base cycle t else base - (base - t) / c * c

/-- SWAP_REQ: fixes the swap time S (R218 steps 2 and 3). -/
def swapReq (d : Ix9) (p : Nat) : Ix9 :=
  if !portExists d p || rflag d Fld.GATE_STATUS_SWAP_PENDING p then d
  else
    let t := d.now + 2000
    let pb := rget d Fld.GATE_PEND_BASE p
    let s := if rflag d Fld.GATE_STATUS_LIST_ACTIVE p
      then boundaryFrom (rget d Fld.GATE_ACT_BASE p) (rget d Fld.GATE_ACT_CYCLE p) (max pb t)
      else boundaryFrom pb (rget d Fld.GATE_PEND_CYCLE p) t
    rset (rset d Fld.GATE_STATUS_SWAP_PENDING p 1) Fld.GATE_SWAP_TIME p s

/-- GATE_SWAP: S has come, and the idle list becomes active from entry 0 (R218 step 4); with EN 0 the gates stay open (R215). -/
def gateSwap (d : Ix9) (p : Nat) : Ix9 :=
  if !rflag d Fld.GATE_STATUS_SWAP_PENDING p then d
  else
    let s := rget d Fld.GATE_SWAP_TIME p
    let en := rflag d Fld.GATE_CTRL_EN p
    let d := rset (rset d Fld.GATE_STATUS_ACTIVE p (1 - gateActive d p)) Fld.GATE_STATUS_LIST_ACTIVE p (b2n en)
    let d := rset (rset (rset d Fld.GATE_ACT_BASE p s) Fld.GATE_ACT_CYCLE p (rget d Fld.GATE_PEND_CYCLE p))
      Fld.GATE_ACT_LEN p (rget d Fld.GATE_PEND_LEN p)
    let d := rset d Fld.GATE_STATUS_SWAP_PENDING p 0
    if en then gateFirst (updGate d p (fun g => { g with realign := false })) p s else d

/-- PTP_TIME_STEP: PTP time becomes `t`; each port's entry runs on to the next boundary in the new time (R219). -/
def ptpStep (d : Ix9) (t : Nat) : Ix9 :=
  let d := { d with now := t }
  (List.range 16).foldl (fun d p =>
    if portExists d p && gated d p then
      let base := rget d Fld.GATE_ACT_BASE p
      let b := boundaryAt base (rget d Fld.GATE_ACT_CYCLE p) (t + 1)
      count (updGate d p (fun g => { g with realign := true, endAt := b })) Fld.GATE_REALIGN p
    else d) d

/-- PPS_IN_EDGE: an accepted edge is timestamped and pulses line 32 (R399, R570). -/
def ppsIn (d : Ix9) : Ix9 := linePulse { d with ppsAt := some d.now } 32

/-- TIME_SECOND_BOUNDARY: PPS_OUT pulses, line 33 with it (R399). -/
def secondBoundary (d : Ix9) : Ix9 := linePulse (emit (emit d (.pin .ppsOut true)) (.pin .ppsOut false)) 33

/-! ## Photo finish -/

def bankOf (d : Ix9) (b : Nat) : Bank := if b = 0 then d.rcv.bank0 else d.rcv.bank1

def setBank (d : Ix9) (b : Nat) (k : Bank) : Ix9 :=
  if b = 0 then { d with rcv := { d.rcv with bank0 := k } } else { d with rcv := { d.rcv with bank1 := k } }

/-- Registers of bank `b`. -/
def photoFld (b : Nat) (f0 f1 : Fld) : Fld := if b = 0 then f0 else f1

/-- Address of a field's instance in PF0's set-up space, where it has one (R561). -/
def setupAddr (f : Fld) (i : Nat) : Option Nat :=
  match f.place with
  | .glob base stride n => if i < n then some (base + stride * i) else none
  | .port off => if i < 16 then some (0x2C00000 + i / 8 * 0x100000 + 0x40000 + i % 8 * 0x8000 + off) else none
  | .portArr off stride n =>
    let p := i / 4096
    let k := i % 4096
    if p < 16 && k < n then some (0x2C00000 + p / 8 * 0x100000 + 0x40000 + p % 8 * 0x8000 + off + stride * k) else none
  | .lane off => if i < 32 then some (0x2C00000 + i / 16 * 0x100000 + off + i % 16 * 8) else none
  | .chan off => if i < 128 then some (0x200F000 + 32 * i + off) else none
  | .pcie off => if i < 5 then some ((if i = 0 then 0x350A000 else 0x2E0A000 + (i - 1) * 0x100000) + off) else none
  | .pcieSub off =>
    if i < 10 then some ((if i / 2 = 0 then 0x350A000 else 0x2E0A000 + (i / 2 - 1) * 0x100000) + i % 2 * 0x80 + off) else none
  | _ => none

/-- The unit whose set-up block holds an address: blocks of 1 MiB from 0x0200_0000 in the order of UNITS_PRESENT. -/
def unitOfAddr (a : Nat) : Option Nat := if 0x2000000 ≤ a && a < 0x2000000 + 25 * 0x100000 then some ((a - 0x2000000) / 0x100000) else none

/-- The field behind a register key, with its instance. -/
def keyField (k : Nat) : Option (Fld × Nat) := (Fld.all.find? (fun f => f.id == k / 2 ^ 24)).map (fun f => (f, k % 2 ^ 24))

/-- Counters of a unit that are not 0, by key (R492): the RC fields of its set-up block. -/
def unitCounters (d : Ix9) (u : Nat) : Tbl Nat :=
  d.regs.filter (fun e => match keyField e.1 with
    | some (f, i) => f.acc = .rc && (setupAddr f i).bind unitOfAddr == some u
    | none => false)

/-- A unit copies its counters into a bank and clears them (R65, R67). -/
def photoCopy (d : Ix9) (b u : Nat) : Ix9 :=
  let l := unitCounters d u
  let k := bankOf d b
  let d := setBank d b { k with copy := l.foldl (fun t e => put t e.1 e.2) k.copy, units := k.units.filter (· != u) }
  { d with regs := d.regs.filter (fun e => !l.any (fun x => x.1 == e.1)) }

def setLate (d : Ix9) (b u : Nat) : Ix9 :=
  let f := photoFld b Fld.PHOTO_LATE0 Fld.PHOTO_LATE1
  rset d f 0 (setBits (rget d f) u u 1)

/-- Every unit of a bank has copied or is late: the bank is valid (R69, R491 step 5). -/
def photoValid (d : Ix9) (b : Nat) : Ix9 :=
  if (bankOf d b).armed && (bankOf d b).units.isEmpty then
    let d := setBank d b { bankOf d b with armed := false }
    rset (rset d (photoFld b Fld.PHOTO_STATUS_VALID0 Fld.PHOTO_STATUS_VALID1) 0 1)
      (photoFld b Fld.PHOTO_STATUS_ARMED0 Fld.PHOTO_STATUS_ARMED1) 0 0
  else d

/-- PHOTO_ARM: a write of PHOTO_CTRL.ARMb (R491 step 2). A T that has passed makes every unit late; they copy with
PHOTO_LATE_COPY. -/
def photoArm (d : Ix9) (b : Nat) : Ix9 :=
  if 2 ≤ b then d
  else
    let mask := rget d (photoFld b Fld.PHOTO_MASK0 Fld.PHOTO_MASK1)
    let us := (List.range 25).filter (fun u => flag mask u && present d u)
    let d := setBank d b { armed := true, units := us, copy := [] }
    let d := rset (rset (rset d (photoFld b Fld.PHOTO_STATUS_ARMED0 Fld.PHOTO_STATUS_ARMED1) 0 1)
      (photoFld b Fld.PHOTO_STATUS_VALID0 Fld.PHOTO_STATUS_VALID1) 0 0) (photoFld b Fld.PHOTO_LATE0 Fld.PHOTO_LATE1) 0 0
    photoValid d b

/-- PHOTO_TIME: T has come: each unit that is ready and has its arming copies; one that is not ready takes no copy and
is late (R65, R68). `late` names units whose arming has not reached them yet. -/
def photoTime (d : Ix9) (b : Nat) (late : List Nat) : Ix9 :=
  if 2 ≤ b || !(bankOf d b).armed then d
  else
    let us := (bankOf d b).units
    let d := us.foldl (fun d u =>
      if late.contains u then d
      else if unitReady d u then photoCopy d b u
      else
        let d := setLate d b u
        setBank d b { bankOf d b with units := (bankOf d b).units.filter (· != u) }) d
    photoValid d b

/-- PHOTO_LATE_COPY: a unit receives its arming after T and copies then (R68). -/
def photoLate (d : Ix9) (b u : Nat) : Ix9 :=
  if 2 ≤ b || !(bankOf d b).armed || !(bankOf d b).units.contains u then d
  else
    let d := setLate (photoCopy d b u) b u
    photoValid (rset d (photoFld b Fld.PHOTO_LATE_TIME0 Fld.PHOTO_LATE_TIME1) u (d.now % 2 ^ 64)) b

end Sys2Proof.Machine
end

