-- ==== Sys2Proof/Machine/Keys.lean ====
section
/-!
DEFINITION. The Vault: key derivation, sealing, the key operations, entropy (R406 to R426).
-/

namespace Sys2Proof.Machine

/-! ## Derivation (R408 to R410) -/

def ascii (l : List Nat) : List Byte := l.map (BitVec.ofNat 8)

/-- "IX9 SEAL" and "IX9 WKEY". -/
def labelSeal : List Byte := ascii [0x49, 0x58, 0x39, 0x20, 0x53, 0x45, 0x41, 0x4C]
def labelWkey : List Byte := ascii [0x49, 0x58, 0x39, 0x20, 0x57, 0x4B, 0x45, 0x59]

/-- The counter-mode KDF of R409: 256 bits from two PRF blocks. -/
def kdf (ki : Nat) (label context : List Byte) : Nat :=
  let block (i : Nat) : Nat := Config.aesCmac ki (beBytes 4 i ++ label ++ [0] ++ context ++ beBytes 4 256)
  block 1 % 2 ^ 128 * 2 ^ 128 + block 2 % 2 ^ 128

/-- The 32-byte context label of a working key (R410). -/
def workContext (n : Nat) (c : Conn) (k : KeyId) : List Byte :=
  let me := leBytes 3 n ++ leBytes 1 c.incarn
  let peer := leBytes 3 c.peerConn ++ leBytes 1 (c.peerIncarn.getD 0)
  (if k.send then me ++ peer else peer ++ me) ++ leBytes 1 k.dir ++ leBytes 1 k.epoch ++ leBytes 22 0

/-- The sealing key for the first 8 bytes of a blob (R408). -/
def sealKey (drk : Nat) (head : List Byte) : Nat := kdf drk labelSeal (head ++ leBytes 24 0)

/-- The 48-byte blob of a tenant root key (R408). -/
def sealBlob (drk tenant key : Nat) : List Byte :=
  let head := leBytes 4 tenant ++ [1] ++ leBytes 3 0
  head ++ Config.aesKw (sealKey drk head) key

/-- The key in a blob, where VERSION is 1 and the integrity check passes. -/
def openBlob (drk : Nat) (b : List Byte) : Option Nat :=
  if (b[4]?).getD 0 != 1 then none else Config.aesKwOpen (sealKey drk (b.take 8)) (b.drop 8)

/-! ## Vault state -/

def updCiph (d : Ix9) (f : Cipher → Cipher) : Ix9 := { d with ciph := f d.ciph }

/-- Keeps VAULT_STATUS.SLOTS and VAULT_SLOT_MAP. -/
def showSlots (d : Ix9) : Ix9 :=
  rset (rset d Fld.VAULT_STATUS_SLOTS 0 d.ciph.slots.length) Fld.VAULT_SLOT_MAP 0
    (d.ciph.slots.foldl (fun a s => a + 2 ^ s.1) 0)

/-- VAULT_KEY_FETCH_DONE: the Vault hands a slice the key it asked for (R411); the least recently used one goes. What
waited for it goes on. -/
def keyFetched (d : Ix9) (tile : Nat) (k : KeyId) : Ix9 :=
  if !d.ciph.fetching.contains (tile, k) then d
  else
    let d := updCiph d (fun s => { s with fetching := s.fetching.filter (· != (tile, k)) })
    let c := connOf d k.conn
    let d := match rootKey d c with
      | some root =>
        if !vaultReady d then d
        else
          let v := kdf root labelWkey (workContext k.conn c k)
          updCiph (count d Fld.VAULT_DERIVES) (fun s =>
            { s with keys := updD s.keys tile (fun l => ((k, v) :: l.filter (fun e => e.1 != k)).take 16384) })
      | none => d
    flushAnswers (runParked d k.conn) k.conn

/-- TAG_FAIL_COUNT_EXPIRY: 1 s has passed since the connection's last tag failure (R418). -/
def tagExpiry (d : Ix9) (n : Nat) : Ix9 := if (connOf d n).tagFails.1 = 0 then d else tagClear d n

/-- DRBG_RESEED (R425). -/
def drbgReseed (d : Ix9) : Ix9 := if rflag d Fld.VAULT_STATUS_ES_OK then count d Fld.VAULT_RESEEDS else d

/-- HEALTH_TEST_FAIL (R426 steps 1 to 4). -/
def healthFail (d : Ix9) : Ix9 :=
  let d := rset (rset d Fld.VAULT_STATUS_ES_OK 0 0) Fld.VAULT_STATUS_DRBG_OK 0 0
  errorAt (count d Fld.VAULT_ES_FAILS) { unit := uCIPHER, code := 0x09 } none

/-- VAULT_RETEST: the start-up tests run again (R426 step 5). -/
def vaultRetest (d : Ix9) (pass : Bool) : Ix9 :=
  if !pass || rflag d Fld.VAULT_STATUS_ES_OK || !islandReady d 0 then d
  else count (rset (rset d Fld.VAULT_STATUS_ES_OK 0 1) Fld.VAULT_STATUS_DRBG_OK 0 1) Fld.VAULT_RESEEDS

/-! ## Key operations (R421 to R424) -/

/-- Reads an entry's buffer whole; a failure ends the entry (R371). -/
def readBuf (m : List Host.Cell) (d : Ix9) (k slot i : Nat) (e : Entry) (r : ReadData) : Ix9 × Option (List Byte) :=
  match readSegs m d (((e.bufs[i]?).getD {}).segs) r with
  | .ok b => (d, some b)
  | .poisoned _ => (endEntry d k slot ST_DATA_POISON, none)
  | .own => (d, none)
  | _ => (endEntry d k slot ST_BUS_ERROR, none)

/-- Sets KEY_EPOCH of a connection (R158). -/
def Conn.setEpoch (c : Conn) (e : Nat) : Conn := c.set 0x24 15 8 e

def keyKind (e : Entry) : Nat := e.opflags % 4

/-- A connection that a key operation of an admin queue may name (DEDUCED, log entry 39). -/
def keyConnOk (d : Ix9) (s : Sq) (n : Nat) : Bool := blockValid d n && parentPf (connOf d n).owner == s.func

/-- The SA an entry names: port, transmit, channel, AN (R422). -/
def saOf (e : Entry) : Nat × Bool × Nat × Nat := (e.object % 16, !flag e.object 4, bits e.object 6 5, bits e.object 8 7)

def keyBind (m : List Host.Cell) (d : Ix9) (k slot : Nat) (r : ReadData) : Ix9 :=
  match startedEntry d 0x50 k slot with
  | none => d
  | some (s, e) =>
    match keyKind e with
    | 0 =>
      (match readBuf m d k slot 0 e r with
       | (d, none) => d
       | (d, some b) =>
         if has d.ciph.slots e.object then endEntry d k slot ST_BAD_ENTRY 0x93
         else
           match d.ciph.drk.bind (fun x => openBlob x b) with
           | none => endEntry d k slot ST_KEY_UNAVAILABLE 0x10
           | some key =>
             endEntry (showSlots (updCiph d (fun c => { c with slots := put c.slots e.object (key, e.oparg1 % 2 ^ 10) }))) k slot ST_OK)
    | 1 =>
      let c := connOf d e.object
      if !keyConnOk d s e.object then endEntry d k slot ST_BAD_ENTRY 0x07
      else if c.state != csINIT || !c.enc then endEntry d k slot ST_BAD_ENTRY 0x92
      else
        let d := updConn d e.object (fun c =>
          { c.setEpoch 0 with peerIncarn := some e.oparg0, txc := (0, 0), rxEpoch := (0, 0), epAcked := false })
        endEntry d k slot ST_OK
    | _ =>
      match readBuf m d k slot 0 e r with
      | (d, none) => d
      | (d, some b) =>
        let (p, tx, ch, an) := saOf e
        let f (i n : Nat) : Nat := leNat ((b.drop i).take n)
        let sa : Sa := { tx := tx, ch := ch, an := an, key := f 0 32, salt := f 0x20 12, ssci := f 0x2C 4,
                         sci := if tx then rget d Fld.ETH_MAC p * 2 ^ 16 + (p + 1) else f 0x30 8, pn := f 0x38 8, low := f 0x38 8 }
        endEntry (updPort d p (fun s =>
          { s with sas := s.sas.filter (fun o => !(o.tx == tx && o.an == an && (tx || o.ch == ch))) ++ [sa] })) k slot ST_OK
def keyRotate (d : Ix9) (k slot : Nat) : Ix9 :=
  match startedEntry d 0x51 k slot with
  | none => d
  | some (s, e) =>
    if keyKind e = 0 then
      let c := connOf d e.object
      if !keyConnOk d s e.object then endEntry d k slot ST_BAD_ENTRY 0x07
      else if !c.epAcked then endEntry d k slot ST_BAD_ENTRY 0x91
      else endEntry (updConn d e.object (fun c => { c.setEpoch ((c.keyEpoch + 1) % 256) with txc := (0, 0), epAcked := false })) k slot ST_OK
    else endEntry (updPort d (saOf e).1 (fun p => { p with txAn := (saOf e).2.2.2 })) k slot ST_OK

/-- Connections that use a tenant slot (R423). -/
def slotUsers (d : Ix9) (slot : Nat) : List Nat :=
  (d.c.conns.filter (fun x => x.2.enc && x.2.tenant == slot && x.2.state != csRESET && x.2.state != csQUARANTINE)).map (·.1)

def keyRetire (d : Ix9) (k slot : Nat) : Ix9 :=
  match startedEntry d 0x52 k slot with
  | none => d
  | some (_, e) =>
    if keyKind e = 0 then
      let users := slotUsers d e.object
      if !users.isEmpty && !flag e.opflags 2 then endEntry d k slot ST_BAD_ENTRY 0x94
      else
        let d := users.foldl (fun d n => if (connOf d n).state = csERROR then dropRx d n else enterError d n 5 none true) d
        let d := showSlots (updCiph d (fun c => { c with
          slots := drop c.slots e.object
          fetching := c.fetching.filter (fun f => (connOf d f.2.conn).tenant != e.object)
          keys := c.keys.map (fun (t, l) => (t, l.filter (fun x => (connOf d x.1.conn).tenant != e.object))) }))
        endEntry d k slot ST_OK
    else
      let (p, tx, ch, an) := saOf e
      if tx && an = (portOf d p).txAn && (txSa d p).isSome then endEntry d k slot ST_BAD_ENTRY 0x94
      else endEntry (updPort d p (fun s =>
        { s with sas := s.sas.filter (fun o => !(o.tx == tx && o.an == an && (tx || o.ch == ch))) })) k slot ST_OK

end Sys2Proof.Machine
end

