-- ==== Sys2Proof/Machine/Queues.lean ====
section
/-!
DEFINITION. Rings and doorbells (03_work_submission.md): doorbells (R82 to R85, R97, R101, R141), queue error (R91),
completion moderation (R99), admin queues (R102, R103), and the opcodes that create, destroy and modify queues (R92, R93,
R104, R105).
-/

namespace Sys2Proof.Machine

/-! ## Queue error (R91) -/

/-- Entries of a queue that were accepted and have not started end with ST_FLUSHED at their turn. -/
def flushEntries (d : Ix9) (k : Nat) : Ix9 :=
  match sqAt d k with
  | none => d
  | some s =>
    let pend := match s.paused with | some (_, _, p) => p | none => false
    let d := updSq d k (fun s => { s with paused := none })
    let d := if pend then writePending d s.func k else d
    (s.entries.filter (fun e => e.stage = .translating || e.stage = .ready)).foldl (fun d e => failEntry d k e.slot ST_FLUSHED) d

/-- A queue enters error: it stops fetching. `flush`: its entries that have not started are flushed. -/
def queueError (d : Ix9) (k status cause : Nat) (flush : Bool) : Ix9 :=
  match sqAt d k with
  | none => d
  | some s =>
    let d := if s.err.isSome && !flush then d
      else updSq d k (fun s => { s with err := some (status, cause), errDue := true, reread := none })
    if flush then flushEntries d k else d

/-- SOURCE and DATA of the type 0x02 event of a queue (R583). -/
def errEvent (d : Ix9) (k eq data : Nat) : Ix9 := eqRaise d eq ⟨EV_QUEUE_ERROR, sqIdOf k, data⟩

/-- QUEUE_ERROR_COMPLETION: the queue-error completion is due, no accepted entry remains and a slot is free (R91, R96)
(DEDUCED, log entry 13). -/
def errCompletion (d : Ix9) (k : Nat) : Ix9 :=
  match sqAt d k with
  | none => d
  | some s =>
    match s.err, look d.q.cqs s.cq with
    | some (st, cause), some c =>
      if s.errDue && s.entries.isEmpty && s.dying.isNone && c.prod - c.cons + c.reserved < 2 ^ c.ring.log2
          && !(funcOf d s.func).resetting then
        let d := updSq d k (fun s => { s with errDue := false })
        let d := cqWrite d s.cq { status := st, sqId := sqIdOf k, cause := cause, consumed := s.consumed % 2 ^ 32 }
        let data := st + cause * 2 ^ 8
        match look d.q.eqs c.eq with
        | some e =>
          if pathOf d c.ring.base = pathOf d e.ring.base then errEvent d k c.eq data
          else needDest d (pathOf d c.ring.base) (.errEvent k c.eq data)
        | none => d
      else d
    | _, _ => d

/-! ## Doorbells -/

/-- A doorbell write that is discarded or ignored (R84, R85, R97). -/
def dbDiscard (d : Ix9) (f : Nat) : Ix9 := count d Fld.DB_DISCARDS f

def sqByDb (d : Ix9) (f i : Nat) : Option (Nat × Sq) := d.q.sqs.find? (fun (_, s) => s.func == f && s.db == i)
def cqByDb (d : Ix9) (f i : Nat) : Option (Nat × Cq) := d.q.cqs.find? (fun (_, c) => c.func == f && c.db == i)
def eqByDb (d : Ix9) (f i : Nat) : Option (Nat × Eq) := d.q.eqs.find? (fun (_, e) => e.func == f && e.db == i)

/-- A function's doorbell writes are taken at all: one aligned 8-byte write (R84), and no reset in progress (R442). -/
def dbTaken (d : Ix9) (f : Nat) (whole : Bool) : Bool := whole && !(funcOf d f).resetting

/-- SQ_DOORBELL_WRITE (R85): `v` is D (DEDUCED, log entry 14). -/
def sqDoorbell (d : Ix9) (f i : Nat) (whole : Bool) (v : Nat) : Ix9 :=
  match sqByDb d f i with
  | none => dbDiscard d f
  | some (k, s) =>
    if !dbTaken d f whole || v ≤ s.lim then dbDiscard d f
    else if s.consumed + 2 ^ s.ring.log2 < v then queueError d k ST_QUEUE_ERROR 0x01 false
    else updSq d k (fun s => { s with lim := v })

/-- CQ_DOORBELL_WRITE (R97). -/
def cqDoorbell (d : Ix9) (f i : Nat) (whole : Bool) (v : Nat) : Ix9 :=
  match cqByDb d f i with
  | none => dbDiscard d f
  | some (k, c) =>
    if !dbTaken d f whole || v < c.cons || c.prod < v then dbDiscard d f
    else { d with q := { d.q with cqs := put d.q.cqs k { c with cons := v } } }

/-- EQ_DOORBELL_WRITE (R97, R100, R101): bit 63 of `v` is ARM (DEDUCED, log entry 14). -/
def eqDoorbell (d : Ix9) (f i : Nat) (whole : Bool) (v : Nat) : Ix9 :=
  let n := v % 2 ^ 63
  match eqByDb d f i with
  | none => dbDiscard d f
  | some (k, e) =>
    if !dbTaken d f whole || n < e.cons || e.prod < n then dbDiscard d f
    else
      let arm := flag v 63
      let now := arm && decide (n < e.prod)
      let d := { d with q := { d.q with eqs := put d.q.eqs k { e with cons := n, arm := if now then false else e.arm || arm } } }
      let d := if !now then d
        else if pathOf d e.ring.base = .host then msixSend d e.func e.vector
        else needDest d (pathOf d e.ring.base) (.msi k)
      eqDrain (e.waiting.length + 1) d k

/-- FQ_DOORBELL_WRITE (R141): handled as a completion doorbell. -/
def fqDoorbell (d : Ix9) (f i : Nat) (whole : Bool) (v : Nat) : Ix9 :=
  let c := fctxOf d f
  if !dbTaken d f whole || !c.fqV || c.fqDb != i || v < c.cons || c.prod < v then dbDiscard d f
  else { d with x := { d.x with fctx := put d.x.fctx f { c with cons := v } } }

/-- MOD_TIME_EXPIRY (R99). -/
def modTimeEnd (d : Ix9) (k : Nat) : Ix9 :=
  match look d.q.cqs k with
  | some c => if c.uncovered != 0 && c.timer != 0 && !(funcOf d c.func).resetting then cqEvent d k else d
  | none => d

/-! ## Admin queues (R102, R103) -/

/-- Functions that have an admin queue: the PFs and IF0. -/
def hasAdmin (f : Nat) : Bool := f < 5

/-- CAUSE of a rejected admin configuration; none where it stands (R102). -/
def adminCause (d : Ix9) (f : Nat) : Option Nat :=
  let sq := rget d Fld.ADMIN_CFG_SQ_LOG2 f
  let cq := rget d Fld.ADMIN_CFG_CQ_LOG2 f
  let eq := rget d Fld.ADMIN_CFG_EQ_LOG2 f
  let b0 := rget d Fld.ADMIN_SQ_BASE_ADDR f
  let b1 := rget d Fld.ADMIN_CQ_BASE_ADDR f
  let b2 := rget d Fld.ADMIN_EQ_BASE_ADDR f
  let loc := rflag d Fld.ADMIN_CFG_LOC f
  if !(8 ≤ sq && sq ≤ 12 && 6 ≤ cq && cq ≤ 12 && 6 ≤ eq && eq ≤ 12) then some 1
  else if b0 % 4096 != 0 || b1 % 4096 != 0 || b2 % 4096 != 0 then some 2
  else if loc && stacksOf d.code = 0 then some 3
  else if loc && (lmSpace d f < b0 + 16 * 2 ^ sq || lmSpace d f < b1 + 32 * 2 ^ cq || lmSpace d f < b2 + 16 * 2 ^ eq) then some 4
  else none

/-- Starts the admin rings of a function, every count at 0, or rejects the configuration. -/
def adminUp (d : Ix9) (f : Nat) : Ix9 :=
  let d := rset (rset d Fld.ADMIN_STATUS_ERR f 0) Fld.ADMIN_STATUS_CAUSE f 0
  match adminCause d f with
  | some c => rset (rset d Fld.ADMIN_STATUS_ERR f 1) Fld.ADMIN_STATUS_CAUSE f c
  | none =>
    let at_ (a : Nat) : Phys := ⟨if rflag d Fld.ADMIN_CFG_LOC f then .landing else .host, a, f, false, false⟩
    let k := adminKey f
    let sqa := rget d Fld.ADMIN_SQ_BASE_ADDR f
    let sq : Sq := { func := f, db := 0, ring := ⟨at_ sqa, rget d Fld.ADMIN_CFG_SQ_LOG2 f⟩, ringVa := sqa,
                     tile := lowestTile d, origin := lowestTile d, cq := k, admin := true }
    let cq : Cq := { func := f, db := 1, eq := k, ring := ⟨at_ (rget d Fld.ADMIN_CQ_BASE_ADDR f), rget d Fld.ADMIN_CFG_CQ_LOG2 f⟩,
                     modCount := 1, admin := true }
    let eq : Eq := { func := f, db := 2, ring := ⟨at_ (rget d Fld.ADMIN_EQ_BASE_ADDR f), rget d Fld.ADMIN_CFG_EQ_LOG2 f⟩, admin := true }
    let d := { d with q := { d.q with sqs := put d.q.sqs k sq, cqs := put d.q.cqs k cq, eqs := put d.q.eqs k eq } }
    let d := rset d Fld.ADMIN_STATUS_READY f 1
    if f = 0 then
      let w := d.q.pf0Waiting
      w.foldl (fun d e => eqRaise d k e) { d with q := { d.q with pf0Waiting := [] } }
    else d

/-- ADMIN_ENABLE: a write of 1 while the queue is up, or on its way down, starts nothing new at once. -/
def adminEnable (d : Ix9) (f : Nat) : Ix9 :=
  if !hasAdmin f || (funcOf d f).resetting then d
  else
    let d := rset d Fld.ADMIN_CTRL_ENABLE f 1
    if has d.q.sqs (adminKey f) then d else adminUp d f

/-- An admin queue that is being disabled goes once no entry is left. Events that wait at PF0's stay due (R100). -/
def adminSettle (d : Ix9) (f : Nat) : Ix9 :=
  let k := adminKey f
  match sqAt d k with
  | some s =>
    if s.err = some (ST_FLUSHED, 0) && s.entries.isEmpty then
      let left := if f = 0 then ((look d.q.eqs k).map (·.waiting)).getD [] else []
      let d := { d with q := { d.q with sqs := drop d.q.sqs k, cqs := drop d.q.cqs k, eqs := drop d.q.eqs k,
                                        pf0Waiting := left.foldl absorb d.q.pf0Waiting } }
      let d := rset d Fld.ADMIN_STATUS_READY f 0
      if rflag d Fld.ADMIN_CTRL_ENABLE f then adminUp d f else d
    else d
  | none => d

/-- ADMIN_DISABLE: the admin queue goes through R91 and writes no queue-error completion. -/
def adminDisable (d : Ix9) (f : Nat) : Ix9 :=
  if !hasAdmin f then d
  else
    let d := rset (rset (rset d Fld.ADMIN_CTRL_ENABLE f 0) Fld.ADMIN_STATUS_ERR f 0) Fld.ADMIN_STATUS_CAUSE f 0
    let d := queueError d (adminKey f) ST_FLUSHED 0 true
    adminSettle (updSq d (adminKey f) (fun s => { s with errDue := false })) f

/-! ## Creating queues (R104) -/

/-- FUNC of a create names the PF itself or one of its VFs. -/
def ownFunc (pf f : Nat) : Bool := f == pf || (isVf f && parentPf f == pf)

/-- A DB_INDEX of a function is taken: by an admin queue, another queue or the fault queue (R104, R141). -/
def dbUsed (d : Ix9) (f i : Nat) : Bool :=
  (hasAdmin f && i < 3) || (sqByDb d f i).isSome || (cqByDb d f i).isSome || (eqByDb d f i).isSome
    || ((fctxOf d f).fqV && (fctxOf d f).fqDb == i)

/-- Fields of a create entry (R104). -/
def Entry.qFunc (e : Entry) : Nat := e.fld 2 41 32
def Entry.qDb (e : Entry) : Nat := e.fld 2 79 64
def Entry.qLog2 (e : Entry) : Nat := e.fld 1 88 84
def Entry.qAsid (e : Entry) : Nat := e.fld 1 83 64
def Entry.qTile (e : Entry) : Nat := e.fld 1 90 89
def Entry.qLane (e : Entry) : Nat := e.fld 1 93 91
def Entry.qLink (e : Entry) : Nat := if e.op = 0x61 then e.fld 1 107 96 else e.fld 1 111 96
def Entry.qVector (e : Entry) : Nat := e.fld 2 26 16

/-- Check 2 of R89 on a create: its CAUSE, the lowest that applies (R104, R430, R584). -/
def createCause (d : Ix9) (pf : Nat) (e : Entry) : Option Nat :=
  let f := e.qFunc
  let lo := if e.op = 0x60 then 8 else 6
  let hi := if e.op = 0x62 then 16 else 20
  if !(lo ≤ e.qLog2 && e.qLog2 ≤ hi)
      || (e.op = 0x60 && (e.qLane = 0 || e.fld 2 7 0 = 0 || e.fld 2 14 8 = 0 || 64 < e.fld 2 14 8)) then some 0x07
  else if e.operandAt 1 % 4096 != 0 then some 0x08
  else if e.op = 0x60 && !((look d.q.cqs e.qLink).any (fun c => c.func == f)) then some 0x13
  else if e.op = 0x61 && !((look d.q.eqs e.qLink).any (fun c => c.func == f)) then some 0x13
  else if dbUsed d f e.qDb then some 0x14
  else if funcExists f && !ownFunc pf f then some 0x15
  else if !funcExists f then some 0xA2
  else none

/-- Check 5 of R89 on a create (R433). -/
def createQuota (d : Ix9) (e : Entry) : Bool :=
  if e.op = 0x60 then quotaAllows d e.qFunc rSQ 1
  else if e.op = 0x61 then quotaAllows d e.qFunc rCQ 1
  else quotaAllows d e.qFunc rEQ 1 && e.qVector < quotaLimit d e.qFunc rVECTOR

/-- Ring base of a create: the translation made with the entry. -/
def ringBase (e : Entry) : Phys := ((e.segs.head?).map (·.phys)).getD {}

/-- The queues that a create's fields describe, every count at 0 (R104). -/
def Entry.newSq (e : Entry) : Sq :=
  { func := e.qFunc, db := e.qDb, asid := e.qAsid, ring := ⟨ringBase e, e.qLog2⟩, ringVa := e.operandAt 1,
    tile := e.qTile, origin := e.qTile, lane := e.qLane, weight := e.fld 2 7 0, burst := e.fld 2 14 8,
    turn := e.fld 2 14 8, cq := e.qLink, faultWait := flag (e.slotAt 1) 94 }
def Entry.newCq (e : Entry) : Cq :=
  { func := e.qFunc, db := e.qDb, eq := e.qLink, ring := ⟨ringBase e, e.qLog2⟩, modCount := e.fld 2 7 0, modTime := e.fld 2 31 16 }
def Entry.newEq (e : Entry) : Eq :=
  { func := e.qFunc, db := e.qDb, vector := e.qVector, ring := ⟨ringBase e, e.qLog2⟩ }

/-- OP_SQ_CREATE, OP_CQ_CREATE and OP_EQ_CREATE: a started create. The number is a free one (DESIGN CHOICE, log entry 3). -/
def opCreate (d : Ix9) (op k slot : Nat) : Ix9 :=
  match startedEntry d op k slot with
  | some (s, e) =>
    match createCause d s.func e with
    | some c => endEntry d k slot ST_BAD_ENTRY c
    | none =>
      if !createQuota d e then endEntry d k slot ST_QUOTA 0x01
      else
        let (v, d) := draw d
        let used (n : Nat) : Bool :=
          if op = 0x60 then has d.q.sqs n else if op = 0x61 then has d.q.cqs n else has d.q.eqs n
        let total := if op = 0x62 then 4096 else 65536
        match pickFree v total used total with
        | none => endEntry d k slot ST_QUOTA 0x02
        | some n =>
          let d := { d with q := (if op = 0x60 then { d.q with sqs := put d.q.sqs n e.newSq }
                                  else if op = 0x61 then { d.q with cqs := put d.q.cqs n e.newCq }
                                  else { d.q with eqs := put d.q.eqs n e.newEq }) }
          endEntry d k slot ST_OK 0 0 n
  | none => d

/-! ## Destroying and modifying queues (R92, R93, R105) -/

/-- Check 1 of R93: a queue of the kind exists, is not an admin queue and belongs to the PF or one of its VFs. A queue
that is being destroyed does not exist for it. -/
def queueNamed (d : Ix9) (pf kind n : Nat) : Bool :=
  if kind = 0 then (look d.q.sqs n).any (fun s => !s.admin && ownFunc pf s.func && s.dying.isNone)
  else if kind = 1 then (look d.q.cqs n).any (fun s => !s.admin && ownFunc pf s.func)
  else if kind = 2 then (look d.q.eqs n).any (fun s => !s.admin && ownFunc pf s.func)
  else true

/-- Checks of OP_QUEUE_DESTROY (R105). -/
def destroyCause (d : Ix9) (pf : Nat) (e : Entry) : Option Nat :=
  let kind := e.oparg0 % 4
  let n := e.object % 65536
  if !queueNamed d pf kind n then some 0x13
  else if kind = 3 then some 0x11
  else if kind = 1 && d.q.sqs.any (fun (_, s) => s.cq == n) then some 0x10
  else if kind = 2 && d.q.cqs.any (fun (_, c) => c.eq == n) then some 0x10
  else none

/-- OP_QUEUE_DESTROY. -/
def opDestroy (d : Ix9) (k slot : Nat) : Ix9 :=
  match startedEntry d 0x63 k slot with
  | some (s, e) =>
    match destroyCause d s.func e with
    | some c => endEntry d k slot ST_BAD_ENTRY c
    | none =>
      let n := e.object % 65536
      if e.oparg0 % 4 = 0 then
        let d := queueError d n ST_FLUSHED 0 true
        let d := updSq (updEntry d k slot (fun e => { e with phase := 1 })) n (fun s => { s with errDue := false, dying := some (k, slot) })
        destroyIfEmpty d n
      else if e.oparg0 % 4 = 1 then endEntry { d with q := { d.q with cqs := drop d.q.cqs n } } k slot ST_OK
      else endEntry { d with q := { d.q with eqs := drop d.q.eqs n } } k slot ST_OK
  | none => d

/-- Check 3 of R93 for RESTART: V of R92 for a queue in error. -/
def restartOk (s : Sq) (v : Nat) : Bool :=
  s.err.isSome && s.lim ≤ v + 2 ^ s.ring.log2 && v ≤ s.lim + 2 ^ s.ring.log2

/-- Checks of OP_QUEUE_MODIFY (R93). -/
def modifyCause (d : Ix9) (pf : Nat) (e : Entry) : Option Nat :=
  let kind := e.oparg0 % 4
  let n := e.object % 65536
  let sel := e.opflags % 32
  let weight := e.fld 1 71 64
  let burst := e.fld 1 78 72
  if !queueNamed d pf kind n then some 0x13
  else if kind = 3 || sel = 0 || (kind = 0 && 8 ≤ sel) || (kind = 1 && sel % 8 != 0) || kind = 2 then some 0x11
  else if (flag sel 1 && weight = 0) || (flag sel 2 && (burst = 0 || 64 < burst))
      || (flag sel 0 && !((sqAt d n).any (fun s => restartOk s (e.operandAt 1)))) then some 0x12
  else none

/-- The modify selects RESTART and names a queue that still has an entry in flight: it waits unstarted (R92). -/
def waitsRestart (d : Ix9) (pf : Nat) (e : Entry) : Bool :=
  e.op == 0x64 && flag e.opflags 0 && (modifyCause d pf e).isNone
    && (sqAt d (e.object % 65536)).any (fun s => !s.entries.isEmpty || s.errDue)

/-- The selected fields change as a whole, and the entry ends. -/
def modifyQueue (d : Ix9) (k slot : Nat) (e : Entry) : Ix9 :=
  let n := e.object % 65536
  let sel := e.opflags % 32
  if e.oparg0 % 4 = 0 then
    let d := updSq d n (fun s =>
      let s := if flag sel 1 then { s with weight := e.fld 1 71 64 } else s
      let s := if flag sel 2 then { s with burst := e.fld 1 78 72 } else s
      if flag sel 0 then { s with consumed := e.operandAt 1, lim := e.operandAt 1, err := none, failed := false, reread := none } else s)
    endEntry d k slot ST_OK 0 0 (((sqAt d n).map (·.consumed)).getD 0)
  else
    let d := { d with q := { d.q with cqs := upd d.q.cqs n (fun c =>
      let c := if flag sel 3 then { c with modCount := e.fld 1 103 96 } else c
      if flag sel 4 then { c with modTime := e.fld 1 95 80 } else c) } }
    endEntry d k slot ST_OK

/-- OP_QUEUE_MODIFY, and QUEUE_RESTART for one that selects RESTART and has waited: a started modify. -/
def opModify (d : Ix9) (restart : Bool) (k slot : Nat) : Ix9 :=
  match startedEntry d 0x64 k slot with
  | some (s, e) =>
    if (restart && !flag e.opflags 0) || waitsRestart d s.func e then d
    else
      match modifyCause d s.func e with
      | some c => endEntry d k slot ST_BAD_ENTRY c
      | none => modifyQueue d k slot e
  | none => d

end Sys2Proof.Machine
end

