-- ==== Sys2Proof/Machine/Accept.lean ====
section
/-!
DEFINITION. Entries as the fetcher accepts them: the fetch and its phase defence (R86, R87), the checks of R89 with the
causes of R584 and of each opcode's chapter, and the translation of an entry's buffers (R77, R118).
-/

namespace Sys2Proof.Machine

/-! ## Check 1: opcodes (R106) -/

def opAssigned (op : Nat) : Bool :=
  (1 ≤ op && op ≤ 3) || (0x10 ≤ op && op ≤ 0x18) || (0x20 ≤ op && op ≤ 0x28) || (0x30 ≤ op && op ≤ 0x32)
    || (0x40 ≤ op && op ≤ 0x43) || (0x50 ≤ op && op ≤ 0x52) || (0x60 ≤ op && op ≤ 0x67) || op == 0x70

/-- Admin and key opcodes run only on an admin queue. -/
def adminOp (op : Nat) : Bool := (0x50 ≤ op && op ≤ 0x52) || (0x60 ≤ op && op ≤ 0x67)

/-! ## Check 2: what the entry itself holds -/

/-- KIND of OP_INVALIDATE, ACTION of OP_WINDOW_SET, HINT of OP_ADVISE (R121, R131, R139). -/
def Entry.invKind (e : Entry) : Nat := e.fld 0 26 24
def Entry.action2 (e : Entry) : Nat := e.fld 0 25 24

/-- VA and PAGES (R121). -/
def Entry.rangeVa (e : Entry) : Nat := e.operandAt 1
def Entry.rangePages (e : Entry) : Nat := e.fld 1 95 64

/-- The LENs an opcode's layout allows. -/
def lenAllowed (e : Entry) : List Nat :=
  let op := e.op
  let n := e.oparg0
  if op = 0x10 && flag e.opflags 0 then
    (if n = 0 || 225 < n then (List.range 15).map (· + 2) else [1 + ceilDiv n 15])
  else if op = 0x28 then (if e.opflags % 4 < 2 then [4] else if e.opflags % 4 = 2 then [1] else [1, 4])
  else if op = 0x42 then (if e.invKind = 0 then [2] else if e.invKind < 4 then [1] else [1, 2])
  else if op = 0x50 then (if keyKind e = 1 then [1] else if keyKind e = 3 then [1, 2] else [2])
  else if op = 0x70 then (List.range 16).map (· + 1)
  else if op = 0x03 || op = 0x10 || op = 0x16 || op = 0x17 || op = 0x32 || op = 0x41 || (0x64 ≤ op && op ≤ 0x66) then [2]
  else if op = 0x12 || op = 0x14 then [4]
  else if op = 0x15 || (0x20 ≤ op && op ≤ 0x26) || op = 0x30 || op = 0x31 then [5]
  else if op = 0x18 || op = 0x27 || op = 0x51 || op = 0x52 || op = 0x63 || op = 0x67 then [1]
  else [3]

/-- A buffer of an entry: slot of its descriptor, access. -/
structure BufUse where
  at_ : Nat
  write : Bool := false
  deriving DecidableEq, Repr

/-- The local buffer descriptors of an entry, in order. The counts table of R289 is apart. -/
def bufUses (rq : Bool) (e : Entry) : List BufUse :=
  let op := e.op
  if rq then [⟨1, true⟩]
  else if op = 0x01 then [⟨1, false⟩, ⟨2, true⟩]
  else if op = 0x02 then [⟨2, true⟩]
  else if op = 0x10 then (if flag e.opflags 0 then [] else [⟨1, false⟩])
  else if op = 0x11 || op = 0x12 then [⟨1, false⟩]
  else if op = 0x13 || op = 0x14 || op = 0x15 then [⟨1, true⟩]
  else if op = 0x16 then [⟨1, false⟩]
  else if op = 0x17 then (if flag e.opflags 0 then [⟨1, false⟩, ⟨1, true⟩] else [⟨1, false⟩])
  else if (0x20 ≤ op && op ≤ 0x26) || op = 0x30 || op = 0x31 then [⟨1, false⟩, ⟨2, true⟩]
  else if op = 0x28 then (if e.opflags % 4 < 2 then [⟨1, false⟩] else [])
  else if op = 0x32 then (if e.opflags % 4 < 2 then [⟨1, false⟩] else [])
  else if op = 0x50 then (if keyKind e = 1 then [] else [⟨1, false⟩])
  else if op = 0x66 then [⟨1, true⟩]
  else []

/-- CAUSEs of a buffer descriptor: SGL_COUNT, alignment of a list (R75, R76, R584). -/
def bufCauses (l : Local) : List Nat :=
  (if 1024 < l.count then [0x09] else []) ++ (if l.count != 0 && l.addr % 16 != 0 then [0x08] else [])

/-- The fixed LENGTH an opcode asks of the descriptor in slot 1, and whether a list is refused. -/
def fixedLength (e : Entry) : Option (Nat × Bool) :=
  let op := e.op
  if op = 0x16 || op = 0x17 then some (96, true)
  else if op = 0x28 && e.opflags % 4 < 2 then some (16 * (e.fld 2 31 16 + 1), true)
  else if op = 0x32 && e.opflags % 4 < 2 then some (64, false)
  else if op = 0x50 && keyKind e = 0 then some (48, false)
  else if op = 0x50 && keyKind e = 2 then some (64, false)
  else if op = 0x66 then some (256, false)
  else none

/-- OFFSET plus LENGTH of a remote access exceeds what a VA of MODE 1 holds (R261). -/
def vaOver (e : Entry) : Bool :=
  0x11 ≤ e.op && e.op ≤ 0x15
    && 2 ^ 40 < (e.remoteAt 2).offset + (if e.op = 0x14 || e.op = 0x15 then 8 else (e.localAt 1).length)

/-- R161 and R261 on an entry that names a connection, or R154 orders 2 and 3. -/
def connCauses (d : Ix9) (s : Sq) (e : Entry) : List Nat :=
  let n := e.object
  let c := connOf d n
  if e.op = 0x16 then
    (if n = 0xFFFFFF then [] else
      (if !blockValid d n || homeTile d n != s.tile || !sameOrigin d s (n / 65536) then [0x50] else if c.state != csRESET then [0x55] else []))
  else if !blockValid d n || homeTile d n != s.tile then [0x50]
  else if c.owner != s.func || c.state = csRESET || c.state = csQUARANTINE then [0x51]
  else (if s.asid != (look d.c.pds c.pd).elim (2 ^ 20) (·.2) then [0x52] else [])
    ++ (if c.roce && vaOver e then [0x61] else [])

/-- Two address ranges overlap; an empty one meets nothing. -/
def rangesMeet (a b : Nat × Nat) : Bool := a.2 != 0 && b.2 != 0 && a.1 < b.1 + b.2 && b.1 < a.1 + a.2

/-- The reduction a Heat entry asks for (R287). -/
def Entry.red (e : Entry) : Red :=
  { oper := e.hOper, mode := e.hMode, rnd := e.hRnd = 1, nanFail := e.hNan, fin := e.hFin, fout := e.hFout, seed := e.operandAt 4,
    rec_ := lseD e.hLse + 2 }

/-- LENGTHs R288 asks of a Heat entry: source and destination; none for OP_ALL_TO_ALLV. -/
def heatLengths (e : Entry) (n bib : Nat) : Option (Nat × Nat) :=
  let c := sizeOf_ e.hFin e.hCount
  let c2 := sizeOf_ e.hFout e.hCount
  let me := e.hRoot = bib
  if e.op = 0x20 then some (c, c2)
  else if e.op = 0x21 then some (n * c, c2)
  else if e.op = 0x22 then some (c, n * c)
  else if e.op = 0x23 then some (c, if me then c2 else 0)
  else if e.op = 0x24 then some (if me then c else 0, c)
  else if e.op = 0x25 then some (n * c, n * c)
  else none

/-- Source and destination may coincide (R288). -/
def mayCoincide (e : Entry) (bib : Nat) : Bool := e.op = 0x20 || (e.op = 0x24 && e.hRoot = bib)

/-- R288 on the ranges of source and destination. -/
def heatOverlap (e : Entry) (bib : Nat) (src dst : List (Nat × Nat)) : Bool :=
  !(mayCoincide e bib && src == dst) && src.any (fun a => dst.any (rangesMeet a))

/-- CAUSEs of R290 on a Heat entry. -/
def heatCauses (d : Ix9) (s : Sq) (e : Entry) : List Nat :=
  match look d.h.groups (e.object % 4096) with
  | none => [0x40]
  | some g =>
    if g.owner != s.func || !tileServes d s g.tile then [0x40]
    else if e.op = 0x27 then []
    else
      let red := reducing e.op
      let n := g.ep.n
      let bib := g.ep.bib
      let okFmt := if red then e.red.allowed e.op && !(e.hOper = 7 && e.hLse = 3) else e.hFin < 10 && e.hFout = e.hFin
      let mc := g.ep.dataMc.isSome
      let alg := e.hAlg
      let okAlg := if alg = 0 then !(e.op = 0x21 && e.hMode = 3)
        else if e.op = 0x20 then alg = 2 || (!(e.hMode = 3) && (alg = 1 || mc))
        else if e.op = 0x23 then alg = 2 || (alg = 1 && !(e.hMode = 3))
        else if e.op = 0x24 then alg ≤ 2 || mc
        else if e.op = 0x21 then alg = 1 && !(e.hMode = 3)
        else if e.op = 0x22 then alg = 1
        else false
      let a := e.localAt 1
      let b := e.localAt 2
      let whole := e.op = 0x26 || (e.hCount % (if red then e.red.unit else blockElems e.hFin) = 0
                                   && e.hCount % (blockElems e.hFin) = 0)
      let lens := match heatLengths e n bib with
        | some (x, y) => a.length == x && b.length == y
        | none => (e.localAt 3).length == 16 * n
      (if okFmt then [] else [0x41]) ++ (if okAlg then [] else [0x42]) ++ (if okFmt && !(whole && lens) then [0x49] else [])
        ++ (if (e.op = 0x23 || e.op = 0x24) && n ≤ e.hRoot then [0x4A] else [])
        ++ (if a.count = 0 && b.count = 0 && heatOverlap e bib [(a.addr, a.length)] [(b.addr, b.length)] then [0x4B] else [])

/-- CAUSEs of R389. -/
def strideCauses (d : Ix9) (s : Sq) (e : Entry) : List Nat :=
  let c := e.object % 128
  let named := e.op = 0x03 || e.object != 0xFFFFFF
  (if named && !chanUsable d c s then [0x80] else [])
    ++ (if e.op = 0x03 && e.operandAt 1 % 64 != 0 then [0x81] else [])
    ++ (if e.op = 0x01 && (e.localAt 1).length != (e.localAt 2).length then [0x82] else [])

/-- CAUSEs of the other fields of an entry (R584). -/
def fieldCauses (e : Entry) : List Nat :=
  let op := e.op
  let range := (if e.rangeVa % 4096 != 0 then [0x08] else []) ++ (if e.rangePages = 0 then [0x09] else [])
  if op = 0x10 && flag e.opflags 0 then (if e.oparg0 = 0 || 225 < e.oparg0 then [0x09] else [])
  else if op = 0x14 || op = 0x15 then
    (if (e.remoteAt 2).offset % 8 != 0 then [0x08] else [])
      ++ (if (e.localAt 1).length != 0 && (e.localAt 1).length != 8 then [0x09] else [])
  else if op = 0x27 then (if e.oparg0 != 0 || e.oparg1 != 0 then [0x07] else [])
  else if op = 0x28 || op = 0x32 then (if e.opflags % 4 = 3 then [0x07] else [])
  else if op = 0x40 then
    range ++ (if 5 < e.fld 2 66 64 then [0x07] else []) ++ (if e.operandAt 2 % 4096 != 0 then [0x08] else [])
  else if op = 0x41 then
    range ++ (if (e.action2 = 0 && 5 < e.oparg0) || (e.action2 % 2 = 1 && e.oparg0 != 0) then [0x07] else [])
  else if op = 0x42 then (if e.invKind = 0 then range else if 3 < e.invKind then [0x07] else [])
  else if op = 0x43 then
    (if e.action2 = 3 then [0x07] else if e.action2 = 2 then [] else
      (if e.operandAt 1 % 4096 != 0 then [0x08] else []) ++ (if e.rangePages = 0 then [0x09] else []))
  else []

/-- CAUSEs of a key operation that its fields give (R422, R430). -/
def keyCauses (s : Sq) (e : Entry) : List Nat :=
  let kind := keyKind e
  if e.op = 0x50 then
    (if kind = 3 || (kind != 1 && s.func != 0) || (kind = 0 && 255 < e.object) then [0x07] else [])
      ++ (if kind = 0 && !funcExists (e.oparg1 % 2 ^ 10) then [0xA2] else [])
  else if 2 ≤ kind then [0x07]
  else if e.op = 0x51 then (if kind = 1 && s.func != 0 then [0x07] else [])
  else (if s.func != 0 || (kind = 0 && 255 < e.object) then [0x07] else [])

/-- CAUSEs of OP_PD_CREATE: the function it names (R160, R430). -/
def pdCauses (s : Sq) (e : Entry) : List Nat :=
  let f := e.oparg1 % 2 ^ 10
  if flag e.opflags 0 || ownFunc s.func f then [] else if funcExists f then [0x15] else [0xA2]

/-- Check 2 of R89: the CAUSE that decides, LEN first, then the lowest (R584) (DEDUCED, log entry 12). -/
def check2 (d : Ix9) (s : Sq) (e : Entry) : Option Nat :=
  let op := e.op
  if !(lenAllowed e).contains e.len then some 0x06
  else
    let bufs := (bufUses false e).flatMap (fun b => bufCauses (e.localAt b.at_))
    let table := if op = 0x26 then bufCauses (e.localAt 3) else []
    let fixed := match fixedLength e with
      | some (n, noList) => if (e.localAt 1).length != n || (noList && (e.localAt 1).count != 0) then [0x09] else []
      | none => []
    let own := if op = 0x01 || op = 0x02 || op = 0x03 then strideCauses d s e
      else if isConnOp op then connCauses d s e
      else if 0x20 ≤ op && op ≤ 0x27 then heatCauses d s e
      else if op = 0x67 then pdCauses s e
      else if op = 0x50 || op = 0x51 || op = 0x52 then keyCauses s e
      else if op = 0x60 || op = 0x61 || op = 0x62 then (createCause d s.func e).toList
      else []
    ((if e.scope = 3 then [0x07] else []) ++ bufs ++ table ++ fixed ++ fieldCauses e ++ own).min?

/-! ## Checks 3 to 5 -/

/-- The tile of the group, sequence object or Stride channel that an entry names (R440, R499). -/
def namedTile (d : Ix9) (e : Entry) : List Nat :=
  let op := e.op
  if 0x20 ≤ op && op ≤ 0x28 then ((look d.h.groups (e.object % 4096)).map (·.tile)).toList
  else if 0x30 ≤ op && op ≤ 0x32 then ((look d.h.seqs (e.object % 65536)).map (·.tile)).toList
  else if op = 0x03 || ((op = 0x01 || op = 0x02) && e.object != 0xFFFFFF) then [chanTile d (e.object % 128)]
  else []

/-- Units an entry needs (check 3 of R89) (DEDUCED, log entry 39). -/
def opUnits (d : Ix9) (s : Sq) (e : Entry) : List Nat :=
  let op := e.op
  [uTILE s.tile]
    ++ (if 0x10 ≤ op && op ≤ 0x15 then [uTRACK] else [])
    ++ (namedTile d e).map uTILE
    ++ (if op = 0x60 then [uTILE e.qTile] else [])
    ++ (if (op = 0x20 || op = 0x21 || op = 0x23) && e.hMode = 2 then [uANCHORED] else [])
    ++ (if op = 0x30 || op = 0x31 || op = 0x32 then [uMARATHON] else [])
    ++ (if (op = 0x50 && keyKind e = 2) || ((op = 0x51 || op = 0x52) && keyKind e = 1)
        then [uMACSEC, uNETGRP (e.object % 16 / 8)] else if op = 0x50 || op = 0x51 || op = 0x52 then [uCIPHER, uMGMT] else [])
    ++ (if op = 0x03 || ((op = 0x01 || op = 0x02) && e.object != 0xFFFFFF) then
          (match chanTarget d (e.object % 128) with
           | some (.accel n) => [uACCEL n]
           | some .host => [uHOST]
           | _ => [])
        else [])

/-- Checks 3 and 4 of R89, in order: none where they pass. -/
def unitStatus (d : Ix9) (s : Sq) (e : Entry) : Option Nat :=
  let us := opUnits d s e
  if us.any (fun u => !present d u) then some ST_UNIT_ABSENT
  else if us.any (fun u => !unitReady d u) then some ST_NOT_READY
  else none

/-- Check 5 of R89: CAUSE of ST_QUOTA (R154, R433) (DEDUCED, log entry 12). -/
def check5 (d : Ix9) (s : Sq) (e : Entry) : Option Nat :=
  let op := e.op
  let need (r : Nat) : Option Nat := if quotaAllows d s.func r 1 then none else some 0x01
  if op = 0x16 then (if rflag d Fld.FAB_CTRL_DRAIN then some 0x30 else need rCONN)
  else if op = 0x28 && e.opflags % 4 = 0 then need rHEAT
  else if op = 0x32 && e.opflags % 4 = 0 then need rSEQ
  else if op = 0x43 && e.action2 = 0 then need rWIN
  else if op = 0x67 && !flag e.opflags 0 then
    (if quotaAllows d (e.oparg1 % 2 ^ 10) rPD 1 then none else some 0x01)
  else if op = 0x60 || op = 0x61 || op = 0x62 then (if createQuota d e then none else some 0x01)
  else none

/-- R346: checks of an attention entry after check 5; the object must be in use by the function on the tile (R338, DESIGN CHOICE,
log entry 23). -/
def attCheck (d : Ix9) (sq : Sq) (e : Entry) : Option (Nat × Nat) :=
  match look d.h.seqs (e.object % 65536) with
  | none => some (ST_BAD_ENTRY, 0x73)
  | some s =>
    if s.owner != sq.func || s.tile != sq.tile then some (ST_BAD_ENTRY, 0x73)
    else
    let a := attOf e s.tokens
    let rows := attRows s a
    let dim := lseD s.dim
    let outLen := if a.part then rows * (dim + 2) * 4 else rows * dim * blockSize a.outFmt
    let grouped := attGrouped e s
    let n := match s.group.bind (look d.h.groups ·) with | some g => g.ep.n | none => 0
    if s.dim = 3 || ! [2, 3, 4, 5, 7].contains s.fmt || ! [2, 3, 4, 5].contains a.qFmt || ! [1, 2, 3].contains a.outFmt
        || (a.part && a.outFmt != 1) then some (ST_ATT_SHAPE, 0x03)
    else if s.layers ≤ a.layer then some (ST_ATT_SHAPE, 0x06)
    else if (e.localAt 1).length != rows * dim * blockSize a.qFmt || (e.localAt 2).length != outLen then some (ST_ATT_SHAPE, 0x07)
    else if a.mask = 3 || (a.mask = 2 && a.window = 0) then some (ST_ATT_SHAPE, 0x08)
    else if a.p4 && !(s.fmt = 7 && (a.qFmt = 4 || a.qFmt = 5)) then some (ST_ATT_SHAPE, 0x09)
    else if 16777216 < a.qPos + a.q then some (ST_ATT_CONTEXT_LIMIT, 0x03)
    else if grouped && 256 < n then some (ST_ATT_CONTEXT_LIMIT, 0x04)
    else if attScatter e && s.group.isNone then some (ST_BAD_ENTRY, 0x74)
    else if e.op = 0x31 && s.group.isSome then
      let c := connOf d s.batonConn
      let w := winOf d s.batonWin
      if c.owner != sq.func || c.state = csRESET || c.state = csQUARANTINE || !w.v || w.owner != sq.func then some (ST_BAD_ENTRY, 0x74)
      else none
    else none

/-- Checks 1 to 5 of R89, and R346: the first failure (DESIGN CHOICE, log entry 23). -/
def checkEntry (d : Ix9) (s : Sq) (e : Entry) : Option (Nat × Nat) :=
  if s.isRq then
    -- R165: a receive entry; one that does not fit is skipped at the head with cause 0x59 (R166)
    (if e.op != 0x10 || e.len != 2 || flag e.opflags 0 then some (ST_BAD_ENTRY, 0x06)
     else match (bufCauses (e.localAt 1)).min? with
       | some c => some (ST_BAD_ENTRY, c)
       | none => none)
  else if !opAssigned e.op || (adminOp e.op && !s.admin) then some (ST_BAD_OPCODE, 0)
  else
    match check2 d s e with
    | some c => some (ST_BAD_ENTRY, c)
    | none =>
      match unitStatus d s e with
      | some st => some (st, 0)
      | none =>
        match check5 d s e with
        | some c => some (ST_QUOTA, c)
        | none => if e.op = 0x30 || e.op = 0x31 then attCheck d s e else none

/-! ## Check 6: translation (R77, R118) -/

/-- A piece of memory that an admin queue's entry names: admin buffers are never translated (DEDUCED, log entry 24). -/
def adminSeg (d : Ix9) (f va len : Nat) : Seg :=
  { va := va, len := len, phys := ⟨if rflag d Fld.ADMIN_CFG_LOC f then .landing else .host, va, f, false, false⟩,
    asid := 2 ^ 20, xgen := 0, gen := 0 }

/-- Translates one range for an entry of a queue. -/
def entryXlate (d : Ix9) (s : Sq) (e : Entry) (a : Access) : XRes :=
  if a.len = 0 then .ok []
  else if s.admin then
    (if rflag d Fld.ADMIN_CFG_LOC s.func && lmSpace d s.func < a.va + a.len then .fault (noWalk 0x08 a.va)
     else .ok [adminSeg d s.func a.va a.len])
  else
    match xlate d (xisle s.tile) s.asid { a with remote := e.op = 0x01 || e.op = 0x02 } with
    | .ok l =>
      (match l.find? (fun g => !remoteOwned d s.func g) with
       | some g => .fault ⟨0x09, levelOf g.page, g.gen, g.va⟩
       | none => .ok l)
    | r => r

/-- Translates ranges in order. -/
def rangesXlate (d : Ix9) (s : Sq) (e : Entry) (write : Bool) : List (Nat × Nat) → XRes
  | [] => .ok []
  | (va, n) :: r =>
    match entryXlate d s e { va := va, len := n, write := write } with
    | .ok l =>
      (match rangesXlate d s e write r with
       | .ok l2 => .ok (l ++ l2)
       | x => x)
    | x => x

/-- The elements of a scatter-gather list (R76). -/
def listOf (b : List Byte) : List (Nat × Nat) := (chunksOf 16 b).map (fun l => (fieldLE l 0 8, fieldLE l 8 4))

/-- Elements are well formed and their lengths sum to LENGTH (check 6 of R89). -/
def listOk (l : Local) (els : List (Nat × Nat)) : Bool :=
  els.all (fun x => x.2 != 0) && els.foldl (fun a x => a + x.2) 0 == l.length

/-- The address ranges of a buffer whose list, if any, has been read. -/
def bufRanges (l : Local) (b : Buf) : List (Nat × Nat) :=
  match b.list with
  | some els => els
  | none => [(l.addr, l.length)]

/-- Counts of OP_ALL_TO_ALLV agree with the LENGTHs (R289): whole format blocks, inside both buffers. -/
def countsOk (e : Entry) (b : List Byte) : Bool :=
  let n := blockElems e.hFin
  let sz (k : Nat) : Nat := sizeOf_ e.hFin k
  (countsOf b).all (fun (so, sc, ro, rc) =>
    so % n = 0 && sc % n = 0 && ro % n = 0 && rc % n = 0
      && sz (so + sc) ≤ (e.localAt 1).length && sz (ro + rc) ≤ (e.localAt 2).length)

/-- What the translation of an entry needs next, or what it found. -/
inductive EntryX where
  | ready (bufs : List Buf)
  /-- A list or the counts table must be read; the buffers hold where it lies. -/
  | read (bufs : List Buf)
  | miss (page : Nat)
  | fault (a : Access) (f : XFault)
  | fail (status cause : Nat)
  deriving DecidableEq, Repr

/-- Descriptors of an entry in the order of `Entry.bufs`; the counts table is the third buffer of OP_ALL_TO_ALLV
(DEDUCED, log entry 24). -/
def entryLocals (rq : Bool) (e : Entry) : List (Local × Bool) :=
  (bufUses rq e).map (fun u => (e.localAt u.at_, u.write)) ++ (if e.op = 0x26 && !rq then [(e.localAt 3, false)] else [])

/-- The buffers of an entry, one per descriptor. -/
def entryBufs (rq : Bool) (e : Entry) : List Buf := (List.range (entryLocals rq e).length).map (fun i => (e.bufs[i]?).getD {})

/-- First stage: the lists that are not read yet are translated. -/
def listsXlate (d : Ix9) (s : Sq) (e : Entry) : List ((Local × Bool) × Buf) → List Buf → Bool → EntryX
  | [], acc, open_ => if open_ then .read acc else .ready acc
  | ((l, _), b) :: r, acc, open_ =>
    if l.count = 0 || b.list.isSome then listsXlate d s e r (acc ++ [b]) open_
    else
      let a : Access := { va := l.addr, len := 16 * l.count }
      match entryXlate d s e a with
      | .ok segs => listsXlate d s e r (acc ++ [{ b with segs := segs }]) true
      | .miss p => .miss p
      | .fault f => .fault a f
      | .unit st => .fail st 0

/-- Second stage: list elements are checked, and every range is translated in order. -/
def bufsXlate (d : Ix9) (s : Sq) (e : Entry) : List ((Local × Bool) × Buf) → List Buf → EntryX
  | [], acc => .ready acc
  | ((l, w), b) :: r, acc =>
    if !(b.list.all (listOk l)) then .fail ST_BAD_ENTRY 0x09
    else
      match rangesXlate d s e w (bufRanges l b) with
      | .ok segs => bufsXlate d s e r (acc ++ [{ b with segs := segs }])
      | .miss p => .miss p
      | .fault f => .fault { va := f.va, len := 1, write := w } f
      | .unit st => .fail st 0

/-- Translates the buffers of an entry (check 6 of R89). -/
def entryX (d : Ix9) (s : Sq) (e : Entry) : EntryX :=
  let ls := entryLocals s.isRq e
  match listsXlate d s e (ls.zip (entryBufs s.isRq e)) [] false with
  | .ready bufs =>
    (match bufsXlate d s e (ls.zip bufs) [] with
     | .ready bufs => if e.op = 0x26 && e.src.isEmpty && !s.isRq then .read bufs else .ready bufs
     | r => r)
  | r => r

/-- R384 on the start addresses of an entry that names a channel (R389 cause 0x82). -/
def startForbidden (d : Ix9) (e : Entry) (bufs : List Buf) : Bool :=
  (e.op = 0x01 || e.op = 0x02) && e.object != 0xFFFFFF &&
    (let (src, dst) := strideBufs { e with bufs := bufs }
     !(chanPermitsAll d (e.object % 128) (src.take 1) (dst.take 1)))

/-- Overlap of a Heat's buffers that are lists (R288). -/
def listsOverlap (d : Ix9) (e : Entry) (bufs : List Buf) : Bool :=
  if !(0x20 ≤ e.op && e.op ≤ 0x26) then false
  else
    match look d.h.groups (e.object % 4096), bufs with
    | some g, a :: b :: _ =>
      (a.list.isSome || b.list.isSome)
        && heatOverlap e g.ep.bib (bufRanges (e.localAt 1) a) (bufRanges (e.localAt 2) b)
    | _, _ => false

/-- Checks that need the translated buffers or the lists. -/
def lateFail (d : Ix9) (e : Entry) (bufs : List Buf) : Option (Nat × Nat) :=
  if startForbidden d e bufs then some (ST_BAD_ENTRY, 0x82)
  else if e.op = 0x26 && !(e.src.head?.all (fun x => countsOk e x.2)) then some (ST_BAD_ENTRY, 0x49)
  else if listsOverlap d e bufs then some (ST_BAD_ENTRY, 0x4B)
  else none

/-- Ring base of a queue create (R104): the ASID must be usable by FUNC (R109). -/
def ringX (d : Ix9) (s : Sq) (e : Entry) : EntryX :=
  let a : Access := { va := e.operandAt 1, len := 1, write := e.op != 0x60 }
  if !mayUse d e.qFunc e.qAsid then .fail ST_XLATE_PERM 0
  else
    match xlate d (xisle s.tile) e.qAsid a with
    | .ok segs => .ready [{ segs := segs }]
    | .miss p => .miss p
    | .fault f => .fault a f
    | .unit st => .fail st 0

/-- The page of a create's ring, and those of an entry's buffers, that must be walked (R104, R117). -/
def entryMisses (d : Ix9) (s : Sq) (e : Entry) : List Nat :=
  if s.admin then []
  else
    ((entryLocals s.isRq e).zip (entryBufs s.isRq e)).flatMap (fun ((l, _), b) =>
      (if l.count != 0 && b.list.isNone then [(l.addr, 16 * l.count)] else bufRanges l b).flatMap (fun (va, n) =>
        missPages (n / 4096 + 2) d (xisle s.tile) s.asid va n))

/-- Asks for every walk that an entry needs at once; `page` is the first (R117). -/
def entryWalks (d : Ix9) (s : Sq) (e : Entry) (page : Nat) : Ix9 :=
  let create := e.op = 0x60 || e.op = 0x61 || e.op = 0x62
  (page :: entryMisses d s e).foldl (fun d p => startWalk d (xisle s.tile) (e.asid s) p create) d

/-- Translates an accepted entry as far as it goes: it becomes ready, waits for a walk or a read, pauses its queue, or
fails (R89, R117, R140). -/
def entryTry (d : Ix9) (k slot : Nat) : Ix9 :=
  match sqAt d k, entryAt d k slot with
  | some s, some e =>
    if e.stage != .translating then d
    else
      match (if e.op = 0x60 || e.op = 0x61 || e.op = 0x62 then ringX d s e else entryX d s e) with
      | .ready bufs =>
        (match if s.isRq then none else lateFail d e bufs with
         | some (st, c) => failEntry d k slot st c
         | none => updEntry d k slot (fun e => { e with stage := .ready, bufs := bufs, wait := none, phase := b2n s.isRq }))
      | .read bufs => updEntry d k slot (fun e => { e with bufs := bufs, wait := none })
      | .miss p => updEntry (entryWalks d s e p) k slot (fun e => { e with wait := some p })
      | .fail st c => failEntry d k slot st c
      | .fault a f => entryFault d k slot a f
  | _, _ => d

/-- The list of a buffer, or the counts table (buffer 3), that an entry waits for has been read (R77). -/
def entryListRead (m : List Host.Cell) (d : Ix9) (k slot i : Nat) (r : ReadData) : Ix9 :=
  match sqAt d k, entryAt d k slot with
  | some s, some e =>
    let l := ((entryLocals s.isRq e)[i % 3]?).map (·.1)
    let b := (e.bufs[i % 3]?).getD {}
    let table := i = 3
    if e.stage != .translating || e.wait.isSome || b.segs.isEmpty
        || (if table then e.op != 0x26 || !e.src.isEmpty else b.list.isSome || !(l.any (fun l => l.count != 0))) then d
    else
      let segs := if table then ((e.bufs[2]?).map (·.segs)).getD [] else b.segs
      match readSegs m d segs r with
      | .ok bytes =>
        entryTry (updEntry d k slot (fun e =>
          if table then { e with src := [(0, bytes)] }
          else { e with bufs := e.bufs.set i { b with list := some (listOf bytes) } })) k slot
      | .own => d
      | .poisoned _ => failEntry d k slot ST_DATA_POISON
      | _ => failEntry d k slot ST_BUS_ERROR
  | _, _ => d

/-! ## Fetch (R86, R87) -/

/-- Group whose HEAT_SEQ an entry takes at acceptance (R291): a Heat entry's, or a grouped attention entry's. -/
def heatGroup (d : Ix9) (s : Sq) (e : Entry) : Option Nat :=
  let gn := if 0x20 ≤ e.op && e.op ≤ 0x27 then some (e.object % 4096)
    else if e.op = 0x30 || e.op = 0x31 then
      (match look d.h.seqs (e.object % 65536) with | some o => if attGrouped e o then o.group else none | none => none)
    else none
  gn.filter (fun n => (look d.h.groups n).any (fun g => g.owner == s.func && g.tile == s.tile))

/-- An entry is accepted: SQ_CONSUMED moves, a Heat takes its HEAT_SEQ, and the checks run (R83, R89, R291) (DEDUCED, log entry 11). -/
def acceptEntry (d : Ix9) (k : Nat) (slots : List Nat) : Ix9 :=
  match sqAt d k with
  | none => d
  | some s =>
    let e : Entry := { slot := s.consumed, slots := slots }
    let (d, heat) := match heatGroup d s e with
      | some gn =>
        let g := lookD d.h.groups gn
        (updGroup d gn (fun g => { g with nextSeq := (g.nextSeq + 1) % 65536 }), some (g.ep.epoch, g.nextSeq))
      | none => (d, none)
    let d := updSq d k (fun s => { s with consumed := s.consumed + slots.length, reread := none,
                                          entries := s.entries ++ [{ e with heat := heat }] })
    match checkEntry d s e with
    | some (st, c) => failEntry d k e.slot st c
    | none => entryTry d k e.slot

/-- Slots the fetcher reads: from SQ_CONSUMED up to L, at most 16. -/
def fetchSlots (s : Sq) : Nat := min 16 (s.lim - s.consumed)

/-- Reads `n` ring slots from SQ_CONSUMED; the ring may wrap. -/
def ringRead (m : List Host.Cell) (d : Ix9) (s : Sq) (n : Nat) (r : ReadData) : ReadData :=
  if s.ring.base.target != .landing then memRead m d s.ring.base (16 * n) r
  else
    match r with
    | .poisoned b => .poisoned b
    | .domainDown => .domainDown
    | _ => (List.range n).foldl (fun acc i => match acc with
        | .ok l => (match memRead m d (s.ring.at_ (s.consumed + i) 16) 16 r with
            | .ok b => .ok (l ++ b)
            | x => x)
        | x => x) (.ok [])

/-- The slots match the phases R72 gives them. -/
def phasesMatch (s : Sq) (slots : List Nat) : Bool :=
  (List.range slots.length).all (fun i => slotPhase ((slots[i]?).getD 0) == phaseOf (s.consumed + i) s.ring.log2)

/-- A read has not matched: re-reads follow, or the queue enters error with ST_DOORBELL_AHEAD (R87). -/
def mismatch (d : Ix9) (k : Nat) (s : Sq) (len : Option Nat) : Ix9 :=
  match s.reread with
  | none =>
    let n := rget d Fld.FETCH_CFG_DB_RETRY s.tile
    if n = 0 then queueError d k ST_DOORBELL_AHEAD 0 false
    else updSq d k (fun s => { s with reread := some ⟨n, 0, len⟩ })
  | some q =>
    if q.left = 0 && q.out ≤ 1 then queueError d k ST_DOORBELL_AHEAD 0 false
    else updSq d k (fun s => { s with reread := some { q with out := q.out - 1, len := len } })

/-- FETCH_READ_RETURN on ring slots: a first read or a re-read has brought `r`. -/
def fetchReturn (m : List Host.Cell) (d : Ix9) (k : Nat) (r : ReadData) : Ix9 :=
  match sqAt d k with
  | none => d
  | some s =>
    let n := fetchSlots s
    if n = 0 || s.err.isSome || !xportReady d s.tile || (funcOf d s.func).resetting || s.reread.any (fun q => q.out = 0) then d
    else
      match ringRead m d s n r with
      | .own => d
      | .poisoned _ => queueError d k ST_QUEUE_ERROR 0x03 false
      | .fail _ => queueError d k ST_QUEUE_ERROR 0x02 false
      | .domainDown => queueError d k ST_QUEUE_ERROR 0x02 false
      | .ok b =>
        let slots := (chunksOf 16 b).map leNat
        let head := slots.headD 0
        if !phasesMatch s (slots.take 1) && !(s.reread.any (fun q => q.len.isSome)) then mismatch d k s none
        else
          let len := match s.reread.bind (·.len) with | some l => l | none => slotLen head
          if n < len then updSq d k (fun s => { s with reread := none })
          else if phasesMatch s (slots.take len) then acceptEntry d k (slots.take len)
          else mismatch d k s (some len)

/-- PHASE_REREAD: DB_RETRY_INTERVAL has passed, and the next re-read is issued. -/
def phaseReread (d : Ix9) (k : Nat) : Ix9 :=
  updSq d k (fun s => match s.reread with
    | some q => if q.left = 0 then s else { s with reread := some { q with left := q.left - 1, out := q.out + 1 } }
    | none => s)

end Sys2Proof.Machine
end

