-- ==== Sys2Proof/Machine/Inval.lean ====
section
/-!
DEFINITION. The commands of the DTU (04_translation.md): walks and ATS (R117, R127 to R129), invalidation and its drain
(R62 to R64, R120 to R125), remote windows (R130 to R133), prefetch and advice (R136 to R139).
-/

namespace Sys2Proof.Machine

/-! ## Stopping a started entry (R62, R485) -/

/-- The Heat or local request of an entry. -/
def heatOfEntry (d : Ix9) (k slot : Nat) : Option Nat :=
  (d.h.heats.find? (fun (_, h) => h.entry == some (k, slot) && !h.finished)).map (·.1)

/-- A started entry seeks a destination acknowledgement on every path its local writes took. -/
def seekAcks (d : Ix9) (k slot : Nat) (segs : List Seg) : Ix9 :=
  (pathsOf d segs).foldl (fun d p => needDest (updEntry d k slot (fun e => { e with acks := e.acks + 1 })) p (.entry k slot)) d

/-- What is left of a message of `org` on its connection when that ends: packets still out keep it under another name. -/
def orphan (c : Conn) (org : Origin) : Conn :=
  match c.txOut.find? (fun t => t.org == org) with
  | some t =>
    let o := Origin.left t.psn
    { c with txMsgs := c.txMsgs.map (fun m => if m.org == org then { m with org := o } else m),
             txOut := c.txOut.map (fun t => if t.org == org then { t with org := o } else t) }
  | none => { c with txMsgs := c.txMsgs.filter (fun m => m.org != org) }

/-- A message of a SEND or WRITE has been sent whole (DEDUCED, log entry 25). -/
def sentWhole (c : Conn) (org : Origin) : Bool := c.txMsgs.any (fun m => m.org == org && m.op ≤ 0x12 && m.allSent)

/-- A transport entry is stopped: part-way through its message, its connection enters ERROR with ERR_CAUSE 3 (R486). One that
is withdrawn may not be sent again either, so there a message sent whole counts as part-way too (DEDUCED, log entry 25). -/
def haltTransport (d : Ix9) (k slot : Nat) (e : Entry) (status cause : Nat) : Ix9 :=
  let n := e.object
  let c := connOf d n
  let mine (m : TxMsg) : Bool := m.org == .entry k slot
  let begun := c.txMsgs.any (fun m => mine m && (m.sent != 0 || m.allSent)) || c.txOut.any (fun t => t.org == .entry k slot)
  let whole := sentWhole c (.entry k slot) && status != ST_XLATE_WITHDRAWN
  let d := updConn d n (fun c => if whole then orphan c (.entry k slot) else { c with txMsgs := c.txMsgs.filter (fun m => !mine m) })
  let d := updEntry d k slot (fun e => { e with phase := haltPhase })
  let d := if 0x13 ≤ e.op && e.op ≤ 0x15 then seekAcks d k slot e.segs else d
  let d := if begun && !whole then enterError d n 3 none true else d
  issuedEntry d k slot status cause

/-- Pieces of the entry's buffers that it writes. -/
def writtenSegs (rq : Bool) (e : Entry) : List Seg :=
  ((bufUses rq e).zip e.bufs).flatMap (fun (u, b) => if u.write then b.segs else [])

/-- A Heat's or attention request's entry is stopped: destination acknowledgements are sought on every path its output took,
and the member aborts as origin with this status of its own (R62, R303, R304). -/
def haltHeat (d : Ix9) (key status cause : Nat) : Ix9 :=
  match heatAt d key with
  | none => d
  | some h =>
    let ps := if h.written then pathsOf d h.dst else []
    let d := ps.foldl (fun d p => needDest (updHeat d key (fun h => { h with acks := h.acks + 1 })) p (.heat key)) d
    heatOrigin d key ST_HEAT_ABORTED 0x06 h.ep.bib (some (status, cause))

/-- A started entry is stopped: no further transfer of it is issued, and it ends with this status once its writes have
destination acknowledgements. One that has issued everything and waits for acknowledgements is stopped too (R62). -/
def haltEntry (d : Ix9) (k slot status cause : Nat) : Ix9 :=
  match entryAt d k slot with
  | none => d
  | some e =>
    if e.stage != .started || e.phase = haltPhase then d
    else if 0x10 ≤ e.op && e.op ≤ 0x15 then haltTransport d k slot e status cause
    else if e.op ≤ 0x03 then
      (match chanOfEntry d k slot with
       | some c => (match (look d.stride c).bind (·.runs.head?) with
         | some r => runWithdraw d c r.k
         | none => endEntry (chanReset d c) k slot status cause)
       | none => endEntry d k slot status cause)
    else
      match heatOfEntry d k slot with
      | some key => haltHeat d key status cause
      | none =>
        if e.issued then
          issuedEntry (seekAcks (updEntry d k slot (fun e => { e with phase := haltPhase })) k slot (writtenSegs false e)) k slot status cause
        else endEntry { d with c := { d.c with waiters := d.c.waiters.filter (fun w => w.2 != (k, slot)) } } k slot status cause

/-! ## What runs with older translations (R62 to R64) -/

/-- Packets executed at this receiver, and reads of peers, that use translations of the range older than `xgen`
(DEDUCED, log entry 54). -/
def rxOld (d : Ix9) (asid va pages xgen : Nat) : Bool :=
  let old (g : Seg) : Bool := g.inRange asid va pages && g.xgen < xgen
  d.c.conns.any (fun (_, c) => c.rxPend.any (fun p => p.segs.any old)) || d.c.rxReads.any (fun r => r.segs.any old)

/-- Paths that started entries, descriptors and executed packets write to with such translations. -/
def oldPaths (d : Ix9) (asid va pages xgen : Nat) : List Path :=
  let old (g : Seg) : Bool := g.inRange asid va pages && g.xgen < xgen
  let entries := d.q.sqs.flatMap (fun (_, s) => (s.entries.filter (fun e => e.stage = .started)).flatMap (fun e =>
    writtenSegs s.isRq e))
  let descs := d.stride.flatMap (fun (_, ch) => ch.runs.flatMap (·.dst))
  let rx := d.c.conns.flatMap (fun (_, c) => c.rxPend.flatMap (·.segs))
  pathsOf d ((entries ++ descs ++ rx).filter old)

/-! ## Invalidations (R123) -/

def updInv (d : Ix9) (id : Nat) (g : Inv → Inv) : Ix9 := { d with x := { d.x with invs := upd d.x.invs id g } }

/-- Started entries that will run an invalidation and have not begun it. -/
def invClaims (d : Ix9) : Nat :=
  d.q.sqs.foldl (fun a (_, s) => a + (s.entries.filter (fun e => e.stage = .started
    && ((e.op = 0x40 && e.phase < 2) || ((e.op = 0x42 || e.op = 0x43) && e.phase = 0)))).length) 0

/-- An invalidation may begin: an island runs 64 at once (R124). -/
def invRoom (d : Ix9) : Bool := d.x.invs.length + invClaims d < 64

/-- Queues whose ring memory the range covers enter error (R125). -/
def invRings (d : Ix9) (asid va pages : Nat) : Ix9 :=
  d.q.sqs.foldl (fun d (k, s) =>
    if !s.admin && s.asid = asid && rangesMeet (s.ringVa, 16 * 2 ^ s.ring.log2) (va, pages * 4096)
    then queueError d k ST_QUEUE_ERROR 0x04 false else d) d

/-- Windows that lie in the range: a drain of each begins (R64). -/
def invWins (d : Ix9) (asid va pages : Nat) (also : Option Nat) : Ix9 × List (Nat × Nat) :=
  let ws := (d.x.wins.filter (fun (n, w) => also == some n || (w.v && w.asid == asid && rangesMeet (w.base, w.pages * 4096) (va, pages * 4096)))).map (·.1)
  (ws.foldl (fun d n => { d with x := { d.x with wins := upd d.x.wins n (fun w => { w with begun := w.begun + 1 }) } }) d,
   ws.map (fun n => (n, (winOf d n).begun + 1)))

/-- Pages of advised ranges of HINT 2 that lie in a range are walked again, where no current translation is held (R139). -/
def adviceWalks (d : Ix9) (asid va pages : Nat) : Ix9 :=
  ((ctxOf d asid).advice.filter (fun a => a.hint == 2 && rangesMeet (a.va, a.pages * 4096) (va, pages * 4096))).foldl (fun d a =>
    (List.range 2).foldl (fun d isl =>
      if (List.range 2).any (fun t => flag a.arg (2 * isl + t)) then
        (missPages (min 4096 a.pages) d isl asid a.va (min 4096 a.pages * 4096)).foldl (fun d p => startWalk d isl asid p) d
      else d) d) d

/-- Steps 1 and 2 of R123, and the beginning of the drain; KIND 3 has no range. -/
def startInv (d : Ix9) (by_ : InvBy) (kind asid va pages func : Nat) (retry failPaused : Bool) (win : Option Nat := none) : Ix9 :=
  let id := d.x.nextInv
  let d := { d with x := { d.x with nextInv := id + 1 } }
  if kind = 3 then
    let i : Inv := { asid := asid, va := 0, pages := 0, by_ := by_, kind := 3, func := func, xgen := 0, draining := false,
                     retry := retry, failPaused := failPaused }
    { d with x := { d.x with invs := put d.x.invs id i } }
  else
    let d := invRings (bumpGen d asid va pages) asid va pages
    let (d, ws) := invWins d asid va pages win
    let xgen := (ctxOf d asid).xgen
    let i : Inv := { asid := asid, va := va, pages := pages, wins := ws, by_ := by_, kind := kind, func := func, xgen := xgen,
                     paths := oldPaths d asid va pages xgen, retry := retry, failPaused := failPaused }
    adviceWalks { d with x := { d.x with invs := put d.x.invs id i } } asid va pages

/-- Step 3 is over once nothing runs with an older translation; then step 4 seeks the acknowledgements. Until then the paths
that packets take with older translations are noted (R63, R64). -/
def invStep (d : Ix9) (id : Nat) : Ix9 :=
  match look d.x.invs id with
  | none => d
  | some i =>
    let i := if i.draining then { i with paths := (i.paths ++ oldPaths d i.asid i.va i.pages i.xgen).eraseDups } else i
    let d := updInv d id (fun _ => i)
    if !i.draining || !(runningOld d i.asid i.va i.pages i.xgen).isEmpty || !(runsOld d i.asid i.va i.pages i.xgen).isEmpty
        || rxOld d i.asid i.va i.pages i.xgen then d
    else
      i.paths.foldl (fun d p => needDest (updInv d id (fun i => { i with acks := i.acks + 1 })) p (.inv id))
        (updInv d id (fun i => { i with draining := false }))

/-- An invalidation that no entry runs is asked for; it begins when there is room (R124). -/
def askInv (d : Ix9) (r : InvReq) : Ix9 := { d with x := { d.x with invWait := d.x.invWait ++ [r] } }

/-- Waiting invalidations begin while there is room. -/
def invBegin (d : Ix9) : Ix9 :=
  d.x.invWait.foldl (fun d r =>
    if invRoom d then startInv { d with x := { d.x with invWait := removeFirst d.x.invWait r } } r.by_ r.kind r.asid r.va r.pages r.func false false
    else d) d

def invSteps (d : Ix9) : Ix9 :=
  let d := invBegin d
  d.x.invs.foldl (fun d (id, _) => invStep d id) d

/-- A started entry is stopped under R62 for an invalidation, which counts it where no other has (R124). -/
def withdraw (id : Nat) (d : Ix9) (k slot : Nat) : Ix9 :=
  let first := (entryAt d k slot).any (fun e => e.withdrawn.isNone && e.stage = .started)
  let d := if first then updInv (updEntry d k slot (fun e => { e with withdrawn := some id })) id
      (fun i => { i with withdrawn := i.withdrawn + 1 }) else d
  haltEntry d k slot ST_XLATE_WITHDRAWN 0

/-- INV_DRAIN_LIMIT_EXPIRY: what still runs is stopped; each entry counts once (R124). -/
def invLimit (d : Ix9) (id : Nat) : Ix9 :=
  match look d.x.invs id with
  | none => d
  | some i =>
    if !i.draining then d
    else
      let old := (runningOld d i.asid i.va i.pages i.xgen).filter (fun (k, s) => !halted d k s)
      let d := old.foldl (fun d (k, s) => withdraw id d k s) d
      let chains := (runsOld d i.asid i.va i.pages i.xgen).filter (fun (c, k) => (runAt d c k).any (fun r => r.bad.isNone))
      invSteps (chains.foldl (fun d (c, k) => runWithdraw d c k) d)

/-- A paused queue resumes: its head entry is translated again (R123 step 5, R143). -/
def resumeQueue (d : Ix9) (k : Nat) : Ix9 :=
  match sqAt d k with
  | some s =>
    (match s.paused with
     | some (slot, _, pend) =>
       let d := updSq d k (fun s => { s with paused := none })
       entryTry (if pend then writePending d s.func k else d) k slot
     | none => d)
  | none => d

/-- FAIL_PAUSED: the entry at which a queue paused fails. -/
def failPausedQueue (d : Ix9) (k : Nat) : Ix9 :=
  match sqAt d k with
  | some s =>
    (match s.paused with
     | some (slot, va, pend) =>
       let d := updSq d k (fun s => { s with paused := none })
       let d := if pend then writePending d s.func k else d
       failEntry d k slot ST_XLATE_FAULT (((entryAt d k slot).map (·.cause)).getD 0) va
     | none => d)
  | none => d

/-- The invalidation is step 1 of a prefetch. -/
def Inv.forPrefetch (i : Inv) (d : Ix9) : Bool :=
  match i.by_ with
  | .entry k slot => (entryAt d k slot).any (fun e => e.op == 0x40)
  | _ => false

/-- Step 5 on paused queues. -/
def invPaused (d : Ix9) (i : Inv) : Ix9 :=
  d.q.sqs.foldl (fun d (k, s) =>
    match s.paused with
    | none => d
    | some (_, va, _) =>
      if i.kind != 3 && s.asid = i.asid && i.va ≤ va && va < i.va + i.pages * 4096 then
        (if i.failPaused then failPausedQueue d k else resumeQueue d k)
      else if i.retry && s.func = i.func then resumeQueue d k
      else d) d

/-- The ASID context of R108 from its 32 bytes. Its generation, log and advice stay. -/
def ctxLoad (c : Ctx) (b : List Byte) : Ctx :=
  let v := leNat b
  { c with v := flag v 0, mode := bit v 1, pri := flag v 2, rootLoc := bit v 3, owner := bits v 25 16, pasid := bits v 51 32,
           root := bits v 127 64 / 4096 * 4096, rdtLoc := bit v 128, rdtBase := bits v 191 140 * 4096, rdtCount := bits v 215 192 }

/-- The function context of R141 from its 32 bytes: the ring's counts start at 0 unless the ring stays as it is. -/
def fctxLoad (c : Fctx) (b : List Byte) : Fctx :=
  let v := leNat b
  let n : Fctx := { fqV := flag v 0, fqLoc := bit v 1, fqBase := bits v 63 12 * 4096, fqLog2 := bits v 68 64, eqId := bits v 91 80,
                    fqDb := bits v 111 96, fpLoc := bit v 129, fpBase := bits v 191 140 * 4096 }
  if n.fqV = c.fqV && n.fqLoc = c.fqLoc && n.fqBase = c.fqBase && n.fqLog2 = c.fqLog2 then { n with prod := c.prod, cons := c.cons } else n

/-- Loads the context a KIND 2 or 3 names from its table; none where the read failed, with its status (DEDUCED, log entry 16). -/
def ctxReload (m : List Host.Cell) (d : Ix9) (kind n : Nat) (r : ReadData) : Sum Nat Ix9 :=
  let loc := if kind = 2 then rget d Fld.XLATE_ASID_BASE_LOC else rget d Fld.XLATE_FCTX_BASE_LOC
  let base := (if kind = 2 then rget d Fld.XLATE_ASID_BASE_ADDR else rget d Fld.XLATE_FCTX_BASE_ADDR) * 4096
  match tableRead m d 0 loc (base + 32 * n) 32 r with
  | .ok b => .inr (if kind = 2 then updCtx d n (fun c => ctxLoad c b)
                   else { d with x := { d.x with fctx := put d.x.fctx n (fctxLoad (fctxOf d n) b) } })
  | .poisoned _ => .inl ST_DATA_POISON
  | _ => .inl ST_BUS_ERROR

/-! ## Prefetch (R136 to R138) -/

/-- Phases of a started OP_PREFETCH: leaves are sought, the range is invalidated, pages are copied, the copies or the
leaves await their acknowledgements. -/
def pfSeek : Nat := 1
def pfInval : Nat := 2
def pfCopy : Nat := 3
def pfCopied : Nat := 4
def pfLeaves : Nat := 5

/-- The range of a prefetch. -/
def Entry.range (e : Entry) : Nat × Nat := (e.rangeVa, e.rangePages * 4096)

/-- A prefetch holds back entries with an address in its range, from step 1 to step 5. -/
def prefetchHolds (d : Ix9) (s : Sq) (e : Entry) : Bool :=
  d.q.sqs.any (fun (_, o) => o.entries.any (fun p => p.op == 0x40 && p.stage = .started && pfInval ≤ p.phase && p.phase ≤ pfLeaves
    && p.object % 2 ^ 20 == s.asid && e.segs.any (fun g => g.asid == s.asid && rangesMeet (g.va, g.len) p.range)))

/-- DEST of the page at `va`. -/
def pfDest (d : Ix9) (e : Entry) (va : Nat) : Phys :=
  let t := e.fld 2 66 64
  ⟨if t = 0 then .host else if t = 1 then .landing else .accel (t - 2), e.operandAt 2 + (va - e.rangeVa), (ctxOf d (e.object % 2 ^ 20)).owner, false, false⟩

/-- Seeks the leaves of the range in turn; `fuel` bounds them. They are kept as pieces of no ASID. -/
def pfFind (fuel : Nat) (d : Ix9) (isl : Nat) (e : Entry) (va : Nat) : Sum XRes (List Seg) :=
  match fuel with
  | 0 => .inr []
  | f + 1 =>
    let asid := e.object % 2 ^ 20
    if e.rangeVa + e.rangePages * 4096 ≤ va then .inr []
    else
      match xlate d isl asid { va := va, len := 1 } with
      | .ok l =>
        match l.head? with
        | none => .inr []
        | some g =>
          let base := va / g.page * g.page
          match pfFind f d isl e (base + g.page) with
          | .inr r => .inr ({ g with va := base, len := g.page, asid := 2 ^ 20, xgen := 0,
                                     phys := { g.phys with addr := g.phys.addr - (va - base) } } :: r)
          | x => x
      | r => .inl r

/-- The range starts and ends on leaf boundaries, and DEST suits the leaves' sizes. -/
def pfBounds (e : Entry) (l : List Seg) : Option Nat :=
  let (va, n) := e.range
  if !(l.head?.all (fun g => g.va == va)) || !(l.getLast?.all (fun g => g.va + g.len == va + n)) then some 0x20
  else if l.any (fun g => (e.operandAt 2 + (g.va - va)) % g.page != 0) then some 0x08
  else none

/-- Status of a source page that cannot be used: one that is not valid or not readable gives ST_XLATE_FAULT (R138), other
causes are as R140 has them. -/
def pfStatus (cause : Nat) : Nat := if cause = 0x01 || cause = 0x02 then ST_XLATE_FAULT else faultStatus cause

/-- Goes on with the search for leaves; with all of them known the range is invalidated (step 1). -/
def pfGo (d : Ix9) (k slot : Nat) : Ix9 :=
  match sqAt d k, entryAt d k slot with
  | some s, some e =>
    if !(e.op = 0x40 && e.stage = .started && e.phase = pfSeek) then d
    else
      let asid := e.object % 2 ^ 20
      match pfFind (e.rangePages + 1) d (xisle s.tile) e e.rangeVa with
      | .inl (.miss p) =>
        let pages := missPages e.rangePages d (xisle s.tile) asid e.rangeVa (e.rangePages * 4096)
        updEntry ((p :: pages).foldl (fun d p => startWalk d (xisle s.tile) asid p) d) k slot (fun e => { e with wait := some p })
      | .inl (.unit st) => endEntry d k slot st
      | .inl (.ok _) => d
      | .inl (.fault x) =>
        let r : FaultRec := { fault := x, asid := asid, sqId := sqIdOf k, tag := e.tag, slot := e.slot % 2 ^ 32, object := e.object }
        endEntry (recordFault d s.func r) k slot (pfStatus x.cause) x.cause 0 x.va
      | .inr l =>
        match pfBounds e l with
        | some c => endEntry d k slot ST_BAD_ENTRY c
        | none =>
          let d := updEntry d k slot (fun e => { e with phase := pfInval, wait := none, bufs := [{ segs := l }] })
          invSteps (startInv d (.entry k slot) 0 asid e.rangeVa e.rangePages s.func false false)
  | _, _ => d

/-- OP_PREFETCH: a started prefetch. An ASID the function may not use ends it with ST_XLATE_PERM (R109). -/
def opPrefetch (d : Ix9) (k slot : Nat) : Ix9 :=
  match startedEntry d 0x40 k slot with
  | none => d
  | some (s, e) =>
    let asid := e.object % 2 ^ 20
    if !mayUse d s.func asid then endEntry d k slot ST_XLATE_PERM
    else if (ctxOf d asid).mode = 1 then endEntry d k slot ST_BAD_ENTRY 0x21
    else pfGo (updEntry d k slot (fun e => { e with phase := pfSeek })) k slot

/-- Bytes of the range copied at a time. -/
def pfPiece : Nat := 4096

/-- The leaf entry as step 3 rewrites it: TARGET and ADDR new, permissions kept, GEN one more. -/
def pfPte (d : Ix9) (e : Entry) (g : Seg) : Nat :=
  setBits (setBits (setBits g.pte 10 8 (e.fld 2 66 64)) 51 12 ((pfDest d e g.va).addr / 4096)) 59 52 ((bits g.pte 59 52 + 1) % 256)

/-- Steps 3 to 5: leaf number `i` is rewritten with one write, which gets its acknowledgement before the next; after the last
the range is invalidated again (R123 steps 1 and 2) and walked again where HINT 2 asks for it (R139). A write that fails ends
the entry, and no later leaf changes (R138). -/
def pfRewrite (d : Ix9) (k slot : Nat) (e : Entry) (i : Nat) : Ix9 :=
  let asid := e.object % 2 ^ 20
  match e.segs[i]? with
  | none =>
    endEntry (adviceWalks (bumpGen d asid e.rangeVa e.rangePages) asid e.rangeVa e.rangePages) k slot ST_OK 0 (e.rangePages * 4096)
      (e.segs.length % 2 ^ 32)
  | some g =>
    match memWrite d g.pteAt (leBytes 8 (pfPte d e g)) with
    | (d, true) => endEntry d k slot ST_BUS_ERROR
    | (d, false) =>
      needDest (updEntry d k slot (fun e => { e with phase := pfLeaves, pos := i, acks := 1 })) (pathOf d g.pteAt) (.prefetch k slot)

/-- The copies or a leaf write of a prefetch have their acknowledgements. -/
def pfAcked (d : Ix9) (k slot : Nat) : Ix9 :=
  match entryAt d k slot with
  | none => d
  | some e =>
    let d := updEntry d k slot (fun e => { e with acks := e.acks - 1 })
    if !(e.op = 0x40 && e.stage = .started) || 1 < e.acks then d
    else if e.phase = pfCopied then pfRewrite d k slot e 0
    else if e.phase = pfLeaves then pfRewrite d k slot e (e.pos + 1)
    else d

/-- Paths that the copies of a prefetch take. -/
def pfPaths (d : Ix9) (e : Entry) : List Path :=
  ((List.range e.rangePages).map (fun i => pathOf d (pfDest d e (e.rangeVa + i * 4096)))).eraseDups

/-- SOURCE_READ_COMPLETION of a prefetch: the next piece of the range has been read, and is written to DEST (step 2). Every
copy write gets a destination acknowledgement on its path. -/
def pfRead (m : List Host.Cell) (d : Ix9) (k slot : Nat) (r : ReadData) : Ix9 :=
  match entryAt d k slot with
  | none => d
  | some e =>
    if !(e.op = 0x40 && e.stage = .started && e.phase = pfCopy) then d
    else
      match readSegs m d (slice e.pos pfPiece e.segs) r with
      | .own => d
      | .ok b =>
        let p := pfDest d e (e.rangeVa + e.pos)
        let (d, poison) := memWrite d p b
        if poison then endEntry d k slot ST_BUS_ERROR
        else if e.pos + b.length < e.rangePages * 4096 then
          updEntry (stillWriting d (pathOf d p) (.prefetch k slot)) k slot (fun e => { e with pos := e.pos + b.length })
        else
          let ps := pfPaths d e
          ps.foldl (fun d p => needDest d p (.prefetch k slot))
            (updEntry d k slot (fun e => { e with pos := e.pos + b.length, phase := pfCopied, acks := ps.length }))
      | _ => endEntry d k slot ST_BUS_ERROR

/-! ## The end of an invalidation -/

/-- Messages that fill a receive buffer of the range, and drains of windows: what R62 and R64 keep from then on. -/
def invMark (d : Ix9) (i : Inv) : Ix9 :=
  let old (g : Seg) : Bool := g.inRange i.asid i.va i.pages && g.xgen < i.xgen
  let d := { d with c := { d.c with conns := d.c.conns.map (fun (n, c) =>
    (n, { c with rxMsg := c.rxMsg.map (fun m => if m.buf.any old then { m with stale := true } else m) })) } }
  i.wins.foldl (fun d (n, k) => { d with x := { d.x with wins := upd d.x.wins n (fun w => { w with drained := max w.drained k }) } }) d

/-- The context that could not be loaded counts as one with V 0, or FQ_V 0 (DEDUCED, log entry 16). -/
def ctxLost (d : Ix9) (i : Inv) : Ix9 :=
  if i.kind = 2 then updCtx d i.asid (fun c => { c with v := false })
  else { d with x := { d.x with fctx := updD d.x.fctx i.func (fun c => { c with fqV := false }) } }

/-- INVALIDATION_DONE: nothing runs, every write is acknowledged: step 5. `r` brings the context of KIND 2 and 3. A prefetch
runs steps 1 to 4 only (R137). -/
def invDone (m : List Host.Cell) (d : Ix9) (id : Nat) (r : ReadData) : Ix9 :=
  match look d.x.invs id with
  | none => d
  | some i =>
    if i.draining || i.acks != 0 then d
    else
      let load := if i.kind = 2 || i.kind = 3 then ctxReload m d i.kind (if i.kind = 2 then i.asid else i.func) r else .inr d
      let st := match load with | .inl st => st | .inr _ => ST_OK
      let d := match load with | .inl _ => ctxLost d i | .inr d => d
      let d := { d with x := { d.x with invs := drop d.x.invs id } }
      let d := if i.kind = 3 then d else invMark d i
      let d := if i.forPrefetch d then d else invPaused d i
      match i.by_ with
      | .entry k slot =>
        (match entryAt d k slot with
         | some e =>
           if e.op = 0x42 then endEntry d k slot st 0 0 (i.withdrawn % 2 ^ 16)
           else if e.op = 0x43 then endEntry d k slot ST_OK 0 0 e.result
           else if e.op = 0x40 && e.stage = .started then updEntry d k slot (fun e => { e with phase := pfCopy, pos := 0 })
           else d
         | none => d)
      | .ats n pasid =>
        if d.x.invs.any (fun (_, o) => o.by_ == .ats n pasid) || d.x.invWait.any (fun o => o.by_ == .ats n pasid) then d
        else emit d (.atsInvDone pasid)
      | .quota _ => d
      | .fw c => { d with x := { d.x with fwDone := d.x.fwDone ++ [(c, if st = ST_OK then 0 else 1)] } }

/-- OP_INVALIDATE: a started invalidation (R121, R122) (DEDUCED, log entry 16). -/
def opInvalidate (d : Ix9) (k slot : Nat) : Ix9 :=
  match startedEntry d 0x42 k slot with
  | none => d
  | some (s, e) =>
    let kind := e.invKind
    let asid := e.object % 2 ^ 20
    let retry := flag (e.slotAt 0) 27
    let failP := flag (e.slotAt 0) 28
    if 2 ≤ kind && !(s.admin && s.func = 0) then endEntry d k slot ST_XLATE_PERM
    else if kind < 2 && !mayUse d s.func asid then endEntry d k slot ST_XLATE_PERM
    else if kind = 2 && 2 ^ rget d Fld.XLATE_ASID_CFG_LOG2_ENTRIES ≤ e.object then endEntry d k slot ST_BAD_ENTRY 0x07
    else if kind = 3 && !funcExists e.object then endEntry d k slot ST_BAD_ENTRY 0xA2
    else
      let d := updEntry d k slot (fun e => { e with phase := 1 })
      let func := if kind = 3 then e.object else if kind = 2 then (ctxOf d asid).owner else s.func
      let (va, pages) := if kind = 0 then (e.rangeVa, e.rangePages) else (0, 2 ^ 52)
      invSteps (startInv d (.entry k slot) kind asid va pages func retry failP)

/-! ## Walks and ATS -/

/-- Everything that waits for a translation in an ASID tries again. -/
def retryXlate (d : Ix9) (isl asid : Nat) : Ix9 :=
  let waits := d.q.sqs.flatMap (fun (k, s) => if xisle s.tile = isl then
    (s.entries.filter (fun e => e.wait.isSome && (e.asid s == asid || e.op == 0x40))).map (fun e => (k, e.slot)) else [])
  let d := waits.foldl (fun d (k, slot) => pfGo (entryTry d k slot) k slot) d
  let d := runAllParked d
  (List.range 16).foldl (fun d p => (List.range 8).foldl (fun d lane =>
    match (linkOf d p).rx.find? (fun k => k.lane == lane) with
    | some k => if k.mc then nativeRoute d p lane else d
    | none => d) d) d

/-- A translation has failed: those that wait for the page fault. -/
def xlateFailed (d : Ix9) (isl asid page : Nat) (f : XFault) : Ix9 :=
  retryXlate { d with x := { d.x with found := some (isl, asid, page, f.cause, f.level, f.gen) } } isl asid

/-- A leaf that only queue creates asked for serves those that wait, and is kept in no translation cache (R104). -/
def passLeaf (d : Ix9) (isl : Nat) (l : Leaf) : Ix9 :=
  let d := retryXlate { d with x := { d.x with leaves := put d.x.leaves isl (l :: lookD d.x.leaves isl) } } isl l.asid
  { d with x := { d.x with leaves := put d.x.leaves isl (removeFirst (lookD d.x.leaves isl) l) } }

/-- A translation has been found. -/
def leafFound (d : Ix9) (isl : Nat) (l : Leaf) (br : List Branch) (keep : Bool) : Ix9 :=
  if keep then retryXlate (cacheLeaf d isl l br) isl l.asid else passLeaf d isl l

/-- WALK_DONE: the reads of a running walk have come, by level; level 0 is the remote descriptor. Walks asked for in the
leaf's page are served with it. -/
def walkDone (m : List Host.Cell) (d : Ix9) (isl asid page : Nat) (reads : List (Nat × ReadData)) : Ix9 :=
  match d.x.walks.find? (fun w => w.isFor isl asid page && w.run) with
  | none => d
  | some w =>
    if w.again then
      count { d with x := { d.x with walks := d.x.walks.map (fun x => if x = w then { x with again := false } else x) } } Fld.XLATE_WALKS
    else
      match walk m d isl asid page reads with
      | .stuck => d
      | .leaf l br =>
        let mine (x : XReq) : Bool := x.isle == isl && x.asid == asid && !x.again && l.va ≤ x.page && x.page < l.va + l.size
        let d' := { d with x := { d.x with walks := d.x.walks.filter (fun x => !mine x) } }
        runWalks (leafFound d' isl l br ((d.x.walks.filter mine).any (·.keep))) isl
      | .fault f => runWalks (xlateFailed { d with x := { d.x with walks := removeFirst d.x.walks w } } isl asid page f) isl

/-- An ATS result denies every access: a Page Request with PRI, else a fault (R129). -/
def atsDenied (d : Ix9) (isl asid page : Nat) : Ix9 :=
  if (ctxOf d asid).pri then retryXlate (askPage d isl asid page) isl asid else xlateFailed d isl asid page (noWalk 0x06 page)

/-- ATS_TRANSLATION_COMPLETION (R127, R129). A request that an invalidation has covered is sent again (R120). -/
def atsDone (d : Ix9) (isl asid page : Nat) (r : AtsRes) : Ix9 :=
  let c := ctxOf d asid
  match d.x.ats.find? (·.isFor isl asid page) with
  | none => d
  | some q =>
    let d := { d with x := { d.x with ats := removeFirst d.x.ats q } }
    if q.again then emit { d with x := { d.x with ats := d.x.ats ++ [{ q with again := false }] } } (.ats c.pasid page)
    else match r with
    | .ok addr size rd w ns =>
      if !rd && !w then atsDenied d isl asid page
      else
        let size := max 4096 size
        let l : Leaf := { asid := asid, va := page / size * size, size := size, r := rd, w := w, at_ := rd && w,
                          phys := ⟨.host, addr / size * size, c.owner, ns, true⟩, gen := 0, xgen := c.xgen }
        leafFound d isl l [] q.keep
    | .denied => atsDenied d isl asid page

/-- ATS_INVALIDATE_REQUEST (R128): request number `id`. -/
def atsInvalidate (d : Ix9) (id pasid va pages : Nat) : Ix9 :=
  let asids := (d.x.ctx.filter (fun (_, c) => c.v && c.pasid == pasid)).map (·.1)
  if asids.isEmpty then emit d (.atsInvDone pasid)
  else invSteps (asids.foldl (fun d a => askInv d ⟨.ats id pasid, 0, a, va, pages, (ctxOf d a).owner⟩) d)

/-- PAGE_REQUEST_GROUP_RESPONSE, and PRI_TIMEOUT as a response that is no Success (R129). -/
def pageResponse (d : Ix9) (isl asid page : Nat) (ok : Bool) : Ix9 :=
  if !d.x.pri.contains (isl, asid, page) then d
  else
    let d := { d with x := { d.x with
      pri := removeFirst d.x.pri (isl, asid, page)
      leaves := d.x.leaves.map (fun (i, ls) => (i, if i = isl then ls.filter (fun l => !(l.asid == asid && l.va ≤ page && page < l.va + l.size)) else ls)) } }
    if ok then emit { d with x := { d.x with ats := d.x.ats ++ [{ isle := isl, asid := asid, page := page, run := true }] } }
      (.ats (ctxOf d asid).pasid page)
    else xlateFailed d isl asid page (noWalk 0x07 page)

/-! ## Remote windows (R130 to R133) -/

/-- XLATE_LOCK: the translation fields are locked and the window table is written with zeros. -/
def xlateLock (d : Ix9) : Ix9 :=
  if rflag d Fld.XLATE_CTRL_LOCK then d
  else
    let d := rset d Fld.XLATE_CTRL_LOCK 0 1
    let p : Phys := ⟨if rflag d Fld.XLATE_WIN_BASE_LOC then .landing else .host, rget d Fld.XLATE_WIN_BASE_ADDR * 4096, 0, false, false⟩
    let n := winTableSize d
    let d := { d with x := { d.x with wins := [] } }
    if n = 0 then d else needDest (memWrite d p (List.replicate (32 * n) 0)).1 (pathOf d p) .winInit

/-- A token still waits for its acknowledgement on some path. -/
def tokWaits (d : Ix9) (t : Tok) : Bool :=
  d.paths.any (fun (_, s) => s.waiting.contains t || s.port.contains t || s.writing.contains t || s.reqs.any (fun r => r.covers.contains t))

/-- WINDOW_TABLE_INIT_DONE. -/
def winInitDone (d : Ix9) : Ix9 :=
  if rflag d Fld.XLATE_CTRL_LOCK && !tokWaits d .winInit then { d with x := { d.x with winReady := true } } else d

/-- PTP seconds mod 2^32 when a quarantine that begins now ends. -/
def quarEndOf (d : Ix9) : Nat := ceilDiv (d.now + rget d Fld.CONN_QUARANTINE * 10 ^ 6) (10 ^ 9) % 2 ^ 32

/-- Checks of R131 on a create or modify: none where they pass (DEDUCED, log entry 15). -/
def winSetCheck (d : Ix9) (s : Sq) (e : Entry) : Option (Nat × Nat) :=
  let asid := e.fld 1 115 96
  let pd := look d.c.pds (e.fld 2 55 32)
  if !mayUse d s.func asid then some (ST_XLATE_PERM, 0)
  else if !(pd.any (fun p => p.1 == s.func)) then some (ST_BAD_ENTRY, 0x56)
  else if !(pd.any (fun p => p.2 == asid)) then some (ST_BAD_ENTRY, 0x52)
  else none

/-- The window a create or modify makes; WGEN rises by 1 (DEDUCED, log entry 15). -/
def winMade (s : Sq) (e : Entry) (old : Win) : Win :=
  { v := true, rd := flag (e.slotAt 2) 56, wr := flag (e.slotAt 2) 57, at_ := flag (e.slotAt 2) 58, held := flag (e.slotAt 2) 59,
    pd := e.fld 2 55 32, rkey := e.fld 2 23 0 * 256 + (old.rkey + 1) % 256, base := e.operandAt 1, pages := e.rangePages,
    asid := e.fld 1 115 96, owner := s.func, begun := old.begun, drained := old.drained }

/-- A named window of the function that a modify or destroy may change. -/
def winNamed (d : Ix9) (s : Sq) (n : Nat) : Bool := n < winTableSize d && (winOf d n).v && (winOf d n).owner == s.func

/-- OP_WINDOW_SET: a started entry. The number a create may choose is free (DESIGN CHOICE, log entry 3). -/
def opWindowSet (d : Ix9) (k slot : Nat) : Ix9 :=
  match startedEntry d 0x43 k slot with
  | none => d
  | some (s, e) =>
    let action := e.action2
    match (if action = 2 then none else winSetCheck d s e) with
    | some (st, c) => endEntry d k slot st c
    | none =>
      if action = 0 then
        if !quotaAllows d s.func rWIN 1 then endEntry d k slot ST_QUOTA 0x01
        else
          let size := winTableSize d
          let used (n : Nat) : Bool := (winOf d n).v || (winOf d n).quar || n = 0xFFFFFF
          let auto := e.object = 0xFFFFFF
          let (v, d) := if auto then draw d else (0, d)
          match (if auto then pickFree v size used size else some e.object) with
          | none => endEntry d k slot ST_QUOTA 0x02
          | some n =>
            if size ≤ n || used n then endEntry d k slot ST_BAD_ENTRY 0x30
            else
              let w := winMade s e (winOf d n)
              endEntry (setWin d n w) k slot ST_OK 0 0 (n + w.rkey * 2 ^ 32)
      else
        let n := e.object
        if !winNamed d s n then endEntry d k slot ST_BAD_ENTRY 0x31
        else
          let old := winOf d n
          let w := if action = 1 then winMade s e old else { old with v := false, quar := true, quarEnd := quarEndOf d }
          let d := setWin d n w
          let d := updEntry d k slot (fun e => { e with phase := 1, result := n + w.rkey * 2 ^ 32 })
          invSteps (startInv d (.entry k slot) 0 old.asid old.base old.pages s.func false false (some n))

/-- WINDOW_QUARANTINE_END (R132): the number may be created again; its WGEN stays. -/
def winQuarEnd (d : Ix9) (n : Nat) : Ix9 :=
  let w := winOf d n
  if w.quar then quotaSettle (setWin d n { rkey := w.rkey, begun := w.begun, drained := w.drained }) else d

/-! ## Advice (R139) -/

/-- OP_ADVISE: a started entry. -/
def opAdvise (d : Ix9) (k slot : Nat) : Ix9 :=
  match startedEntry d 0x41 k slot with
  | none => d
  | some (s, e) =>
    let asid := e.object % 2 ^ 20
    if !mayUse d s.func asid then endEntry d k slot ST_XLATE_PERM
    else if e.action2 = 3 then
      endEntry (updCtx d asid (fun c => { c with
        advice := c.advice.filter (fun a => !rangesMeet (a.va, a.pages * 4096) e.range) })) k slot ST_OK
    else if 64 ≤ (ctxOf d asid).advice.length then endEntry d k slot ST_QUOTA
    else
      let d := updCtx d asid (fun c => { c with advice := ⟨e.rangeVa, e.rangePages, e.action2, e.oparg0⟩ :: c.advice })
      let d := if e.action2 = 2 then adviceWalks d asid e.rangeVa e.rangePages else d
      endEntry d k slot ST_OK

end Sys2Proof.Machine
end

