-- ==== Sys2Proof/Machine/Start.lean ====
section
/-!
DEFINITION. How entries start: eligibility (R30, R37, R60, R90), the start arbitration of a tile (R94, R201), RESTART
(R92), and the translations made anew before a start.
-/

namespace Sys2Proof.Machine

/-! ## Translations made anew (R60) -/

/-- A translation of the entry is older than the current generation of its mapping. -/
def entryStale (d : Ix9) (e : Entry) : Bool := e.segs.any (fun g => older (ctxOf d g.asid) g.xgen g.va g.len)

/-- Entries that have not started and whose translations are missing or out of date are translated; those of a paused queue
wait until it resumes (R140). -/
def freshen (d : Ix9) : Ix9 :=
  d.q.sqs.foldl (fun d (k, s) =>
    (s.entries.filter (fun e => s.paused.isNone && !s.isRq
        && ((e.stage = .translating && e.wait.isNone) || (e.stage = .ready && e.status = 0 && entryStale d e)))).foldl
      (fun d e => entryTry (updEntry d k e.slot (fun e => { e with stage := .translating })) k e.slot) d) d

/-! ## Eligibility (R90) -/

/-- The next entry to start. -/
def headEntry (s : Sq) : Option Entry := s.entries.find? (fun e => e.stage = .translating || e.stage = .ready)

/-- Started entries of an opcode that have not been taken up by their engine yet. -/
def takenSoon (d : Ix9) (p : Sq → Entry → Bool) : Nat :=
  d.q.sqs.foldl (fun a (_, s) => a + (s.entries.filter (fun e => e.stage = .started && e.phase = 0 && p s e)).length) 0

/-- Heats that run in a group, and in the device (R291). -/
def heatsIn (d : Ix9) (g : Nat) : Nat :=
  (d.h.heats.filter (fun (k, h) => k < localBase && h.group == g && !h.finished)).length
    + takenSoon d (fun s e => heatGroup d s e == some g)
def heatsRunning (d : Ix9) : Nat :=
  (d.h.heats.filter (fun (k, h) => k < localBase && !h.finished)).length + takenSoon d (fun s e => (heatGroup d s e).isSome)

/-- Attention requests that run on a tile (R357). -/
def attRunning (d : Ix9) (t : Nat) : Nat :=
  (d.h.heats.filter (fun (_, h) => h.tile == t && h.att.isSome && h.entry.isSome && !h.finished)).length
    + takenSoon d (fun s e => s.tile == t && (e.op == 0x30 || e.op == 0x31))

/-- OP_READ messages outstanding on a connection (R164). -/
def readsOn (d : Ix9) (n : Nat) : Nat :=
  ((startedOn d n).filter (fun x => (entryAt d x.1 x.2).any (fun e => e.op == 0x13))).length
    + ((connOf d n).txMsgs.filter (fun m => m.op == 0x13 && (match m.org with | .entry .. => false | _ => true))).length

/-- What an opcode asks for before an entry may start (R92, R124, R133, R164, R174, R291, R357, R387, R495). -/
def opFits (d : Ix9) (s : Sq) (e : Entry) : Bool :=
  let op := e.op
  !prefetchHolds d s e &&
    (if op ≤ 0x03 then (stridePick d s e).1.isSome
     else if op ≤ 0x15 then
       (!holdsState d e.object || cachedConn d e.object) && (op != 0x13 || readsOn d e.object < 16)
     else if 0x20 ≤ op && op ≤ 0x31 && op != 0x28 then
       (match heatGroup d s e with | some g => heatsIn d g < 16 && heatsRunning d < 4096 | none => true)
         && ((op != 0x30 && op != 0x31) || attRunning d s.tile < max 1 (rget d Fld.MARA_CFG_MAX_REQ))
     else if op = 0x40 || op = 0x42 then invRoom d
     else if op = 0x43 then d.x.winReady && invRoom d
     else if 0x50 ≤ op && op ≤ 0x52 then !rflag d Fld.FW_STATUS_ACTIVATING
     else if op = 0x64 then !waitsRestart d s.func e
     else true)

/-- An evacuation holds the queue: one of its tile, or on a return one whose origin is the tile that returns (R497 step 1,
R499). -/
def evacHolds (d : Ix9) (s : Sq) : Bool :=
  match d.rcv.evac with
  | some v => v.src == s.tile && (!v.back || s.origin == v.dst)
  | none => false

/-- The entry's turn has come: entries before it have started (R30), and with FENCE are done (R37). An entry that is to
complete without starting waits for no FENCE. -/
def headReady (d : Ix9) (s : Sq) (e : Entry) : Bool :=
  e.stage = .ready && s.paused.isNone && !(funcOf d s.func).resetting && cqFree d s.cq
    && (!e.fence || e.status != 0 || s.isRq || (s.entries.takeWhile (fun x => x.slot != e.slot)).all (fun x => x.stage = .done))

/-- The head entry of a queue may start, or complete without starting, under R90. -/
def eligible (d : Ix9) (s : Sq) : Bool :=
  match headEntry s with
  | none => false
  | some e =>
    headReady d s e && !evacHolds d s &&
      (if s.isRq then e.status = ST_FLUSHED
       else e.status != 0 || (e.fence && s.failed) || (!entryStale d e && opFits d s e))

/-! ## Start -/

/-- A Heat entry that took a HEAT_SEQ completed without starting (R303 cause 0x08): its neighbours get an ABORT. -/
def heatNotStarted (d : Ix9) (k : Nat) (s : Sq) (e : Entry) : Ix9 :=
  match e.heat, heatGroup d s e with
  | some (ep, seq), some gn =>
    (match look d.h.groups gn with
     | none => d
     | some g =>
       if ep != g.ep.epoch then d
       else
         let key := heatKey gn ep seq
         let d := updGroup d gn (fun g => { g with lastStarted := some seq })
         if has d.h.heats key || has g.recorded seq then updGroup d gn (fun g => { g with recorded := drop g.recorded seq })
         else
           let a : Abort := ⟨ST_HEAT_ABORTED, 0x08, g.ep.bib, 0, g.ep.bib, none, false⟩
           let h := { heatOf d g gn seq k e with xfers := [], entry := none }
           let d := heatAbort { d with h := { d.h with heats := put d.h.heats key h } } key a none
           heatForget (updHeat d key (fun h => { h with finished := true })) key)
  | _, _ => d

/-- The head entry completes without starting (R37, R89, R91). -/
def endUnstarted (d : Ix9) (k : Nat) (s : Sq) (e : Entry) (status cause result : Nat) : Ix9 :=
  let d := updEntry (cqReserve d s.cq) k e.slot (fun e => { e with resv := true })
  heatNotStarted (endEntry d k e.slot status cause 0 result) k s e

/-- STATUS and CAUSE of a transport entry that reaches start while its connection's state lets none start (R149). -/
def connRefuses (d : Ix9) (s : Sq) (e : Entry) : Option (Nat × Nat) :=
  if e.op < 0x10 || 0x15 < e.op then none
  else
    let c := connOf d e.object
    if c.owner != s.func || c.state = csRESET || c.state = csQUARANTINE then some (ST_BAD_ENTRY, 0x51)
    else if c.state = csINIT || c.state = csREADY_RX then some (ST_CONN_ABORTED, 0x01)
    else if c.state = csDRAIN then some (ST_CONN_ABORTED, 0x02)
    else if c.state = csERROR then some (ST_CONN_ABORTED, c.errCause)
    else none

/-- STATUS and CAUSE of an entry that reaches start and cannot: a unit is not ready (R25), or the connection is not
READY. -/
def startRefused (d : Ix9) (s : Sq) (e : Entry) : Option (Nat × Nat) :=
  match unitStatus d s e with
  | some st => some (st, 0)
  | none => connRefuses d s e

/-- The head entry starts, or completes without starting (DEDUCED, log entry 11). -/
def startEntry (d : Ix9) (k : Nat) (s : Sq) (e : Entry) : Ix9 :=
  if e.status != 0 then endUnstarted d k s e e.status e.cause e.result
  else if e.fence && s.failed then endUnstarted d k s e ST_FLUSHED 0 0
  else
    match startRefused d s e with
    | some (st, cause) => endUnstarted d k s e st cause 0
    | none =>
      let go (d : Ix9) : Ix9 :=
        updSq (updEntry (cqReserve d s.cq) k e.slot (fun e => { e with stage := .started, ran := true, resv := true })) k
          (fun s => { s with everStarted := true })
      -- modifies of a connection take effect in the order they start (R155)
      let go (d : Ix9) : Ix9 :=
        if e.op != 0x17 then go d
        else
          let live := d.c.modq.filter (fun (_, k2, s2) => (entryAt d k2 s2).any (fun e => e.op == 0x17 && e.stage = .started && e.phase < 2))
          go { d with c := { d.c with modq := live ++ [(e.object, k, e.slot)] } }
      if e.op ≤ 0x03 then
        match strideClaim d k s e with
        | (d, true) => go d
        | (d, false) => d
      else go d

/-- One turn of a queue: up to `n` entries start. -/
def startBurst (n : Nat) (d : Ix9) (k : Nat) : Ix9 :=
  match n with
  | 0 => d
  | n + 1 =>
    match sqAt d k with
    | none => d
    | some s =>
      match headEntry s with
      | some e => if eligible d s then startBurst n (startEntry d k s e) k else d
      | none => d

/-! ## Weighted round robin (R94) -/

/-- wrr_pick of R94: the member picked, the new pointer, and whether a new round began. -/
def wrrPick (l : List Nat) (ptr : Nat) (elig : Nat → Bool) (credit weight : Nat → Nat) : Option (Nat × Nat × Bool) :=
  let n := l.length
  let order := (List.range n).filterMap (fun i => (l[(ptr + i) % n]?).map (fun m => (i, m)))
  match order.find? (fun x => elig x.2 && 0 < credit x.2) with
  | some (i, m) => some (m, (ptr + i + 1) % n, false)
  | none =>
    if !(l.any elig) then none
    else (order.find? (fun x => elig x.2 && 0 < weight x.2)).map (fun x => (x.2, (ptr + x.1 + 1) % n, true))

/-- Queues of a function on a lane of a tile. -/
def queuesOn (d : Ix9) (t lane f : Nat) : List Nat :=
  (d.q.sqs.filter (fun (_, s) => s.tile == t && s.lane == lane && s.func == f)).map (·.1)

/-- Functions with queues on a lane of a tile. -/
def funcsOn (d : Ix9) (t lane : Nat) : List Nat :=
  d.q.sqs.foldl (fun l (_, s) => if s.tile = t && s.lane = lane then insertNat l s.func else l) []

def sqEligible (d : Ix9) (k : Nat) : Bool := (sqAt d k).any (eligible d)
def funcEligible (d : Ix9) (t lane f : Nat) : Bool := (queuesOn d t lane f).any (sqEligible d)
def laneEligible (d : Ix9) (t lane : Nat) : Bool := (funcsOn d t lane).any (funcEligible d t lane)

/-- Start weight of a lane; 0 acts as 1 (R201, R221). -/
def laneWeight (d : Ix9) (lane : Nat) : Nat := max 1 (rget d Fld.LANE_START_WEIGHT / 2 ^ (8 * (lane - 1)) % 256)

/-- A credit table after a pick: a new round fills it, then the picked member pays. -/
def payCredit (t : Tbl Nat) (key : Nat → Nat) (l : List Nat) (weight : Nat → Nat) (fresh : Bool) (m : Nat) : Tbl Nat :=
  let t := if fresh then l.foldl (fun t x => put t (key x) (weight x)) t else t
  put t (key m) (num t (key m) - 1)

/-- lane_scheduler_pick (R201). -/
def pickLane (d : Ix9) (t : Nat) : Option (Nat × Ix9) :=
  let lanes := [1, 2, 3, 4, 5, 6, 7]
  let key (l : Nat) : Nat := t * 8 + l
  (wrrPick lanes (num d.q.lanePtr t) (laneEligible d t) (fun l => num d.q.laneCredit (key l)) (laneWeight d)).map
    (fun (l, ptr, fresh) =>
      (l, { d with q := { d.q with lanePtr := put d.q.lanePtr t ptr,
                                   laneCredit := payCredit d.q.laneCredit key lanes (laneWeight d) fresh l } }))

/-- The function of a lane whose turn it is. -/
def pickFunc (d : Ix9) (t lane : Nat) : Option (Nat × Ix9) :=
  let fs := funcsOn d t lane
  let at_ := t * 8 + lane
  let key (f : Nat) : Nat := at_ * 1024 + f
  let weight (f : Nat) : Nat := funcWeight d f lane
  (wrrPick fs (num d.q.funcPtr at_) (funcEligible d t lane) (fun f => num d.q.funcCredit (key f)) weight).map
    (fun (f, ptr, fresh) =>
      (f, { d with q := { d.q with funcPtr := put d.q.funcPtr at_ ptr,
                                   funcCredit := payCredit d.q.funcCredit key fs weight fresh f } }))

/-- The queue of a function whose turn it is. A new round takes up weights and bursts as they stand (R93, R94). -/
def pickQueue (d : Ix9) (t lane f : Nat) : Option (Nat × Ix9) :=
  let qs := queuesOn d t lane f
  let at_ := (t * 8 + lane) * 1024 + f
  let weight (k : Nat) : Nat := ((sqAt d k).map (·.weight)).getD 0
  (wrrPick qs (num d.q.sqPtr at_) (sqEligible d) (fun k => ((sqAt d k).map (·.credit)).getD 0) weight).map
    (fun (k, ptr, fresh) =>
      let d := if fresh then qs.foldl (fun d x => updSq d x (fun s => { s with credit := s.weight, turn := s.burst })) d else d
      (k, updSq { d with q := { d.q with sqPtr := put d.q.sqPtr at_ ptr } } k (fun s => { s with credit := s.credit - 1 })))

/-- Connections that head entries of a tile need and that are spilled begin their fills (R27 step 4, R172). -/
def wakeConns (d : Ix9) (t : Nat) : Ix9 :=
  d.q.sqs.foldl (fun d (_, s) =>
    match (if s.tile = t then headEntry s else none) with
    | some e =>
      if 0x10 ≤ e.op && e.op ≤ 0x15 && e.status = 0 && headReady d s e && placeOf d e.object = some .spilled then startFill d e.object
      else d
    | none => d) d

/-- ARBITRATE: arbitrate() of R94 on a tile. -/
def arbitrate (d : Ix9) (t : Nat) : Ix9 :=
  if !xportReady d t then d
  else
    let d := wakeConns (freshen d) t
    match pickLane d t with
    | none => d
    | some (lane, d) =>
      match pickFunc d t lane with
      | none => d
      | some (f, d) =>
        match pickQueue d t lane f with
        | none => d
        | some (k, d) => startBurst (((sqAt d k).map (·.turn)).getD 1) d k

/-- QUEUE_RESTART: a RESTART that has waited at the head of its admin queue finds its queue empty; it starts and takes
effect (DEDUCED, log entry 13). -/
def queueRestart (d : Ix9) (k slot : Nat) : Ix9 :=
  match sqAt d k with
  | none => d
  | some s =>
    match headEntry s with
    | some e =>
      if e.slot = slot && e.op = 0x64 && flag e.opflags 0 && e.status = 0 && eligible d s
      then opModify (startEntry d k s e) true k slot else opModify d true k slot
    | none => opModify d true k slot

/-- OP_NOP: it moves no data (R81). -/
def opNop (d : Ix9) (k slot : Nat) : Ix9 :=
  match startedEntry d 0x70 k slot with
  | some _ => endEntry d k slot ST_OK
  | none => d

end Sys2Proof.Machine
end

