-- ==== Sys2Proof/Machine/Funcs.lean ====
section
/-!
DEFINITION. Setting and reading quotas (R431 to R438, R446) and the reset of a function (R442, R443).
-/

namespace Sys2Proof.Machine

/-! ## Lowerings that take time (R436) -/

/-- The ASIDs a function owns. -/
def asidsOf (d : Ix9) (f : Nat) : List Nat := (d.x.ctx.filter (fun (_, c) => c.v && c.owner == f)).map (·.1)

/-- A lowering of LM goes on: the function's ASIDs are invalidated as soon as the top unit can leave, then the units that
hold no live structure leave. -/
def lmLower (d : Ix9) (f : Nat) : Ix9 :=
  let fn := funcOf d f
  let n := (lmUnits d f).length
  if !fn.pend.contains rLM || quotaInvs d f then d
  else if fn.lmInv then updFunc (lmTrim n d f) f (fun fn => { fn with lmInv := false })
  else if n ≤ quotaLimit d f rLM || unitPinned d f (n - 1) then d
  else
    let d := updFunc d f (fun fn => { fn with lmInv := true })
    let as := asidsOf d f
    if as.isEmpty then updFunc (lmTrim n d f) f (fun fn => { fn with lmInv := false })
    else invSteps (as.foldl (fun d a => askInv d ⟨.quota f, 1, a, 0, 2 ^ 52, f⟩) d)

def lmSettle (d : Ix9) : Ix9 := d.funcs.foldl (fun d (f, _) => lmLower d f) d

/-- Channels that were taken away and are IDLE leave their function (R436). -/
def chanSettle (d : Ix9) : Ix9 :=
  d.funcs.foldl (fun d (f, fn) => fn.chanLeaving.foldl (fun d c =>
    if has d.stride c then d
    else updFunc (rset d Fld.STRIDE_CH_CFG_OWNER c noFunc) f (fun fn => { fn with chanLeaving := fn.chanLeaving.filter (· != c) })) d) d

/-- Everything that a lowering waits for, once more. -/
def lowerings (d : Ix9) : Ix9 := quotaSettle (lmSettle (chanSettle d))

/-! ## OP_QUOTA_SET and OP_QUOTA_GET -/

/-- Fields of OP_QUOTA_SET (R434). -/
def Entry.qsFunc (e : Entry) : Nat := e.object % 2 ^ 10
def Entry.qsRes (e : Entry) : Nat := e.oparg0
def Entry.qsSub (e : Entry) : Nat := e.oparg1 % 2 ^ 8
def Entry.qsVal (e : Entry) : Nat := e.operandAt 1 % 2 ^ 32
def Entry.qsFirst (e : Entry) : Nat := bits (e.operandAt 1) 12 0
def Entry.qsCount (e : Entry) : Nat := bits (e.operandAt 1) 28 16

/-- Order 2 of R435: RES, SUB and VALUE lie in range. -/
def quotaInRange (e : Entry) : Bool :=
  let r := e.qsRes
  1 ≤ r && r ≤ 14
    && (if r = rWEIGHT then 1 ≤ e.qsSub && e.qsSub ≤ 7 else if r = rCHAN then e.qsSub ≤ 1 else e.qsSub == 0)
    && (if r = rWEIGHT then 1 ≤ e.operandAt 1 % 256
        else if r = rMETER then e.qsFirst < 4096 && e.qsCount ≤ 4096 && e.qsFirst + e.qsCount ≤ 4096
        else if r = rPD then e.qsVal ≤ 4096
        else if r = rVECTOR then e.qsVal ≤ 2048
        else true)

/-- The channels of a half that a VALUE of RES 0x09 allots. -/
def chansIn (sub v : Nat) : List Nat := ((List.range 64).filter (fun i => flag v i)).map (fun i => 64 * sub + i)

/-- The channels that OP_QUOTA_SET allots. -/
def quotaChans (e : Entry) : List Nat := chansIn e.qsSub (e.operandAt 1)

/-- Order 4 of R435: what is to be allotted belongs to nobody else, and no enabled ingress binding names a meter of it. -/
def allotFree (d : Ix9) (e : Entry) : Bool :=
  let f := e.qsFunc
  if e.qsRes = rCHAN then
    (quotaChans e).all (fun c => let o := rget d Fld.STRIDE_CH_CFG_OWNER c; o == noFunc || o == f)
  else if e.qsRes = rMETER then
    d.funcs.all (fun (g, fn) => g == f || fn.meterFirst + fn.meterCount ≤ e.qsFirst || e.qsFirst + e.qsCount ≤ fn.meterFirst
                    || fn.meterCount == 0 || e.qsCount == 0)
      && (List.range 128).all (fun i => i % 8 == 0 || (match meterAt d (8192 + i) with
            | some m => m < e.qsFirst || e.qsFirst + e.qsCount ≤ m
            | none => true))
  else true

/-- The reservation a function would have (R436). -/
def newResv (d : Ix9) (e : Entry) : Nat :=
  let f := e.qsFunc
  let r := e.qsRes
  if r = rMETER then e.qsCount
  else if r = rCHAN then
    ((chansOf d f).filter (fun c => c / 64 != e.qsSub || (has d.stride c && !(quotaChans e).contains c))).length + (quotaChans e).length
  else if r = rLM then max e.qsVal (lmUnits d f).length + (quotaUse d f rLM - (lmUnits d f).length)
  else max e.qsVal (quotaUse d f r)

/-- Order 5 of R435, with R440: the increase fits the free amount; a raise under a negative one fails (DEDUCED, log entry 40). -/
def raiseFits (d : Ix9) (e : Entry) : Bool :=
  let r := e.qsRes
  let free := devFree d r
  let inc : Int := (newResv d e : Int) - (quotaResv d e.qsFunc r : Int)
  let raised := if r = rMETER then quotaLimit d e.qsFunc r < e.qsCount
    else if r = rCHAN then (quotaChans e).any (fun c => rget d Fld.STRIDE_CH_CFG_OWNER c != e.qsFunc)
    else quotaLimit d e.qsFunc r < e.qsVal
  r = rWEIGHT || r = rVECTOR || ((inc ≤ 0 || inc ≤ free) && !(raised && free < 0))

/-- The checks of R435: status, cause and RESULT of the first that fails. -/
def quotaCheck (d : Ix9) (s : Sq) (e : Entry) : Option (Nat × Nat × Nat) :=
  if !(s.admin && s.func = 0) then some (ST_BAD_ENTRY, 0xA0, 0)
  else if !funcExists e.qsFunc || !quotaInRange e then some (ST_BAD_ENTRY, 0xA2, 0)
  else if e.qsRes = rSEQ && quotaLimit d e.qsFunc rSEQ < e.qsVal && !present d uMARATHON then some (ST_UNIT_ABSENT, 0, 0)
  else if !allotFree d e then some (ST_QUOTA, 0x03, 0)
  else if !raiseFits d e then some (ST_QUOTA, 0x02, (devFree d e.qsRes % 2 ^ 32).toNat)
  else none

/-- Notes a lowering that is not complete. -/
def notePending (d : Ix9) (f r : Nat) : Ix9 :=
  if quotaPending d f r then updFunc d f (fun fn => { fn with pend := insertNat fn.pend r }) else d

/-- Gives function `f` a quota: RES, SUB and VALUE as OP_QUOTA_SET has them (R434, R436). -/
def quotaApply (d : Ix9) (f r sub v : Nat) : Ix9 :=
  if r = rCHAN then
    let mine := (chansOf d f).filter (fun c => c / 64 == sub)
    let keep := chansIn sub v
    let d := keep.foldl (fun d c => rset d Fld.STRIDE_CH_CFG_OWNER c f) d
    let gone := mine.filter (fun c => !keep.contains c)
    let d := updFunc d f (fun fn => { fn with chanLeaving := (fn.chanLeaving.filter (fun c => !keep.contains c)) ++
                                        gone.filter (fun c => !fn.chanLeaving.contains c) })
    notePending (chanSettle d) f rCHAN
  else if r = rMETER then updFunc d f (fun fn => { fn with meterFirst := bits v 12 0, meterCount := bits v 28 16 })
  else if r = rWEIGHT then updFunc d f (fun fn => { fn with weights := put fn.weights sub (v % 256) })
  else
    let n := v % 2 ^ 32
    let d := updFunc d f (fun fn => { fn with limit := put fn.limit r n })
    if r = rVECTOR then d
    else if r = rLM then lmLower (notePending (lmGrow (n - (lmUnits d f).length) d f) f rLM) f
    else notePending d f r

/-- OP_QUOTA_SET: a started entry (DEDUCED, log entry 40). -/
def opQuotaSet (d : Ix9) (k slot : Nat) : Ix9 :=
  match startedEntry d 0x65 k slot with
  | none => d
  | some (s, e) =>
    match quotaCheck d s e with
    | some (st, c, r) => endEntry d k slot st c 0 r
    | none =>
      let d := quotaApply d e.qsFunc e.qsRes e.qsSub (e.operandAt 1)
      let f := e.qsFunc
      let n (r : Nat) : Nat := if e.qsRes = rWEIGHT then 0 else r
      quotaSettle (endEntry d k slot ST_OK 0 0 (n (quotaLimit d f e.qsRes) + n (quotaUse d f e.qsRes) * 2 ^ 32))

/-- Record `r` of a function's quotas (R438). -/
def quotaRecord (d : Ix9) (f r : Nat) : List Byte :=
  if r = 0 || 14 < r then leBytes 16 0
  else if r = rWEIGHT then (List.range 16).map (fun n => BitVec.ofNat 8 (if 1 ≤ n && n ≤ 7 then funcWeight d f n else 0))
  else
    leBytes 4 (quotaLimit d f r % 2 ^ 32) ++ leBytes 4 (quotaUse d f r % 2 ^ 32) ++ leBytes 4 (devFree d r % 2 ^ 32).toNat
      ++ leBytes 4 ((if (funcOf d f).pend.contains r then 1 else 0) + (if r = rMETER then (funcOf d f).meterFirst * 2 ^ 16 else 0))

def quotaRecords (d : Ix9) (f : Nat) : List Byte := (List.range 16).flatMap (quotaRecord d f)

/-- OP_QUOTA_GET: a started entry (R431, R438). -/
def opQuotaGet (d : Ix9) (k slot : Nat) : Ix9 :=
  match startedEntry d 0x66 k slot with
  | none => d
  | some (s, e) =>
    let f := e.object % 2 ^ 10
    if !(s.admin && (s.func = 0 || (s.func ≤ 3 && parentPf f = s.func))) then endEntry d k slot ST_BAD_ENTRY 0xA1
    else if !funcExists f then endEntry d k slot ST_BAD_ENTRY 0xA2
    else
      let segs := e.segs
      let (d, poison) := writeSegs d segs (quotaRecords d f)
      let d := segs.foldl (fun d g => entryAck d k slot g.phys) d
      if poison then issuedEntry d k slot ST_DATA_POISON else issuedEntry d k slot ST_OK 0 256

/-! ## Function reset (R442) -/

/-- The function a waiting write was issued for. -/
def tokFunc (d : Ix9) : Tok → Option Nat
  | .entry k _ | .prefetch k _ | .errEvent k _ _ => (sqAt d k).map (·.func)
  | .rx n _ => some (connOf d n).owner
  | .event k _ => (look d.q.cqs k).map (·.func)
  | .msi k => (look d.q.eqs k).map (·.func)
  | .fault f | .pendingBit f | .func f => some f
  | .winInit => none
  | .desc c _ | .descBack c _ => some (rget d Fld.STRIDE_CH_CFG_OWNER c)
  | .heat key => (heatAt d key).bind (fun h => (look d.h.groups h.group).map (·.owner))
  | .inv id => (look d.x.invs id).map (·.func)
  | .exc _ => some fIF0

/-- Tokens that await an acknowledgement on any path. -/
def openToks (d : Ix9) : List Tok :=
  d.paths.flatMap (fun (_, s) => s.waiting ++ s.writing ++ s.port ++ s.reqs.flatMap (·.covers))

/-- Some write of the function awaits its acknowledgement. -/
def funcWrites (d : Ix9) (f : Nat) : Bool := (openToks d).any (fun t => tokFunc d t == some f)

/-- The function a Heat or local request runs for. -/
def heatFunc (d : Ix9) (h : Heat) : Option Nat :=
  match h.entry with
  | some (k, _) => (sqAt d k).map (·.func)
  | none => (look d.h.groups h.group).map (·.owner)

/-- Running Heats and local requests of a function. -/
def heatsOf (d : Ix9) (f : Nat) : List Nat := (d.h.heats.filter (fun (_, h) => !h.finished && heatFunc d h == some f)).map (·.1)

/-- A channel issues nothing further: what it wrote seeks its acknowledgements, and its state becomes IDLE (R403). -/
def chanQuiet (d : Ix9) (c : Nat) : Ix9 :=
  match look d.stride c with
  | none => d
  | some ch =>
    let ps := (ch.paths ++ ch.runs.flatMap (·.paths)).eraseDups
    chanReset (ps.foldl (fun d p => needDest d p (.desc c ch.nextK)) d) c

/-- A started entry of a function in reset issues nothing further: what it wrote seeks its acknowledgements. -/
def entryQuiet (d : Ix9) (k slot : Nat) : Ix9 :=
  match entryAt d k slot with
  | some e => if e.stage != .started || e.phase = haltPhase then d
    else seekAcks (updEntry d k slot (fun e => { e with phase := haltPhase })) k slot e.segs
  | none => d

/-- ABORTs of the function's Heats, then of its connections, which enter QUARANTINE (R152, R304). -/
def funcAborts (d : Ix9) (f : Nat) : Ix9 :=
  let d := (heatsOf d f).foldl (fun d key =>
    match heatAt d key with
    | none => d
    | some h => heatAbort d key ⟨ST_HEAT_ABORTED, 0x02, h.ep.bib, currentLap h, h.ep.bib, none, true⟩ none) d
  let mine := d.c.conns.filter (fun (_, c) => c.owner == f && c.state != csRESET && c.state != csQUARANTINE)
  let d := mine.foldl (fun d (n, c) => if csREADY_RX ≤ c.state && c.state ≤ csDRAIN then answer d n .abort else d) d
  mine.foldl (fun d (n, _) => toQuarantine d n true false) d

/-- The PCIe paths. -/
def pciePaths : List Path := .host :: (List.range 4).flatMap (fun n => [.accel n 0, .accel n 1])

/-- A destination acknowledgement is sought on every path that holds a write of the function without one (R70). -/
def funcAcks (d : Ix9) (f : Nat) : Ix9 :=
  (pciePaths.filter (fun p => (pathSt d p).funcs.contains f || (pathSt d p).reqs.any (fun r => r.funcs.contains f))).foldl
    (fun d p => needDest d p (.func f)) d

/-- Steps 1 to 3 of R442. -/
def funcResetBegin (d : Ix9) (f : Nat) : Ix9 :=
  if !funcExists f || (funcOf d f).resetting then d
  else
    let d := funcAborts (updFunc d f (fun fn => { fn with resetting := true })) f
    let chans := (d.stride.filter (fun (_, ch) => ch.func == f)).map (·.1)
    let d := chans.foldl chanQuiet d
    funcAcks (d.q.sqs.foldl (fun d (k, s) =>
      if s.func = f then (s.entries.filter (fun e => e.stage = .started)).foldl (fun d e => entryQuiet d k e.slot) d else d) d) f

/-- A mailbox channel is released: DATA and STATUS clear (R460, R462). -/
def mboxFree (d : Ix9) (c : Nat) : Ix9 :=
  let d := (List.range 16).foldl (fun d i => rset d Fld.MBOX_DATA (c * 16 + i) 0) d
  rrestore d (fun f i => i == c && [Fld.MBOX_CTRL_IRQ, Fld.MBOX_CTRL_TARGET, Fld.MBOX_STATUS_BUSY, Fld.MBOX_STATUS_DONE,
    Fld.MBOX_STATUS_DOMAIN_DOWN, Fld.MBOX_STATUS_TIMEOUT, Fld.MBOX_STATUS_CLAIMED, Fld.MBOX_STATUS_OWNER].any (fun g => g.id == f.id))

/-- The landing units of a function lose their contents: reads of a block give zeros at once (R378, R379). -/
def funcZero (d : Ix9) (f : Nat) : Ix9 :=
  if rflag d Fld.LM_FUNC_PERSIST f then d
  else
    (lmUnits d f).foldl (fun d u =>
      { lmZero d (u * unitBytes) unitBytes with
        lm := { (lmZero d (u * unitBytes) unitBytes).lm with
                blocks := (List.range 32).foldl (fun l i => insertNat l (u * 32 + i)) d.lm.blocks } }) d

/-- Drops the elements of a table that a predicate selects. -/
def dropIf {α : Type} (t : Tbl α) (p : Nat → α → Bool) : Tbl α := t.filter (fun (k, x) => !p k x)

/-- Queues, groups, sequence objects, PDs and fault state of a function are discarded; its windows enter quarantine
(step 5 of R442). -/
def funcDiscard (d : Ix9) (f : Nat) : Ix9 :=
  let d := { d with h := { d.h with heats := dropIf d.h.heats (fun _ h => heatFunc d h == some f) } }
  let invs := dropIf d.x.invs (fun _ (i : Inv) => match i.by_ with
    | .entry k _ => (sqAt d k).any (fun s => s.func == f)
    | _ => false)
  let d := { d with
    q := { d.q with sqs := dropIf d.q.sqs (fun _ s => s.func == f), cqs := dropIf d.q.cqs (fun _ c => c.func == f),
                    eqs := dropIf d.q.eqs (fun _ e => e.func == f) }
    h := { d.h with groups := dropIf d.h.groups (fun _ g => g.owner == f), seqs := dropIf d.h.seqs (fun _ s => s.owner == f) }
    c := { d.c with pds := dropIf d.c.pds (fun _ p => p.1 == f) }
    x := { d.x with fctx := upd d.x.fctx f (fun c => { c with fqV := false, prod := 0, cons := 0 }), invs := invs,
                    pri := d.x.pri.filter (fun (_, asid, _) => (ctxOf d asid).owner != f) } }
  let d := { d with c := { d.c with waiters := d.c.waiters.filter (fun (_, k, _) => has d.q.sqs k) } }
  let d := { d with h := { d.h with slots := d.h.slots.filter (fun (_, u) => has d.h.heats u.heat) } }
  let wins := d.x.wins.filter (fun (_, w) => w.v && w.owner == f)
  let d := wins.foldl (fun d (n, w) => setWin d n { w with v := false, quar := true, quarEnd := quarEndOf d }) d
  let d := if f = fIF0 then { d with io := { d.io with excTaken := 0 }, net := { d.net with txTimes := [] } } else d
  let chans := (List.range 64).filter (fun c => rflag d Fld.MBOX_STATUS_CLAIMED c && rget d Fld.MBOX_STATUS_OWNER c = f)
  let d := chans.foldl mboxFree d
  rrestore d (fun g i => g.dom = .func && (match g.place with
    | .func _ | .admin _ => i == f
    | .pfz _ => f == 0
    | .ifz _ => f == fIF0
    | _ => false))

/-- Functions whose reset precedes that of `f`, within one PCIe FLR of it: the VFs of a PF. -/
def vfsOf (f : Nat) : List Nat := if f ≤ 3 then (List.range 252).map (fun i => 0x010 + 252 * f + i) else []

/-- FUNC_RESET_DONE: steps 4 to 6 of R442; a reset whose writes still lack an acknowledgement goes on. -/
def funcResetDone (d : Ix9) (f : Nat) : Ix9 :=
  if !(funcOf d f).resetting || funcWrites d f then d
  else
    let d := updFunc (funcZero (funcDiscard d f) f) f (fun fn => { fn with resetting := false })
    let d := if rget d Fld.FUNC_RESET_ID = f then rset d Fld.FUNC_RESET_STATUS_BUSY 0 0 else d
    lowerings (runAllParked d)

/-- FUNC_RESET_GO: a write of FUNC_RESET with GO, for the function that ID names (R445). -/
def funcResetGo (d : Ix9) (id : Nat) : Ix9 :=
  if rflag d Fld.FUNC_RESET_STATUS_BUSY then d
  else
    let d := rset d Fld.FUNC_RESET_ID 0 id
    if !funcExists id then d
    else funcResetBegin (rset d Fld.FUNC_RESET_STATUS_BUSY 0 1) id

/-- PCIE_FLR: of a PF, its VFs first; IF0 has no FLR (R442, R449). -/
def pcieFlr (d : Ix9) (f : Nat) : Ix9 :=
  if f = fIF0 then d else (vfsOf f ++ [f]).foldl funcResetBegin d

/-- VF_ENABLE_CLEAR: the VFs of a PF are reset. -/
def vfEnableClear (d : Ix9) (pf : Nat) : Ix9 := (vfsOf pf).foldl funcResetBegin d

end Sys2Proof.Machine
end

