-- ==== Sys2Proof/Machine/Reset.lean ====
section
/-!
DEFINITION. Resets of a queue, an engine, a tile and the device (R13, R14, R483 to R488), escalation (R477 to R479), host
link loss (R489, R490) and tile evacuation (R497 to R499, R503).
-/

namespace Sys2Proof.Machine

/-! ## Queue, engine and tile resets (R483 to R486) -/

/-- Status of an entry that a reset ends (R485). -/
def resetStatus (x : Due) : Nat := if x.hang then ST_HANG_RECOVERED else ST_ENGINE_RESET

/-- CAUSE of an entry that a reset ends (R485). -/
def resetCause (x : Due) : Nat := if x.level = 1 then 0x00 else if x.level = 3 then 0x10 + x.engine else 0x20

/-- A queue is no longer paused; its FAULT_PENDING bit clears (R143, R503). -/
def unpause (d : Ix9) (k : Nat) : Ix9 :=
  match sqAt d k with
  | some s =>
    (match s.paused with
     | some (_, _, pend) =>
       let d := updSq d k (fun s => { s with paused := none })
       if pend then writePending d s.func k else d
     | none => d)
  | none => d

/-- The entries that a receive queue holds end (R485). -/
def endReceives (d : Ix9) (k : Nat) (st cause : Nat) : Ix9 :=
  match sqAt d k with
  | some s => (s.entries.filter (fun e => e.stage = .translating || e.stage = .ready)).foldl (fun d e => endEntry d k e.slot st cause) d
  | none => d

/-- Started entries of a queue. -/
def startedOf (s : Sq) : List Nat := (s.entries.filter (fun e => e.stage = .started)).map (·.slot)

/-- A Q reset: started entries stop, the others are flushed, the queue ends in error with CAUSE 0x05. -/
def queueReset (d : Ix9) (x : Due) : Ix9 :=
  match sqAt d x.target with
  | none => d
  | some s =>
    let k := x.target
    let run := startedOf s
    let d := unpause d k
    let d := run.foldl (fun d e => haltEntry d k e (resetStatus x) (resetCause x)) d
    let d := if s.isRq then endReceives d k (resetStatus x) (resetCause x) else d
    let d := queueError d k ST_QUEUE_ERROR 0x05 true
    { d with rcv := { d.rcv with resets := d.rcv.resets ++ [{ due := x, left := run.map (fun e => (k, e)) }] } }

/-- Engine 0: fetch state and the entries of the tile's queues that have not started. -/
def clearFetcher (d : Ix9) (t st cause : Nat) : Ix9 :=
  (d.q.sqs.filter (fun (_, s) => s.tile == t)).foldl (fun d (k, s) =>
    let d := updSq (unpause d k) k (fun s => { s with reread := none })
    if s.isRq then endReceives d k st cause
    else (s.entries.filter (fun e => e.stage = .translating || e.stage = .ready)).foldl (fun d e => failEntry d k e.slot st cause) d) d

/-- A started entry stops for a reset of its engine: what it wrote seeks its acknowledgements, then it ends. -/
def resetEntry (d : Ix9) (k slot st cause : Nat) : Ix9 :=
  if halted d k slot then d else issuedEntry (entryQuiet d k slot) k slot st cause

/-- Entries that hold a connection or wait for it: transport entries, modifies, destroys and creates. -/
def entriesOn (d : Ix9) (n : Nat) : List (Nat × Nat) :=
  let waits := (d.c.waiters.filter (fun w => w.1 == n)).map (·.2)
  (startedOn d n ++ waits ++ (connOf d n).waiter).eraseDups

/-- Engines 1 and 5: connections homed on the tile are discarded (R153), the miss buffer, keys and held buffer clear.
Gives the entries that ended. -/
def clearTransport (d : Ix9) (t st cause : Nat) : Ix9 × List (Nat × Nat) :=
  let mine := (d.c.conns.filter (fun (n, c) => homeTile d n == t && c.state != csRESET)).map (·.1)
  let es := mine.flatMap (entriesOn d)
  let d := es.foldl (fun d (k, s) => resetEntry d k s st cause) d
  let d := mine.foldl (fun d n => toQuarantine d n true true) d
  let d := { d with c := { d.c with parked := d.c.parked.filter (fun p => p.tile != t),
                                    waiters := d.c.waiters.filter (fun w => !mine.contains w.1),
                                    fillq := d.c.fillq.filter (fun n => !mine.contains n) }
                    ciph := { d.ciph with keys := drop d.ciph.keys t, fetching := d.ciph.fetching.filter (fun f => f.1 != t) } }
  (rset d Fld.CIPH_HELD_BYTES t 0, es)

/-- A message of an engine on a connection is cut off: one begun and not sent whole takes the connection to ERROR (R486). -/
def cutMessage (d : Ix9) (org : Origin) : Ix9 :=
  d.c.conns.foldl (fun d (n, c) =>
    match c.txMsgs.find? (fun m => m.org == org) with
    | none => d
    | some m =>
      let begun := m.sent != 0 || m.allSent || c.txOut.any (fun t => t.org == org)
      let whole := sentWhole c org
      let d := updConn d n (fun c => if whole then orphan c org else { c with txMsgs := c.txMsgs.filter (fun m => m.org != org) })
      if begun && !whole then enterError d n 3 none true else d) d

/-- Engine 2: the tile's channels become IDLE (R403), their registers take their reset values. Gives the entries. -/
def clearStride (d : Ix9) (t st cause : Nat) : Ix9 × List (Nat × Nat) :=
  let mine := d.stride.filter (fun (c, _) => chanTile d c == t)
  let d := mine.foldl (fun d (c, ch) =>
    let ps := (ch.paths ++ ch.runs.flatMap (·.paths)).eraseDups
    let d := cutMessage d (.stride c)
    let d := updEntry d ch.sq ch.slot (fun e => { e with phase := haltPhase })
    let d := ps.foldl (fun d p => needDest (updEntry d ch.sq ch.slot (fun e => { e with acks := e.acks + 1 })) p (.entry ch.sq ch.slot)) d
    issuedEntry (chanReset d c) ch.sq ch.slot st cause) d
  (rrestore d (fun f i => f.dom = .engine && chanTile d i = t), mine.map (fun (_, ch) => (ch.sq, ch.slot)))

/-- Heats are dropped without a message; their entries end. -/
def dropHeats (d : Ix9) (sel : Nat → Heat → Bool) (st cause : Nat) : Ix9 × List (Nat × Nat) :=
  let mine := d.h.heats.filter (fun (k, h) => sel k h)
  let es := mine.filterMap (fun (_, h) => if h.finished then none else h.entry)
  let d := es.foldl (fun d (k, s) => resetEntry d k s st cause) d
  let d := { d with h := { d.h with heats := dropIf d.h.heats sel,
                                    slots := d.h.slots.filter (fun (_, u) => !mine.any (fun m => m.1 == u.heat)) } }
  (destroyWaits d, es)

/-- What a reset of an engine clears (R483); gives the entries that it ends. -/
def clearEngine (d : Ix9) (t engine st cause : Nat) : Ix9 × List (Nat × Nat) :=
  match engine with
  | 0 => (clearFetcher d t st cause, [])
  | 1 | 5 => clearTransport d t st cause
  | 2 => clearStride d t st cause
  | 3 => dropHeats d (fun k h => k < localBase && h.tile == t && h.att.isNone) st cause
  | 4 =>
    let (d, es) := dropHeats d (fun _ h => h.att.isSome && !h.finished) st cause
    ({ d with h := { d.h with seqs := dropIf d.h.seqs (fun _ s => s.tile == t) } }, es)
  | 6 => (rset d Fld.SVC_STATUS_RUNNING 0 (setBits (rget d Fld.SVC_STATUS_RUNNING) (8 * t + 7) (8 * t) 0), [])
  | _ => (d, [])

/-- Engines that reset together, and the islands that count as not ready meanwhile (R483). -/
def enginesOf (x : Due) : List Nat :=
  if x.level = 4 then [4, 3, 2, 1, 0, 6] else if x.engine = 1 || x.engine = 5 then [1] else [x.engine]

def islandsOf (d : Ix9) (x : Due) : List Nat :=
  (if x.level = 4 then tileIslands x.tile
   else if x.engine = 1 || x.engine = 5 then [iXPORT x.tile, iCIPH x.tile] else [engineIsland x.tile x.engine]).filter
    (fun i => (fittedIslands d.code).contains i && !d.off.contains i)

/-- An E or T reset begins. A T reset restores every field of the tile (R14), and takes over what runs on it (R477). -/
def engineReset (d : Ix9) (x : Due) : Ix9 :=
  let isl := islandsOf d x
  let d := { d with ready := d.ready.filter (fun i => !isl.contains i) }
  let (d, es) := (enginesOf x).foldl (fun (d, es) e =>
    let (d, l) := clearEngine d x.tile e (resetStatus x) (resetCause x)
    (d, es ++ l)) (d, [])
  let d := if x.level = 4 then
      rrestore { d with rcv := { d.rcv with resets := d.rcv.resets.filter (fun r => !(r.due.level = 3 && r.due.tile == x.tile)) } }
        (fun f i => f.dom = .tile && i == x.tile)
    else d
  { d with rcv := { d.rcv with resets := d.rcv.resets ++ [{ due := x, left := es }] } }

/-! ## Warm and cold reset (R484, R487) -/

/-- Islands that a warm reset leaves running (R16, R20). -/
def keepsWarm (i : Nat) : Bool := 1 ≤ i && i ≤ 6

/-- An accelerator reset pin of a root port follows its island (R570). -/
def accPins (d : Ix9) : Ix9 :=
  (List.range 4).foldl (fun d n =>
    let high := unitReady d (uACCEL n) && !rflag d Fld.ACC_PORT_STATUS_EP n
    let stays := d.pins.accPerst.contains n && islandReady d (8 + n) && !rflag d Fld.ACC_PORT_STATUS_EP n
    if high && !d.pins.accPerst.contains n then
      emit { d with pins := { d.pins with accPerst := insertNat d.pins.accPerst n } } (.pin (.accPerstN n) true)
    else if !high && !stays && d.pins.accPerst.contains n then
      emit { d with pins := { d.pins with accPerst := d.pins.accPerst.filter (· != n) } } (.pin (.accPerstN n) false)
    else d) d

/-- The function's state that a warm reset leaves: quotas, allotments and weights (R439). -/
def Func.warm (f : Func) : Func :=
  { limit := f.limit, pend := f.pend, meterFirst := f.meterFirst, meterCount := f.meterCount, weights := f.weights,
    chanLeaving := f.chanLeaving }

/-- Landing units without PERSIST are zeroed (R378). -/
def warmZero (d : Ix9) : Ix9 := d.lm.maps.foldl (fun d (f, _) => funcZero d f) d

/-- R503: an evacuation that a warm reset meets completes. -/
def evacByWarm (d : Ix9) : Ix9 :=
  match d.rcv.evac with
  | none => d
  | some v =>
    let d := v.blocks.foldl (fun d b => rset (rset d Fld.CONN_STEER_HOME b v.dst) Fld.CONN_STEER_MOVING b 0) d
    let d := { d with rcv := { d.rcv with evac := none } }
    if v.back then
      { d with off := d.off.filter (fun i => !(tileIslands v.dst).contains i),
               regs := (rset d Fld.EVAC_STATUS_EVACUATED 0 (setBit (rget d Fld.EVAC_STATUS_EVACUATED) v.dst false)).regs }
    else
      capacityEvent { d with off := (tileIslands v.src).foldl insertNat d.off,
                             regs := (rset d Fld.EVAC_STATUS_EVACUATED 0 (setBit (rget d Fld.EVAC_STATUS_EVACUATED) v.src true)).regs } rPIN

/-- What every island outside the Track domain loses in a warm reset: the objects of every function, links on PCIe, keys,
the translation state, the service cores. Connection numbers that were live are in QUARANTINE (R153). -/
def warmState (d : Ix9) : Ix9 :=
  let live := (d.c.conns.filter (fun (_, c) => c.state != csRESET)).map (·.1)
  let d := live.foldl (fun d n => toQuarantine d n true true) d
  let chans := d.stride.map (·.1)
  let d := chans.foldl chanReset d
  let d := warmZero d
  { d with
    q := { pf0Waiting := [] }
    x := {}
    c := { conns := d.c.conns, incarn := d.c.incarn }
    h := {}
    stride := []
    paths := []
    ciph := { drk := d.ciph.drk }
    funcs := d.funcs.map (fun (f, fn) => (f, fn.warm))
    net := { d.net with arrived := [], toTile := [] }
    mon := {}
    io := {} }

/-- A warm reset: steps 1 and 2 of R487. The management island reloads from the boot slot; with `hold` it waits for
PERST_N. -/
def warmReset (d : Ix9) (last : Nat) (hold : Bool) : Ix9 :=
  let d := evacByWarm d
  let downs := (List.range 10).filter (fun i => rflag d Fld.PCIE_LINK_STATUS_DL_UP i)
  let d := downs.foldl (fun d i => count d Fld.PCIE_LINK_DOWNS i) d
  let d := warmState d
  let d := rrestore d (fun f _ => f.dom.rank ≤ Dom.warm.rank)
  let d := rset (rset d Fld.FW_STATUS_ACTIVATING 0 0) Fld.FUNC_RESET_STATUS_BUSY 0 0
  let d := { d with ready := d.ready.filter keepsWarm
                    boot := { d.boot with stage := if hold then 0 else 1, warm := true, hold := hold, failed := [], activate := none,
                                          svcWait := false, standby := 0, wake := none }
                    rcv := { d.rcv with due := [], resets := [], evac := none } }
  accPins (rset d Fld.RESET_STATUS_LAST 0 last)

/-- A cold reset: everything but fuses and flash (R484); the pins' levels outside are as they are. With the rails good the
ROM starts again. -/
def coldReset (d : Ix9) (last : Nat) : Ix9 :=
  let c : Ix9 := { code := d.code, nvm := d.nvm, ciph := { drk := d.ciph.drk }, el := d.el, freeCtr := d.freeCtr, out := d.out,
                   zap := [(0, 2 ^ 64)],
                   boot := { pwrOk := d.boot.pwrOk, perstLow := d.boot.perstLow, stage := if d.boot.pwrOk then 1 else 0,
                             strapEp := d.boot.strapEp, strapBif := d.boot.strapBif } }
  let c := (List.range 4).foldl (fun c n => rset (rset c Fld.ACC_PORT_STATUS_EP n (bit c.boot.strapEp n)) Fld.ACC_PORT_STATUS_BIF n
    (bit c.boot.strapBif n)) c
  let c := d.pins.accPerst.foldl (fun c n => emit c (.pin (.accPerstN n) false)) c
  let c := if d.pins.wakeN then c else emit c (.pin .wakeN true)
  let c := if d.pins.stbyN then c else emit c (.pin .pwrStbyN true)
  let c := if d.pins.thermN then c else emit c (.pin .thermtripN true)
  rset c Fld.RESET_STATUS_LAST 0 last

/-- The fatal state (R479): every island outside the Track domain is held in reset. -/
def fatalStop (d : Ix9) : Ix9 :=
  let d := rset (warmReset d (rget d Fld.RESET_STATUS_LAST) true) Fld.RESET_STATUS_FATAL 0 1
  { d with boot := { d.boot with hold := false } }

/-- No reset but a cold one can start: the fatal state, a thermal trip, or no power (R479, R503, R519). -/
def onlyCold (d : Ix9) : Bool :=
  rflag d Fld.RESET_STATUS_FATAL || rflag d Fld.PWR_STATUS_TRIPPED || !d.boot.pwrOk || d.boot.standby = 3

/-- A reset that runs covers another one (R477). -/
def covers (d : Ix9) (a b : Due) : Bool :=
  (a.level == b.level && a.tile == b.tile && a.engine == b.engine && a.target == b.target)
    || (a.level == 4 && b.level == 3 && a.tile == b.tile)
    || (a.level == 3 && b.level == 3 && a.tile == b.tile && (a.engine == 1 || a.engine == 5) && (b.engine == 1 || b.engine == 5))
    || (a.level == 4 && b.level == 1 && (sqAt d b.target).any (fun s => s.tile == a.tile))

/-- Begins a reset that was asked for; a warm reset has its outcome by R487, one of level C by R479. -/
def beginReset (d : Ix9) (x : Due) : Ix9 :=
  if x.level = 6 then
    if x.last != 4 || rflag d Fld.RESET_CFG_AUTO_COLD then coldReset d x.last
    else if onlyCold d then d else fatalStop d
  else if onlyCold d || d.boot.stage < 2 || d.rcv.resets.any (fun r => covers d r.due x) then
    (if x.level = 5 && !onlyCold d && d.boot.stage = 1 then warmReset d x.last false else d)
  else
    match x.level with
    | 1 => queueReset d x
    | 2 => funcResetBegin d x.target
    | 3 | 4 => if x.tile < tilesOf d.code && !d.off.contains (iXPORT x.tile) && x.engine ≤ 7 then engineReset d x else d
    | 5 => warmReset d x.last false
    | _ => d

/-- A reset that needs the firmware waits while an image is activated (R496, R503). -/
def waitsFirmware (d : Ix9) (x : Due) : Bool := x.level = 5 && rflag d Fld.FW_STATUS_ACTIVATING

/-- Begins the resets that were asked for and may begin; the widest of them takes over. -/
def beginResets (d : Ix9) : Ix9 :=
  let now := d.rcv.due.filter (fun x => !waitsFirmware d x)
  let d := { d with rcv := { d.rcv with due := d.rcv.due.filter (waitsFirmware d) } }
  match now.find? (fun x => x.level = 6), now.find? (fun x => x.level = 5) with
  | some x, _ => beginReset d x
  | none, some x => beginReset d x
  | none, none => now.foldl beginReset d

/-- The entry still lacks an acknowledgement. -/
def stillRuns (d : Ix9) (e : Nat × Nat) : Bool := (entryAt d e.1 e.2).any (fun x => x.stage = .started)

/-- RESET_DONE: the writes of a Q, E or T reset are acknowledged; its islands are ready again, and its connection numbers
stay in QUARANTINE from now (R153, R485). -/
def resetDone (d : Ix9) (level tile engine target : Nat) : Ix9 :=
  match d.rcv.resets.find? (fun r => r.due.level == level && (if level = 1 then r.due.target == target else r.due.tile == tile
      && (level == 4 || r.due.engine == engine))) with
  | none => d
  | some r =>
    if r.left.any (stillRuns d) then d
    else
      let rest := d.rcv.resets.filter (fun o => o != r)
      let d := { d with rcv := { d.rcv with resets := rest } }
      if level = 1 then d
      else
        let held := rest.flatMap (fun o => if o.due.level = 3 || o.due.level = 4 then islandsOf d o.due else [])
        let up := (islandsOf d r.due).filter (fun i => !held.contains i)
        let d := { d with ready := up.foldl insertNat d.ready }
        let d := if up.contains (iXPORT tile) then
            { d with c := { d.c with conns := d.c.conns.map (fun (n, c) =>
                if homeTile d n == tile && c.state == csQUARANTINE && c.discarded
                then (n, { c with quarEnd := d.now + rget d Fld.CONN_QUARANTINE * 10 ^ 6 }) else (n, c)) } }
          else d
        let d := if up.contains (iSVC tile) && rflag d Fld.SVC_STATUS_IMAGE_OK then
            rset d Fld.SVC_STATUS_RUNNING 0 (setBits (rget d Fld.SVC_STATUS_RUNNING) (8 * tile + 7) (8 * tile) 255)
          else d
        lowerings (retryWaiters (retryFills d))

/-- RESET_BOUND_EXPIRY: a reset has not reported done within its bound; the next wider level applies (R478). -/
def resetBound (d : Ix9) (level tile engine target : Nat) : Ix9 :=
  if level = 2 then
    if !(funcOf d target).resetting then d else escalate d 0x06 0 { level := 2, target := target }
  else if level = 5 then
    if d.boot.warm && d.boot.stage != 0 && (readyMap d) != unitsOf d.code then escalate d 0x06 0 { level := 5 } else d
  else
    match d.rcv.resets.find? (fun r => r.due.level == level && (if level = 1 then r.due.target == target else r.due.tile == tile
        && (level == 4 || r.due.engine == engine))) with
    | none => d
    | some r => escalate { d with rcv := { d.rcv with resets := d.rcv.resets.filter (fun o => o != r) } } 0x06 r.due.code r.due

/-! ## Commands that ask for a reset (R504) -/

/-- ENG_RESET_GO: a write of ENG_RESET with GO. -/
def engResetGo (d : Ix9) (tile engine : Nat) : Ix9 :=
  let d := rset (rset d Fld.ENG_RESET_TILE 0 tile) Fld.ENG_RESET_ENGINE 0 engine
  let t := tile % 4
  let e := engine % 8
  askReset d { level := if e = 7 then 4 else 3, tile := t, engine := e }

/-- QUEUE_RESET_GO: a write of QUEUE_RESET with GO. -/
def queueResetGo (d : Ix9) (sq : Nat) : Ix9 :=
  let d := rset d Fld.QUEUE_RESET_SQ_ID 0 sq
  askReset d { level := 1, tile := ((sqAt d (sq % 65536)).map (·.tile)).getD 0, target := sq % 65536 }

/-- RESET_CTRL_WARM and RESET_CTRL_COLD: a write of RESET_CTRL with the key. -/
def resetCtrl (d : Ix9) (cold : Bool) (key : Nat) : Ix9 :=
  if key != 0xC0DE then d else askReset d { level := if cold then 6 else 5, last := if cold then 1 else 2 }

/-! ## Host link loss (R489, R490, R549) -/

/-- HOST_UP changes: IF0 gets a message on HOST_STATUS.VECTOR. -/
def hostUp (d : Ix9) (up : Bool) : Ix9 :=
  if rflag d Fld.HOST_STATUS_HOST_UP = up then d
  else msixSend (rset d Fld.HOST_STATUS_HOST_UP 0 (b2n up)) fIF0 (rget d Fld.HOST_STATUS_VECTOR)

/-- Functions that exist and hold something, the PFs and IF0 among them. -/
def usedFuncs (d : Ix9) : List Nat :=
  let used := (d.q.sqs.map (fun x => x.2.func)) ++ (d.q.cqs.map (fun x => x.2.func)) ++ d.q.eqs.map (fun x => x.2.func)
    ++ d.c.conns.map (fun x => x.2.owner) ++ d.c.pds.map (fun x => x.2.1) ++ d.x.wins.map (fun x => x.2.owner)
    ++ d.funcs.map (·.1) ++ d.h.groups.map (fun x => x.2.owner) ++ d.h.seqs.map (fun x => x.2.owner) ++ [0, 1, 2, 3, fIF0]
    ++ ((List.range 64).filter (fun c => rflag d Fld.MBOX_STATUS_CLAIMED c)).map (fun c => rget d Fld.MBOX_STATUS_OWNER c)
  used.eraseDups.filter funcExists

/-- Host link loss: the record, the resets of every PF and VF, the VFs first, and IF0's notice (DEDUCED, log entry 45). -/
def hostLoss (d : Ix9) (linkDown : Bool) : Ix9 :=
  let d := errorAt d { unit := uHOST, code := 0x08, level := 2, island := 7 } none
  let d := if linkDown && rflag d Fld.PCIE_LINK_STATUS_DL_UP 0 then
      count (rset d Fld.PCIE_LINK_STATUS_DL_UP 0 0) Fld.PCIE_LINK_DOWNS 0
    else d
  let fs := (usedFuncs d).filter (· != fIF0)
  let d := (fs.filter isVf ++ fs.filter (fun f => !isVf f)).foldl funcResetBegin d
  hostUp d false

/-- HOST_DL_DOWN: the data link layer has been down for 1 ms. -/
def hostDlDown (d : Ix9) : Ix9 := if islandReady d 7 && rflag d Fld.PCIE_LINK_STATUS_DL_UP 0 then hostLoss d true else d

/-- HOST_HOT_RESET: Hot Reset or Link Disable on the host port. -/
def hostHotReset (d : Ix9) : Ix9 := hostDlDown d

/-- A write of HOST_HB restarts the heartbeat window, whatever its value (R489, R507). -/
def hostHb (d : Ix9) : Ix9 := { d with rcv := { d.rcv with hbAt := d.el } }

/-- HB_WINDOW_EXPIRY: HB_WINDOW ms without a write of HOST_HB (DEDUCED, log entry 45). -/
def hbExpiry (d : Ix9) : Ix9 :=
  if rget d Fld.HOSTLL_CFG_HB_WINDOW != 0 && islandReady d 7 && rflag d Fld.HOST_STATUS_HOST_UP then hostLoss d false else d

/-- HOST_LINK_RETURN: the host link is up (again), with its speed, width and Flit mode. -/
def hostReturn (d : Ix9) (speed width : Nat) (flit : Bool) : Ix9 :=
  if !islandReady d 7 || d.boot.perstLow then d
  else
    let d := rset (rset (rset (rset d Fld.PCIE_LINK_STATUS_DL_UP 0 1) Fld.PCIE_LINK_STATUS_SPEED 0 speed)
      Fld.PCIE_LINK_STATUS_WIDTH 0 width) Fld.PCIE_LINK_STATUS_FLIT 0 (b2n flit)
    hostUp d true

/-- PERST_N_ASSERT: a warm reset that holds while PERST_N is low, or host link loss; nothing in the fatal state, a trip or
standby (R489, R503, R581). -/
def perstAssert (d : Ix9) : Ix9 :=
  let d := { d with boot := { d.boot with perstLow := true } }
  if onlyCold d then d
  else if !rflag d Fld.RESET_CFG_PERST_WARM then (if islandReady d 7 then hostLoss d true else d)
  else warmReset d 3 true

/-- PERST_N_DEASSERT: a warm reset that PERST_N held goes on from step 3. -/
def perstDeassert (d : Ix9) : Ix9 :=
  let d := { d with boot := { d.boot with perstLow := false } }
  if d.boot.hold then { d with boot := { d.boot with hold := false, stage := 1 } } else d

/-! ## Tile evacuation (R497 to R499) -/

/-- Something that was started on the tile still runs. -/
def tileBusy (d : Ix9) (t : Nat) : Bool :=
  d.q.sqs.any (fun (_, s) => s.tile == t && !(startedOf s).isEmpty)
    || d.h.heats.any (fun (_, h) => h.tile == t && !h.finished)
    || d.stride.any (fun (c, _) => chanTile d c == t)

def setEvac (d : Ix9) (v : Option Evac) : Ix9 := { d with rcv := { d.rcv with evac := v } }

/-- Blocks that an evacuation or return moves, in ascending order: those homed on `src`; on a return those whose origin is
the tile that returns. -/
def evacBlocks (d : Ix9) (v : Evac) : List Nat :=
  (homeBlocks d v.src).filter (fun b => !v.back || resetHome d.code b == v.dst)

/-- Pinned entries of a tile. -/
def pinsOn (d : Ix9) (t : Nat) : Nat := (d.c.place.filter (fun (n, p) => p == .pinned && homeTile d n == t)).length

/-- CAUSE of R498; none where the evacuation or return may start. -/
def evacCause (d : Ix9) (src dst : Nat) (back : Bool) : Option Nat :=
  let fitted (t : Nat) : Bool := t < tilesOf d.code
  if !fitted src || !fitted dst || src = dst then some 0x01
  else if !unitReady d (uTILE dst) || flag (rget d Fld.EVAC_STATUS_EVACUATED) dst then some 0x02
  else if !back && 4096 < pinsOn d src + pinsOn d dst then some 0x03
  else if d.rcv.evac.isSome then some 0x04
  else if back && !flag (rget d Fld.EVAC_STATUS_EVACUATED) src then some 0x05
  else none

/-- Steps 4 and 5 of R497: the queues move with their accepted entries, and the source is powered down, but on a return. -/
def evacFinish (d : Ix9) (v : Evac) : Ix9 :=
  let qs := (d.q.sqs.filter (fun (_, s) => s.tile == v.src && (!v.back || s.origin == v.dst))).map (·.1)
  let d := setEvac d none
  let d := qs.foldl (fun d k =>
    let d := updSq d k (fun s => { s with tile := v.dst })
    match sqAt d k with
    | none => d
    | some s => (s.entries.filter (fun e => e.stage = .translating || (e.stage = .ready && e.status = 0))).foldl (fun d e =>
        entryTry (updEntry d k e.slot (fun e => { e with stage := .translating, wait := none })) k e.slot) d) d
  let d := rset d Fld.EVAC_STATUS_BUSY 0 0
  if v.back then d
  else
    let isl := tileIslands v.src
    let d := { d with ready := d.ready.filter (fun i => !isl.contains i), off := isl.foldl insertNat d.off }
    let d := rset d Fld.SVC_STATUS_RUNNING 0 (setBits (rget d Fld.SVC_STATUS_RUNNING) (8 * v.src + 7) (8 * v.src) 0)
    capacityEvent (rset d Fld.EVAC_STATUS_EVACUATED 0 (setBit (rget d Fld.EVAC_STATUS_EVACUATED) v.src true)) rPIN

/-- The next block begins to move (step 3), or the last steps follow. -/
def evacNext (d : Ix9) (v : Evac) : Ix9 :=
  match v.blocks with
  | b :: _ => setEvac (rset d Fld.CONN_STEER_MOVING b 1) (some { v with drained := true, moving := some b })
  | [] => evacFinish d v

/-- Step 2 is over once nothing runs on the source. A return needs no drain; its tile must be ready, and EVACUATED clears
(R440, R499). -/
def evacSettle (d : Ix9) : Ix9 :=
  match d.rcv.evac with
  | none => d
  | some v =>
    if v.drained then d
    else if v.back then
      (if unitReady d (uTILE v.dst) then
         let d := capacityEvent (rset d Fld.EVAC_STATUS_EVACUATED 0 (setBit (rget d Fld.EVAC_STATUS_EVACUATED) v.dst false)) rPIN
         evacNext d { v with blocks := evacBlocks d v }
       else d)
    else if tileBusy d v.src then d
    else evacNext d { v with blocks := evacBlocks d v }

/-- EVAC_GO_EVACUATE and EVAC_GO_RETURN: a write of EVAC_CTRL with GO. A return exchanges the roles: it moves from DST back
to SRC, whose islands are powered up and reset as a tile. -/
def evacGo (d : Ix9) (src dst : Nat) (back : Bool) : Ix9 :=
  let d := rset (rset (rset d Fld.EVAC_CTRL_SRC 0 src) Fld.EVAC_CTRL_DST 0 dst) Fld.EVAC_CTRL_MODE 0 (b2n back)
  let src := src % 4
  let dst := dst % 4
  match evacCause d src dst back with
  | some c => rset (rset d Fld.EVAC_STATUS_ERR 0 1) Fld.EVAC_STATUS_CAUSE 0 c
  | none =>
    let d := rset d Fld.EVAC_STATUS_BUSY 0 1
    if back then
      let d := { d with off := d.off.filter (fun i => !(tileIslands src).contains i) }
      engineReset (setEvac d (some { src := dst, dst := src, back := true })) { level := 4, tile := src, engine := 7 }
    else evacSettle (setEvac d (some { src := src, dst := dst, back := false }))

/-- EVAC_DRAIN_EXPIRY: what still runs on the source ends as by a reset of its engine, Heats abort as origin. -/
def evacDrain (d : Ix9) : Ix9 :=
  match d.rcv.evac with
  | none => d
  | some v =>
    if v.back || v.drained then d
    else
      let t := v.src
      let d := (d.h.heats.filter (fun (k, h) => k < localBase && h.tile == t && !h.finished)).foldl (fun d (k, h) =>
        heatOrigin d k ST_HEAT_ABORTED 0x0A h.ep.bib) d
      let (d, _) := dropHeats d (fun k h => localBase ≤ k && h.tile == t && !h.finished) ST_ENGINE_RESET 0x14
      let (d, _) := clearStride d t ST_ENGINE_RESET 0x12
      let left := (d.q.sqs.filter (fun (_, s) => s.tile == t)).flatMap (fun (k, s) => (startedOf s).map (fun e => (k, e)))
      let d := (left.filter (fun e => (heatOfEntry d e.1 e.2).isNone)).foldl (fun d (k, e) => haltEntry d k e ST_ENGINE_RESET 0x11) d
      evacSettle d

/-- EVAC_BLOCK_MOVED: the block's connections are spilled, its steering entry names the new home, pinned connections are in
the new tile's pinned array; the next block or step follows. -/
def evacMoved (d : Ix9) : Ix9 :=
  match d.rcv.evac with
  | none => d
  | some v =>
    match v.moving, v.blocks with
    | some b, _ :: rest =>
      let mine := (d.c.place.filter (fun (n, p) => n / 65536 == b && p != .pinned)).map (·.1)
      let pins := (d.c.place.filter (fun (n, p) => n / 65536 == b && p == .pinned)).map (·.1)
      let d := (mine ++ pins).foldl writeSpill d
      let d := mine.foldl (fun d n => setPlace d n .spilled) d
      let d := rset (rset d Fld.CONN_STEER_HOME b v.dst) Fld.CONN_STEER_MOVING b 0
      let d := pins.foldl (fun d n => emit (count d Fld.CONN_MISSES v.dst) (.fill n (spillLanding d) (spillAddr d n))) d
      let d := { d with c := { d.c with parked := d.c.parked.map (fun p => if p.conn / 65536 == b then { p with tile := v.dst } else p) } }
      let d := (mine.filter (fun n => !(parkedOf d n).isEmpty)).foldl startFill d
      retryWaiters (retryFills (evacNext d { v with blocks := rest, moving := none }))
    | _, _ => d

end Sys2Proof.Machine
end

