-- ==== Sys2Proof/Machine/Service.lean ====
section
/-!
DEFINITION. Mailboxes and the firmware's commands (R458 to R464, R493 to R496, R407), the restart of the management island
(R457), the service cores (R450 to R453) and the exception path's transmit ring (R454, R456).
-/

namespace Sys2Proof.Machine

/-! ## Mailboxes (R458 to R462) -/

/-- A function may reach a channel: channels 32 to 63 are PF0's, and the registers lie in the HOSTPORT island. -/
def mboxReach (d : Ix9) (f c : Nat) : Bool := islandReady d 7 && funcExists f && (c < 32 || (c < 64 && f = 0))

def mboxOwner (d : Ix9) (c : Nat) : Nat := rget d Fld.MBOX_STATUS_OWNER c
def mboxBusy (d : Ix9) (c : Nat) : Bool := rflag d Fld.MBOX_STATUS_BUSY c
def mboxTarget (d : Ix9) (c : Nat) : Nat := rget d Fld.MBOX_CTRL_TARGET c

/-- Type 0x06 event of a channel at a function's admin event queue (R460). -/
def mboxEvent (d : Ix9) (f c data : Nat) : Ix9 :=
  if f = 0 then pf0Event d EV_MAILBOX c data
  else if has d.q.eqs (adminKey f) then eqRaise d (adminKey f) ⟨EV_MAILBOX, c, data⟩
  else d

/-- The owner's event, when IRQ is set (DEDUCED, log entry 42). -/
def mboxNotify (d : Ix9) (c data : Nat) : Ix9 := if rflag d Fld.MBOX_CTRL_IRQ c then mboxEvent d (mboxOwner d c) c data else d

def mboxClear (d : Ix9) (c : Nat) : Ix9 := (List.range 16).foldl (fun d i => rset d Fld.MBOX_DATA (c * 16 + i) 0) d

/-- The target of a request is ready (R461). -/
def mboxReady (d : Ix9) (target : Nat) : Bool :=
  if target = 0 then unitReady d uMGMT
  else if target = 1 then unitReady d uSVC
  else rflag d Fld.PCIE_LINK_STATUS_DL_UP 0 && !(funcOf d 0).resetting

/-- The request is abandoned with DOMAIN_DOWN (R461). -/
def mboxDown (d : Ix9) (c : Nat) : Ix9 :=
  mboxNotify (mboxClear (rset (rset d Fld.MBOX_STATUS_BUSY c 0) Fld.MBOX_STATUS_DOMAIN_DOWN c 1) c) c 4

/-- The request is answered: BUSY clears, DONE sets (R460). -/
def mboxFinish (d : Ix9) (c : Nat) : Ix9 := mboxNotify (rset (rset d Fld.MBOX_STATUS_BUSY c 0) Fld.MBOX_STATUS_DONE c 1) c 1

/-- A request starts. While an image is activated the hardware answers for the firmware (R495) (DEDUCED, log entry 42). -/
def mboxStart (d : Ix9) (c : Nat) : Ix9 :=
  let t := mboxTarget d c
  if t = 3 || (32 ≤ c && t != 0) || (t = 2 && mboxOwner d c != fIF0) || !mboxReady d t then mboxDown d c
  else
    let d := rset d Fld.MBOX_STATUS_BUSY c 1
    if t = 0 then (if rflag d Fld.FW_STATUS_ACTIVATING then mboxFinish (rset d Fld.MBOX_DATA (c * 16) 0xFFFFFFFC) c else d)
    else mboxEvent d (if t = 1 then fIF0 else 0) c 2

/-- A free channel is claimed by its first writer (R459). -/
def mboxClaim (d : Ix9) (f c : Nat) : Ix9 :=
  if rflag d Fld.MBOX_STATUS_CLAIMED c then d else rset (rset d Fld.MBOX_STATUS_CLAIMED c 1) Fld.MBOX_STATUS_OWNER c f

/-- The function is the target of the channel's request. -/
def mboxIsTarget (d : Ix9) (f c : Nat) : Bool :=
  mboxBusy d c && ((mboxTarget d c = 1 && f = fIF0) || (mboxTarget d c = 2 && f = 0))

/-- A function writes a channel's DATA word `w`, or its CTRL (`w` 16), with value `v` (R459, R460). -/
def mboxWrite (d : Ix9) (f c w v : Nat) : Ix9 :=
  if !mboxReach d f c then d
  else
    let d := mboxClaim d f c
    if mboxIsTarget d f c then
      (if w < 16 then rset d Fld.MBOX_DATA (c * 16 + w) v else if flag v 2 then mboxFinish d c else d)
    else if mboxOwner d c != f || mboxBusy d c then d
    else if w < 16 then rset d Fld.MBOX_DATA (c * 16 + w) v
    else
      let d := rset (rset d Fld.MBOX_CTRL_IRQ c (bit v 3)) Fld.MBOX_CTRL_TARGET c (bits v 5 4)
      if flag v 1 then mboxFree d c else if flag v 0 then mboxStart d c else d

/-- MBOX_TIMEOUT: MBOX_CFG.TIMEOUT has passed since GO (R462). -/
def mboxTimeout (d : Ix9) (c : Nat) : Ix9 :=
  if 64 ≤ c || !mboxBusy d c then d
  else mboxNotify (mboxClear (rset (rset d Fld.MBOX_STATUS_BUSY c 0) Fld.MBOX_STATUS_TIMEOUT c 1) c) c 8

/-- Requests whose target has left readiness are abandoned. -/
def mboxSettle (d : Ix9) : Ix9 :=
  (List.range 64).foldl (fun d c => if mboxBusy d c && !mboxReady d (mboxTarget d c) then mboxDown d c else d) d

def mboxWord (d : Ix9) (c i : Nat) : Nat := rget d Fld.MBOX_DATA (c * 16 + i)

/-- The firmware's commands (R407, R463, R494). -/
def fwKnown (cmd : Nat) : Bool := cmd = 1 || cmd = 2 || cmd = 0x10 || cmd = 0x100 || (0x110 ≤ cmd && cmd ≤ 0x112)

/-- A request of a channel waits for the firmware. -/
def fwAsked (d : Ix9) (c : Nat) : Bool := c < 64 && mboxBusy d c && mboxTarget d c = 0 && unitReady d uMGMT

/-- The request is one of this command. -/
def fwRequest (d : Ix9) (c cmd : Nat) : Bool := fwAsked d c && mboxWord d c 0 = cmd

/-- The firmware answers with these words, DATA0 first. -/
def fwReply (d : Ix9) (c : Nat) (ws : List Nat) : Ix9 :=
  mboxFinish ((List.range ws.length).foldl (fun d i => rset d Fld.MBOX_DATA (c * 16 + i) ((ws[i]?).getD 0)) d) c

/-- MBOX_RESPOND: the target writes RESPOND; the firmware so answers a command it does not know. -/
def mboxRespond (d : Ix9) (who : Option Nat) (c : Nat) : Ix9 :=
  match who with
  | some f => if mboxReach d f c && mboxIsTarget d f c then mboxFinish d c else d
  | none => if fwAsked d c && !fwKnown (mboxWord d c 0) then fwReply d c [0xFFFFFFFE] else d

/-- 32-bit words of a byte list. -/
def words32 (b : List Byte) : List Nat := (List.range ((b.length + 3) / 4)).map (fun i => leNat ((b.drop (4 * i)).take 4))

/-- SEAL (R407, R408). -/
def fwSeal (d : Ix9) (c : Nat) : Ix9 :=
  if !fwRequest d c 0x01 then d
  else if c < 32 then fwReply d c [0xFFFFFFFD]
  else
    let tenant := mboxWord d c 1
    let key := (List.range 8).foldl (fun a i => a + mboxWord d c (2 + i) * 2 ^ (32 * i)) 0
    let d := (List.range 8).foldl (fun d i => rset d Fld.MBOX_DATA (c * 16 + 2 + i) 0) d
    match d.ciph.drk with
    | none => fwReply d c [1]
    | some drk => if !vaultReady d then fwReply d c [2] else fwReply d c (0 :: words32 (sealBlob drk tenant key))

/-- The firmware image of a slot, 0 A or 1 B. -/
def slotImage (d : Ix9) (n : Nat) : Option FwImage := if n = 0 then d.nvm.slotA else d.nvm.slotB

def otherSlot (d : Ix9) : Nat := 1 - rget d Fld.FW_STATUS_RUNNING

/-- The words of the VERSION response after DATA0: running image, other image, ROM, BEHAV_LEVEL (R463). -/
def versionWords (d : Ix9) : List Nat :=
  [((slotImage d (rget d Fld.FW_STATUS_RUNNING)).map (·.version)).getD 0, ((slotImage d (otherSlot d)).map (·.version)).getD 0,
   d.nvm.rom, rget d Fld.BEHAV_LEVEL_CURRENT]

/-- VERSION. -/
def fwVersion (d : Ix9) (c : Nat) : Ix9 := if fwRequest d c 0x02 then fwReply d c (0 :: versionWords d) else d

/-- IF0_CTX (R464): the entry is copied into its table, then the context is invalidated and loaded again. -/
def fwCtx (m : List Host.Cell) (d : Ix9) (c : Nat) : Ix9 :=
  if !fwRequest d c 0x10 then d
  else if 32 ≤ c || mboxOwner d c != fIF0 then fwReply d c [0xFFFFFFFD]
  else
    let fctx := flag (mboxWord d c 1) 0
    let asid := mboxWord d c 2
    let (lo, n) := d.nvm.asids
    match lmRead m d fIF0 (mboxWord d c 3 + mboxWord d c 4 * 2 ^ 32) 32 with
    | .ok b =>
      if !fctx && (asid < lo || lo + n ≤ asid || bits (leNat b) 25 16 != fIF0) then fwReply d c [1]
      else
        let loc := if fctx then rget d Fld.XLATE_FCTX_BASE_LOC else rget d Fld.XLATE_ASID_BASE_LOC
        let base := (if fctx then rget d Fld.XLATE_FCTX_BASE_ADDR else rget d Fld.XLATE_ASID_BASE_ADDR) * 4096
        let at_ : Phys := ⟨if loc = 1 then .landing else .host, base + 32 * (if fctx then fIF0 else asid), 0, false, false⟩
        let d := (memWrite d at_ b).1
        invSteps (askInv d ⟨.fw c, if fctx then 3 else 2, asid, 0, 2 ^ 52, fIF0⟩)
    | _ => fwReply d c [1]

/-- IF0_CTX answers once its invalidation has reported done. -/
def fwCtxDone (d : Ix9) : Ix9 :=
  d.x.fwDone.foldl (fun d (c, r) => if fwRequest d c 0x10 then fwReply d c [r] else d) { d with x := { d.x with fwDone := [] } }

/-- LOG_READ (R494). The spec gives no words of an entry that does not exist: free values (DESIGN CHOICE, log entry 3). -/
def fwLogRead (d : Ix9) (c : Nat) : Ix9 :=
  if !fwRequest d c 0x100 then d
  else if c < 32 then fwReply d c [0xFFFFFFFD]
  else
    let (rec, d) := match d.rcv.log[mboxWord d c 1]? with
      | some (w, u, s) => ((List.range 8).map (fun i => bits w (32 * i + 31) (32 * i)) ++ [u % 32 + s % 2 ^ 24 * 2 ^ 8], d)
      | none => ((List.range 9).map (fun i => Config.freeNat (d.freeCtr + i)), { d with freeCtr := d.freeCtr + 9 })
    fwReply d c ([0, rget d Fld.LOG_COUNT] ++ rec)

/-- An image of a kind passes verification: its header, key, signature and security version (R521). -/
def imageOk (d : Ix9) (kind : Nat) (b : List Byte) : Bool :=
  let f (off n : Nat) : Nat := leNat ((b.drop off).take n)
  let len := f 0x14 4
  f 0 4 = 0x39524C4B && f 4 4 = kind && 0x200 + len ≤ b.length && Config.hash ((b.drop 0x40).take 97) = d.nvm.imageKey
    && Config.verify d.nvm.imageKey (b.take 0xC0 ++ (b.drop 0x200).take len) ((b.drop 0xC0).take 96) && d.nvm.svn ≤ f 0x0C 4

/-- Bit of LEVELS of a behaviour level (R502, R521). -/
def levelBit (v : Nat) : Nat := if v = 0x00 then 0 else if v = 0x01 then 1 else if v = 0x40 then 2 else 3

/-- An image provides a level. -/
def hasLevel (levels v : Nat) : Bool := v ∈ [0x00, 0x01, 0x40] && flag levels (levelBit v)

/-- FW_STATUS.STAGED: the slot not running holds a verified image. -/
def showStaged (d : Ix9) : Ix9 := rset d Fld.FW_STATUS_STAGED 0 (b2n (slotImage d (otherSlot d)).isSome)

/-- FW_STAGE: `r` brings an image that lies in host memory. A read that fails leaves nothing that could be verified. -/
def fwStage (m : List Host.Cell) (d : Ix9) (c : Nat) (r : ReadData) : Ix9 :=
  if !fwRequest d c 0x110 then d
  else if c < 32 then fwReply d c [0xFFFFFFFD]
  else
    let n := mboxWord d c 4
    let p : Phys := ⟨if flag (mboxWord d c 1) 0 then .landing else .host, mboxWord d c 2 + mboxWord d c 3 * 2 ^ 32, 0, false, false⟩
    if 2 ^ 23 < n then fwReply d c [3]
    else
      match memRead m d p n r with
      | .own => d
      | .ok b =>
        if !imageOk d 1 b then fwReply d c [1]
        else if !hasLevel (leNat ((b.drop 0x10).take 4)) (rget d Fld.BEHAV_LEVEL_CURRENT) then fwReply d c [2]
        else
          let img : FwImage := { version := leNat ((b.drop 8).take 4), svn := leNat ((b.drop 12).take 4),
                                 levels := leNat ((b.drop 0x10).take 4) % 8, digest := Config.hash b }
          let d := if otherSlot d = 0 then { d with nvm := { d.nvm with slotA := some img } }
            else { d with nvm := { d.nvm with slotB := some img } }
          fwReply (showStaged d) c [0]
      | _ => fwReply d c [1]

/-- FW_ACTIVATE. -/
def fwActivate (d : Ix9) (c : Nat) : Ix9 :=
  if !fwRequest d c 0x111 then d
  else if c < 32 then fwReply d c [0xFFFFFFFD]
  else if !rflag d Fld.FW_STATUS_STAGED then fwReply d c [1]
  else
    let d := fwReply d c [0]
    rset { d with boot := { d.boot with activate := some (otherSlot d) } } Fld.FW_STATUS_ACTIVATING 0 1

/-- FW_COMMIT: the running slot becomes the boot slot, and the fuse counter takes its SVN (R521). -/
def fwCommit (d : Ix9) (c : Nat) : Ix9 :=
  if !fwRequest d c 0x112 then d
  else if c < 32 then fwReply d c [0xFFFFFFFD]
  else
    let n := rget d Fld.FW_STATUS_RUNNING
    let d := { d with nvm := { d.nvm with boot := n, svn := max d.nvm.svn (((slotImage d n).map (·.svn)).getD 0) } }
    fwReply (rset d Fld.FW_STATUS_BOOT 0 n) c [0]

/-- A line of Starting Blocks for a stage; the spec gives no text. -/
def bootLine (d : Ix9) (n : Nat) : Ix9 := emit d (.uart (Config.text n))

/-- FW_ACTIVATION_DONE (step 4 of R495). -/
def activationDone (d : Ix9) : Ix9 :=
  match d.boot.activate with
  | none => d
  | some n =>
    if !rflag d Fld.FW_STATUS_ACTIVATING then d
    else
      let d := rset (rset { d with boot := { d.boot with activate := none } } Fld.FW_STATUS_RUNNING 0 n) Fld.FW_STATUS_ACTIVATING 0 0
      bootLine (showStaged d) 4

/-- FW_ACTIVATION_ROLLBACK (R496): the previous image runs again. -/
def activationBack (d : Ix9) : Ix9 :=
  if !rflag d Fld.FW_STATUS_ACTIVATING then d
  else
    let d := rset (rset { d with boot := { d.boot with activate := none } } Fld.FW_STATUS_ACTIVATING 0 0) Fld.FW_STATUS_ROLLED_BACK 0 1
    errorAt d { unit := uMGMT, code := 0x0B } none

/-! ## Restart of the management island (R457) -/

/-- The management island restarts alone: the tenant slots are erased, an unlock ends, the event waits for the island. -/
def mgmtRestart (d : Ix9) (code : Nat) : Ix9 :=
  if !islandReady d 0 then d
  else
    let e : ErrRec := { unit := uMGMT, code := code }
    let d := count (putRecord d uMGMT (e.word d.now)) Fld.MGMT_RESTARTS
    let d := { d with ready := d.ready.filter (· != 0)
                      mon := { baud := 115200, console := d.mon.console }
                      boot := { d.boot with mgmtEvent := some code }
                      io := { d.io with doeWait := [], doeError := (d.io.doeError ++ d.io.doeWait.map (·.1)).eraseDups } }
    showSlots (updCiph d (fun c => { c with slots := [] }))

/-- LOCKSTEP_MISMATCH: during an activation it rolls that back (R496). -/
def lockstep (d : Ix9) : Ix9 := if rflag d Fld.FW_STATUS_ACTIVATING then activationBack d else mgmtRestart d 0x04

/-- MGMT_WATCHDOG: the watchdog has seen 1 s without progress (R480). -/
def watchdog (d : Ix9) : Ix9 := mgmtRestart d 0x02

/-- MGMT_RELOAD_DONE: the island has loaded the boot slot's image again. -/
def mgmtReload (d : Ix9) : Ix9 :=
  match d.boot.mgmtEvent with
  | none => d
  | some code =>
    let d := { d with ready := insertNat d.ready 0, boot := { d.boot with mgmtEvent := none } }
    let d := showStaged (rset d Fld.FW_STATUS_RUNNING 0 (rget d Fld.FW_STATUS_BOOT))
    bootLine (pf0Event d EV_DEVICE uMGMT code) 0

/-! ## Service cores (R450 to R453) -/

/-- Where a hart's access to the landing range goes: IF0's landing space, or on codes without HBM the memory of SVC_MEM;
none where it faults (R450). -/
def hartPlace (d : Ix9) (off n : Nat) : Option Phys :=
  if stacksOf d.code != 0 then (if off + n ≤ lmSpace d fIF0 then some ⟨.landing, off, fIF0, false, false⟩ else none)
  else
    let acc := rflag d Fld.SVC_MEM_PORT
    if off + n ≤ rget d Fld.SVC_MEM_SIZE * 2 ^ 21 && rflag d Fld.PCIE_LINK_STATUS_DL_UP (if acc then 2 else 0) then
      some ⟨if acc then .accel 0 else .host, rget d Fld.SVC_MEM_BASE * 2 ^ 21 + off, fIF0, false, false⟩
    else none

/-- A hart of the device is out of reset. -/
def hartRuns (d : Ix9) (hart : Nat) : Bool := flag (rget d Fld.SVC_STATUS_RUNNING) hart

/-- HART_LANDING_ACCESS: a load or fetch of `n` bytes (`store` none), or a store. Stores reach memory at once
(DEDUCED, log entry 29) (DESIGN CHOICE, log entry 57). -/
def hartAccess (m : List Host.Cell) (d : Ix9) (hart off n : Nat) (store : Option (List Byte)) (r : ReadData) : Ix9 :=
  if !hartRuns d hart then d
  else
    match hartPlace d off (match store with | some b => b.length | none => n) with
    | none => emit d (.hart true [])
    | some p =>
      match store with
      | some b => let (e, poison) := memWrite d p b; if poison then emit d (.hart true []) else emit e (.hart false [])
      | none => match memRead m d p n r with
        | .ok b => emit d (.hart false b)
        | _ => emit d (.hart true [])

/-- Fitted tiles' bits in SVC_CTRL.RESTART. -/
def svcAll (d : Ix9) : Nat := 2 ^ tilesOf d.code - 1

/-- SVC_RESTART: bits of the SVC islands; every fitted one at once restarts IF0 too (R453). -/
def svcRestart (d : Ix9) (v : Nat) : Ix9 :=
  if !unitReady d uSVC then d
  else if v % 2 ^ tilesOf d.code = svcAll d then
    let isl := (List.range 4).map iSVC
    let d := rset (rset d Fld.SVC_STATUS_RUNNING 0 0) Fld.SVC_STATUS_IMAGE_OK 0 0
    funcResetBegin { d with ready := d.ready.filter (fun i => !isl.contains i), boot := { d.boot with svcWait := true } } fIF0
  else
    ((List.range (tilesOf d.code)).filter (flag v)).foldl (fun d n => askReset d { level := 3, tile := n, engine := 6 }) d

/-- Bytes of IF0's landing range. -/
def svcSpace (d : Ix9) : Nat := if stacksOf d.code != 0 then lmSpace d fIF0 else rget d Fld.SVC_MEM_SIZE * 2 ^ 21

/-- Writes to IF0's landing range. -/
def svcWrite (d : Ix9) (off : Nat) (b : List Byte) : Ix9 :=
  match hartPlace d off b.length with
  | some p => (memWrite d p b).1
  | none => d

/-- SERVICE_IMAGE_READ_DONE: the image and its devicetree blob have been read from flash (R452 steps 2 and 3). -/
def svcImage (d : Ix9) (image blob : List Byte) : Ix9 :=
  if !d.boot.svcWait || d.boot.stage < 2 || (funcOf d fIF0).resetting || (stacksOf d.code != 0 && !unitReady d (uHBM 0)) then d
  else
    let d := { d with boot := { d.boot with svcWait := false } }
    let f (off n : Nat) : Nat := leNat ((image.drop off).take n)
    let payload := (image.drop 0x200).take (f 0x14 4)
    let at_ := f 0x18 4
    if !imageOk d 2 image || !hasLevel (f 0x10 4) (rget d Fld.BEHAV_LEVEL_CURRENT) || svcSpace d < payload.length
        || svcSpace d < at_ + blob.length || svcSpace d < payload.length + blob.length then
      errorAt (rset d Fld.SVC_STATUS_IMAGE_OK 0 0) { unit := uSVC, code := 0x07 } none
    else
      let d := svcWrite (svcWrite d 0 payload) at_ blob
      let live := liveTiles d
      let d := rset (rset d Fld.SVC_STATUS_IMAGE_OK 0 1) Fld.SVC_STATUS_RUNNING 0 (live.foldl (fun a n => a + 255 * 2 ^ (8 * n)) 0)
      { d with ready := (live.map iSVC).foldl insertNat d.ready, boot := { d.boot with svcImage := Config.hash image } }

/-! ## The transmit ring of the exception path (R454, R456) -/

def excTxSize (d : Ix9) : Nat := 2 ^ rget d Fld.EXC_TX_CFG_LOG2

/-- Header word 0 of the transmit record at a byte count. -/
def excTxHead (m : List Host.Cell) (d : Ix9) (at_ : Nat) : Option Nat :=
  match lmRead m d fIF0 (rget d Fld.EXC_TX_BASE * 4096 + at_ % excTxSize d) 8 with
  | .ok b => some (leNat b)
  | _ => none

/-- Bytes that a record takes in the ring: a pad fills it to its end. -/
def excTxLen (d : Ix9) (at_ w : Nat) : Nat :=
  if flag w 31 then excTxSize d - at_ % excTxSize d else roundUp (32 + w % 2 ^ 14) 64

/-- Hands the frame of a record to its port, or does not (R456): an absent, native or down port, a LEN out of range, or
EN 0 (DEDUCED, log entry 41). -/
def excTxSend (m : List Host.Cell) (d : Ix9) (at_ w : Nat) : Ix9 :=
  let p := bits w 19 16
  let len := w % 2 ^ 14
  let off := at_ % excTxSize d
  if flag w 31 || !rflag d Fld.EXC_TX_CFG_EN || !portExists d p || isNative d p || !portUp d p || len < 60
      || rget d Fld.ETH_CFG_MAX_FRAME p < len + 4 then d
  else
    match lmRead m d fIF0 (rget d Fld.EXC_TX_BASE * 4096 + off + 32) len with
    | .ok b =>
      let lane := if bits w 26 24 = 0 then 7 else bits w 26 24
      enqueue d p lane { item := .raw b (some (off, flag w 28)), len := len + 4, func := some fIF0 }
    | _ => d

/-- Takes the records up to EXC_TX_PROD in ring order; `fuel` bounds them. -/
def excTxTake (m : List Host.Cell) (fuel : Nat) (d : Ix9) : Ix9 :=
  match fuel with
  | 0 => d
  | n + 1 =>
    let at_ := d.io.excTaken
    let left := (rget d Fld.EXC_TX_PROD + 2 ^ 32 - at_) % 2 ^ 32
    match excTxHead m d at_ with
    | none => d
    | some w =>
      let len := excTxLen d at_ w
      if left < len || left = 0 then d
      else
        let d := { d with io := { d.io with excTaken := (at_ + len) % 2 ^ 32 }, net := { d.net with txTimes := drop d.net.txTimes (at_ % excTxSize d) } }
        excTxTake m n (excTxSend m d at_ w)

/-- EXC_TX_PROD_WRITE (DESIGN CHOICE, log entry 57). -/
def excTxProd (m : List Host.Cell) (d : Ix9) (v : Nat) : Ix9 :=
  if (funcOf d fIF0).resetting then d else excTxTake m (excTxSize d / 64 + 1) (rset d Fld.EXC_TX_PROD 0 v)

/-- The frame of a record still waits in a lane buffer. -/
def excTxWaits (d : Ix9) (off : Nat) : Bool :=
  d.net.ports.any (fun (_, p) => p.lanes.any (fun (_, l) => l.any (fun k => match k.item with | .raw _ (some (o, _)) => o == off | _ => false)))

/-- EXC_TX_RECORD_DONE: the oldest record's frame has been sent, or was not; its header is rewritten and CONS advances
(DEDUCED, log entry 41). -/
def excTxDone (m : List Host.Cell) (d : Ix9) : Ix9 :=
  let at_ := rget d Fld.EXC_TX_CONS
  let off := at_ % excTxSize d
  if at_ = d.io.excTaken || excTxWaits d off then d
  else
    match excTxHead m d at_ with
    | none => d
    | some w =>
      let put (x : Nat) (rest : List Byte) : Ix9 := (lmWrite d fIF0 (rget d Fld.EXC_TX_BASE * 4096 + off) (leBytes 8 x ++ rest)).1
      let d := if flag w 31 then d
        else match look d.net.txTimes off with
          | some t => put (setBit w 29 true) (leBytes 8 (t % 10 ^ 9) ++ leBytes 8 (t / 10 ^ 9 % 2 ^ 48))
          | none => put (setBit w 30 true) []
      let next := (at_ + excTxLen d at_ w) % 2 ^ 32
      let d := rset { d with net := { d.net with txTimes := drop d.net.txTimes off } } Fld.EXC_TX_CONS 0 next
      if next = rget d Fld.EXC_TX_PROD then msixSend d fIF0 (rget d Fld.EXC_TX_CFG_VECTOR) else d

end Sys2Proof.Machine
end

