-- ==== Sys2Proof/Machine/Pcie.lean ====
section
/-!
DEFINITION. The PCIe ports (R529 to R553): acknowledging requests and their ends, discovery, inbound requests, link loss;
configuration requests, attestation (R546 to R548), the test access port and I3C (R577, R578).
-/

namespace Sys2Proof.Machine

/-! ## Acknowledgements (R38 to R46, R541) -/

/-- What an acknowledgement lets go on. -/
def ackDone (d : Ix9) (t : Tok) : Ix9 :=
  match t with
  | .entry k slot => endIfAcked (updEntry d k slot (fun e => { e with acks := e.acks - 1 })) k slot
  | .rx n psn => rxAcked d n psn
  | .event k prod =>
    (match look d.q.cqs k with
     | some c => eqRaise d c.eq ⟨EV_COMPLETIONS, cqIdOf k, prod % 2 ^ 32⟩
     | none => d)
  | .errEvent k eq data => errEvent d k eq data
  | .msi k =>
    (match look d.q.eqs k with
     | some e => msixSend d e.func e.vector
     | none => d)
  | .pendingBit f => faultLost d f
  | .fault f => eqRaise d (fctxOf d f).eqId ⟨EV_FAULT, f, (fctxOf d f).prod % 2 ^ 32⟩
  | .winInit | .func _ => d
  | .desc c k => strideAcked d c k none
  | .descBack c k => backAcked d c k true
  | .heat key => heatAcked d key
  | .inv id => updInv d id (fun i => { i with acks := i.acks - 1 })
  | .exc prod => excAcked d prod
  | .prefetch k slot => pfAcked d k slot

/-- How a descriptor fails with its acknowledging request (R397); none: a domain-down response. -/
def ackBad : Option BusFail → Bad
  | some .ur => ⟨ST_BUS_ERROR, 0, 1, 1, 0⟩
  | some .ca => ⟨ST_BUS_ERROR, 0, 1, 2, 0⟩
  | some .timeout => ⟨ST_BUS_ERROR, 0, 1, 3, 0⟩
  | some .other => ⟨ST_BUS_ERROR, 0, 1, 7, 0⟩
  | none => ⟨ST_BUS_ERROR, 0x06, 1, 5, 0⟩

/-- A withheld event is dropped, and recorded in the unit of the path (R46). -/
def eventLost (d : Ix9) (p : Path) : Ix9 := errorAt d { unit := pathUnit p, code := 0x0A } none

/-- An entry that was stopped under R62 ends with another status, and its invalidation does not count it (R70, R123). -/
def unwithdraw (d : Ix9) (k slot : Nat) : Ix9 :=
  match (entryAt d k slot).bind (·.withdrawn) with
  | some id => updEntry (updInv d id (fun i => { i with withdrawn := i.withdrawn - 1 })) k slot (fun e => { e with withdrawn := none })
  | none => d

/-- The acknowledgement that `t` waits for on a path fails (R43, R46, R70, R550). An entry that a reset has stopped keeps its
status; the zero writes of the window table are acknowledged again (DEDUCED, log entry 48). -/
def ackFailed (d : Ix9) (p : Path) (why : Option BusFail) (t : Tok) : Ix9 :=
  match t with
  | .entry k slot =>
    if (entryAt d k slot).any (fun e => e.phase = haltPhase && e.status != ST_XLATE_WITHDRAWN) then ackDone d t
    else endEntry (unwithdraw d k slot) k slot ST_BUS_ERROR
  | .rx n psn => rxAckFailed d n psn why.isNone
  | .event _ _ | .errEvent _ _ _ | .msi _ | .fault _ => eventLost d p
  | .winInit => needDest d p .winInit
  | .desc c k =>
    let d := match look d.stride c with
      | some ch => if (runAt d c k).any (fun r => r.bad.any (fun b => b.status == ST_XLATE_WITHDRAWN)) then unwithdraw d ch.sq ch.slot else d
      | none => d
    strideAcked d c k (some (ackBad why))
  | .descBack c k => backAcked d c k false
  | .heat key =>
    (match heatAt d key with
     | some h =>
       let d := heatOrigin (heatAcked d key) key ST_HEAT_ABORTED 0x07 h.ep.bib (some (ST_BUS_ERROR, 0))
       (match h.aborted.bind (·.local_), h.entry with
        | some (st, _), some (k, slot) =>
          if st = ST_XLATE_WITHDRAWN then
            updHeat (unwithdraw d k slot) key (fun h => { h with aborted := h.aborted.map (fun a => { a with local_ := some (ST_BUS_ERROR, 0) }) })
          else d
        | _, _ => d)
     | none => d)
  | .inv _ | .exc _ | .pendingBit _ | .func _ => ackDone d t
  | .prefetch k slot => endEntry d k slot ST_BUS_ERROR

/-- After a request has ended, entries that waited for room may have theirs (R541). -/
def ackRoom (d : Ix9) (p : Path) : Ix9 := if (pathSt d p).writing.isEmpty then issueAck d p false else d

/-- Takes the oldest acknowledging request of a kind from a path. -/
def takeReq (d : Ix9) (p : Path) (dmwr : Bool) : Option AckReq × Ix9 :=
  match (pathSt d p).reqs.find? (fun r => r.dmwr == dmwr) with
  | none => (none, d)
  | some r => (some r, updPath d p (fun s => { s with reqs := removeFirst s.reqs r }))

/-- DMWR_COMPLETION and READBACK_COMPLETION (DEDUCED, log entry 48). -/
def ackCompletion (d : Ix9) (p : Path) (dmwr : Bool) : Ix9 :=
  match takeReq d p dmwr with
  | (none, d) => d
  | (some r, d) =>
    let d := count d (if dmwr then Fld.PCIE_ACK_DMWR else Fld.PCIE_ACK_READBACK) (pathKey p)
    ackRoom (r.covers.foldl ackDone d) p

/-- DMWR_RETRY_STATUS: the DMWr is sent again; the fourth in a row falls back to the read-back (R42). -/
def dmwrRetry (d : Ix9) (p : Path) : Ix9 :=
  match (pathSt d p).reqs.find? (·.dmwr) with
  | none => d
  | some r =>
    let again := r.retries + 1 < 4
    let n : AckReq := ⟨r.covers, again, r.retries + 1, r.w, r.funcs⟩
    let d := updPath (count d Fld.PCIE_MRS (pathKey p)) p (fun s => { s with reqs := s.reqs.map (fun x => if x = r then n else x) })
    emit d (if again then .dmwr p r.w else .readBack p (pathSt d p).last.lastWord (pathSt d p).last.translated)

/-- The PCIE_ACK_CFG instance of a path: its port. -/
def pathPort : Path → Nat
  | .accel n _ => n + 1
  | _ => 0

/-- A DMWr or AtomicOp has completed with UR: USE and the enable clear (R540). -/
def useCleared (d : Ix9) (p : Path) (atomic : Bool) : Ix9 :=
  let d := if atomic then rset (rset d Fld.PCIE_ACK_STATUS_USE_ATOMIC (pathKey p) 0) Fld.PCIE_ACK_CFG_ATOMIC_EN (pathPort p) 0
    else rset (rset d Fld.PCIE_ACK_STATUS_USE_DMWR (pathKey p) 0) Fld.PCIE_ACK_CFG_DMWR_EN (pathPort p) 0
  errorAt (rset d Fld.PCIE_ACK_STATUS_UR_SEEN (pathKey p) 1) { unit := pathUnit p, code := 0x0A, island := pathPort p + 7 } none

/-- ACK_REQUEST_FAILURE: a completer abort, an unsupported request or another failure of the oldest request of a kind. -/
def ackFailure (d : Ix9) (p : Path) (dmwr : Bool) (why : BusFail) : Ix9 :=
  match takeReq d p dmwr with
  | (none, d) => d
  | (some r, d) =>
    let d := if dmwr && why = .ur then useCleared d p false else d
    ackRoom (r.covers.foldl (fun d t => ackFailed d p (some why) t) d) p

/-- Everything that waits for an acknowledgement on a path fails with a domain-down response (R19, R550). -/
def pathLost (d : Ix9) (p : Path) : Ix9 :=
  let s := pathSt d p
  let toks := s.port ++ s.reqs.flatMap (·.covers) ++ s.waiting ++ s.writing
  let d := { d with paths := drop d.paths (pathKey p) }
  toks.foldl (fun d t => ackFailed d p none t) d

/-- The first write that waits for its port acknowledgement has it. -/
def portAck (d : Ix9) (p : Path) : Ix9 :=
  match (pathSt d p).port with
  | [] => d
  | t :: rest => ackDone (updPath d p (fun s => { s with port := rest })) t

/-- CONTROLLER_ACCEPTANCE: a landing controller accepts the oldest write that waits. -/
def controllerAccepts (d : Ix9) : Ix9 := if pathUp d .landing then portAck d .landing else d

/-- PORT_ACKNOWLEDGEMENT: the oldest write that waits on a PCIe path has been transmitted. -/
def portAcknowledges (d : Ix9) (p : Path) : Ix9 := if p = .landing || !pathUp d p then d else portAck d p

/-- ACK_HOLD_EXPIRY: HOLD ns since the earliest waiting entry began to wait (R541). -/
def ackHold (d : Ix9) (p : Path) : Ix9 := if p = .landing then d else issueAck d p false

/-! ## Reads (R27, R43) -/

/-- The message that a read is for. -/
def originOf (org a b : Nat) : Origin := if org = 0 then .entry a b else if org = 1 then .heat a b else if org = 2 then .stride a else .left a

/-- SOURCE_READ_COMPLETION. An AtomicOp that completes with UR clears USE_ATOMIC (R540). -/
def sourceRead (m : List Host.Cell) (d : Ix9) (q : SourceReq) (r : ReadData) : Ix9 :=
  match q with
  | .message n org a b off => sourceForMsg d n (originOf org a b) off r
  | .stage w slot => stageRead m d w slot r
  | .heat key => heatSource m d key r
  | .stride c => strideRead m d c r
  | .prefetch k slot => pfRead m d k slot r
  | .peer n psn =>
    let piece := ((d.c.rxReads.find? (fun x => x.conn == n && x.psn == psn && x.op != 0x13)).bind (·.segs.head?)).map (·.phys)
    let d := match piece with
      | some p => if r = .fail .ur && useAtomicOp d p then useCleared d (pathOf d p) true else d
      | none => d
    let d := readBack m d n psn r
    if cachedConn d n then runParked d n else d

/-- What a read finds in the codewords of landing memory it covers. -/
def eccAll (d : Ix9) (ecc : List (Nat × Ecc)) : Ix9 := ecc.foldl (fun d e => eccRead d false e.1 e.2) d

/-- COMPLETION_TIMEOUT: a non-posted request of a port has had no completion in time. -/
def cplTimeout (m : List Host.Cell) (d : Ix9) (p : Path) (q : PcieReq) : Ix9 :=
  if p = .landing then d
  else
    let d := count d Fld.PCIE_CPL_TIMEOUTS (pathKey p)
    match q with
    | .path _ => (match (pathSt d p).reqs with
      | [] => d
      | r :: _ => ackFailure d p r.dmwr .timeout)
    | .read r => sourceRead m d r (.fail .timeout)
    | .other => d

/-- DOMAIN_DOWN_RESPONSE: for what waits on a path whose link is down, or for a read. -/
def domainDown (m : List Host.Cell) (d : Ix9) (q : PcieReq) : Ix9 :=
  match q with
  | .path p => if pathUp d p then d else pathLost d p
  | .read r => sourceRead m d r .domainDown
  | .other => d

/-! ## Accelerator ports (R532 to R535, R539, R545, R550) -/

def isRoot (d : Ix9) (n : Nat) : Bool := !rflag d Fld.ACC_PORT_STATUS_EP n

/-- A port, and a sublink of it, exist. -/
def accExists (d : Ix9) (n s : Nat) : Bool :=
  n < 4 && present d (uACCEL n) && (s = 0 || (s = 1 && isRoot d n && rflag d Fld.ACC_PORT_STATUS_BIF n))

/-- Instance of a sublink's registers. -/
def subKey (n s : Nat) : Nat := (n + 1) * 2 + s

/-- The discovery bits of a sublink. -/
def setUse (d : Ix9) (i : Nat) (cplD routeD cplA routeA : Bool) : Ix9 :=
  let d := rset (rset d Fld.PCIE_ACK_STATUS_CPL_DMWR i (b2n cplD)) Fld.PCIE_ACK_STATUS_ROUTE_DMWR i (b2n routeD)
  let d := rset (rset d Fld.PCIE_ACK_STATUS_CPL_ATOMIC i (b2n cplA)) Fld.PCIE_ACK_STATUS_ROUTE_ATOMIC i (b2n routeA)
  rset (rset d Fld.PCIE_ACK_STATUS_USE_DMWR i (b2n (cplD && routeD))) Fld.PCIE_ACK_STATUS_USE_ATOMIC i (b2n (cplA && routeA))

/-- ACCEL_LINK_LOSS: the data link layer of a port or sublink is down, DPC has triggered, or the accelerator side resets an
endpoint port. -/
def accelLoss (d : Ix9) (n s : Nat) : Ix9 :=
  let i := subKey n s
  if !accExists d n s || !rflag d Fld.PCIE_LINK_STATUS_DL_UP i then d
  else
    let d := count (rset d Fld.PCIE_LINK_STATUS_DL_UP i 0) Fld.PCIE_LINK_DOWNS i
    let d := if isRoot d n then setUse d i false false false false else d
    let d := { d with io := { d.io with scanning := d.io.scanning.filter (· != i) } }
    let d := pathLost d (.accel n s)
    let d := errorAt d { unit := uACCEL n, code := 0x0A, island := 8 + n } none
    pf0Event d EV_PORT (uACCEL n) (s + 5 * 2 ^ 8)

/-- ACCEL_LINK_UP: a link of the port is up; on a root port discovery begins. Containment keeps the link down. -/
def accelUp (d : Ix9) (n s speed width : Nat) (flit : Bool) : Ix9 :=
  let i := subKey n s
  if !accExists d n s || !islandReady d (8 + n) || d.io.dpc.contains i || rflag d Fld.PCIE_LINK_STATUS_DL_UP i then d
  else
    let d := rset (rset d Fld.PCIE_LINK_STATUS_DL_UP i 1) Fld.PCIE_LINK_STATUS_SPEED i speed
    let d := rset (rset d Fld.PCIE_LINK_STATUS_WIDTH i width) Fld.PCIE_LINK_STATUS_FLIT i (b2n flit)
    if isRoot d n then { setUse d i false false false false with io := { d.io with scanning := insertNat d.io.scanning i } } else d

/-- DISCOVERY_DONE. -/
def discoveryDone (d : Ix9) (n s : Nat) (cplD routeD cplA routeA : Bool) : Ix9 :=
  let i := subKey n s
  if !d.io.scanning.contains i then d
  else setUse { d with io := { d.io with scanning := d.io.scanning.filter (· != i) } } i cplD routeD cplA routeA

/-- ACC_PORT_RESCAN: discovery runs again on every sublink that is up. -/
def rescan (d : Ix9) (n : Nat) : Ix9 :=
  if !(accExists d n 0 && isRoot d n) then d
  else
    let up := ([0, 1].map (subKey n)).filter (fun i => rflag d Fld.PCIE_LINK_STATUS_DL_UP i)
    { d with io := { d.io with scanning := up.foldl insertNat d.io.scanning } }

/-- DPC_RELEASE. -/
def dpcRelease (d : Ix9) (n : Nat) : Ix9 :=
  if !(accExists d n 0 && isRoot d n) then d
  else { d with io := { d.io with dpc := d.io.dpc.filter (fun i => i / 2 != n + 1) } }

/-- AER_MESSAGE_RECEIVED: an uncorrectable error from below a root port, or of the port itself. -/
def aerMessage (d : Ix9) (n s : Nat) : Ix9 :=
  if !(accExists d n s && isRoot d n && islandReady d (8 + n)) then d
  else errorAt (count d Fld.PCIE_AER_MSGS (subKey n s)) { unit := uACCEL n, code := 0x0A, island := 8 + n } none

/-- ERR_FATAL_RECEIVED: the message is recorded like every other, DPC triggers and the link is lost (DEDUCED, log entry 49). -/
def errFatal (d : Ix9) (n s : Nat) : Ix9 :=
  let i := subKey n s
  if !(accExists d n s && isRoot d n && rflag d Fld.PCIE_LINK_STATUS_DL_UP i) then d
  else
    let d := aerMessage d n s
    accelLoss { d with io := { d.io with dpc := insertNat d.io.dpc i } } n s

/-- ACC_CFG_DATA_ACCESS: `write` data or none for a read; `answer`: the data the request brought, none for UR or a timeout. -/
def accCfg (d : Ix9) (n : Nat) (write answer : Option Nat) : Ix9 :=
  if !(accExists d n 0 && isRoot d n) then emit d (.value 0)
  else
    let s := rget d Fld.ACC_CFG_ADDR_SUBLINK n
    let up := rflag d Fld.PCIE_LINK_STATUS_DL_UP (subKey n s)
    let at_ := rget d Fld.ACC_CFG_ADDR_REG n * 4 + rget d Fld.ACC_CFG_ADDR_FN n * 2 ^ 12 + rget d Fld.ACC_CFG_ADDR_DEV n * 2 ^ 15
      + rget d Fld.ACC_CFG_ADDR_BUS n * 2 ^ 20
    let d := if up then emit d (.config (n + 1) write.isSome at_ (write.getD 0)) else d
    match write with
    | some v => rset d Fld.ACC_CFG_DATA n v
    | none =>
      let v := if up then answer.getD 0xFFFFFFFF % 2 ^ 32 else 0xFFFFFFFF
      emit (rset d Fld.ACC_CFG_DATA n v) (.value v)

/-- A write to the doorbell word of a function at a DB_INDEX (R82, R84). -/
def doorbell (d : Ix9) (f i : Nat) (whole : Bool) (v : Nat) : Ix9 :=
  if (sqByDb d f i).isSome then sqDoorbell d f i whole v
  else if (cqByDb d f i).isSome then cqDoorbell d f i whole v
  else if (eqByDb d f i).isSome then eqDoorbell d f i whole v
  else fqDoorbell d f i whole v

/-- INBOUND_REQUEST_DISCARD: a non-posted request completes with UR, a posted one is discarded and counted. -/
def inboundDiscard (d : Ix9) (n s : Nat) (posted : Bool) : Ix9 :=
  if !(accExists d n s && isRoot d n && rflag d Fld.PCIE_LINK_STATUS_DL_UP (subKey n s)) then d
  else if posted then count d Fld.PCIE_IN_DISCARDS (subKey n s) else emit d (.completion (n + 1) false)

/-- INBOUND_DOORBELL_WRITE: a write or DMWr of an accelerator to `addr` (R533, R534): a bus address on a root port, an
offset in BAR0 on an endpoint port (DEDUCED, log entry 49). -/
def inboundDoorbell (d : Ix9) (n s addr : Nat) (whole dmwr : Bool) (v : Nat) : Ix9 :=
  if !(accExists d n s && rflag d Fld.PCIE_LINK_STATUS_DL_UP (subKey n s)) then d
  else
    let f := rget d Fld.ACC_DB_FUNC n
    let x := addr % 2 ^ 24
    if isRoot d n then
      if !rflag d Fld.ACC_DB_EN n || addr / 2 ^ 24 != rget d Fld.ACC_DB_BASE n || 3 < f then inboundDiscard d n s (!dmwr)
      else
        let d := if x / 8 < 65536 then doorbell d f (x / 8) (whole && x % 8 = 0) v else d
        if dmwr then emit d (.completion (n + 1) true) else d
    else
      let d := if rflag d Fld.ACC_DB_EN n && (f ≤ 3 || isVf f) && x / 8 < 65536 then doorbell d f (x / 8) (whole && x % 8 = 0) v else d
      if dmwr then emit d (.completion (n + 1) true) else d

/-! ## Configuration Requests of the host (R522, R536, R543) -/

/-- The value of a capability field; fields whose value the spec does not give are free values (DESIGN CHOICE, log entry 3). -/
def cfgValue (d : Ix9) (f : Nat) : CfgField → Nat × Ix9
  | .maxPasidWidth => (20, d)
  | .atsQueueDepth => (32, d)
  | .atsPageAligned => (1, d)
  | .priCapacity => (512, d)
  | .vfStride => if f ≤ 3 then (1, d) else draw d
  | .firstVfOffset => if f ≤ 3 then (4 + 251 * f, d) else draw d
  | .totalVfs => if f ≤ 3 then (252, d) else draw d
  | .other _ => draw d

/-- CONFIGURATION_REQUEST. -/
def configRequest (d : Ix9) (f : Nat) (r : CfgReq) : Ix9 :=
  if !islandReady d 7 || d.boot.perstLow then emit d .configRetry
  else if !funcExists f || f = fIF0 then emit d (.completion 0 false)
  else
    match r with
    | .read x => let (v, d) := cfgValue d f x; emit d (.config 0 false 0 v)
    | .atsEnable on => emit (updFunc d f (fun fn => { fn with atsEnable := on })) (.completion 0 true)
    | .msix en mask =>
      let d := updFunc d f (fun fn => { fn with msixEnable := en, msixMask := mask })
      emit ((funcOf d f).pba.foldl (fun d v => msixSend (updFunc d f (fun fn => { fn with pba := fn.pba.filter (· != v) })) f v) d)
        (.completion 0 true)
    | .vfEnable on =>
      if 3 < f then emit d (.completion 0 true)
      else
        let d := if !on && d.io.vfEnable.contains f then vfEnableClear d f else d
        emit { d with io := { d.io with vfEnable := if on then insertNat d.io.vfEnable f else d.io.vfEnable.filter (· != f) } }
          (.completion 0 true)
    | .other => emit d (.completion 0 true)

/-! ## Attestation (R546 to R548) -/

/-- Mailboxes: 0 to 3 the DOE mailboxes of the PFs, 4 + n of accelerator port n in endpoint mode, 8 MCTP over I3C. -/
def spdmReach (d : Ix9) (mb : Nat) : Bool :=
  if mb < 4 then islandReady d 7 else if mb < 8 then islandReady d (mb + 4) && !isRoot d (mb - 4) else mb = 8 && d.io.i3c.isSome

/-- What the digest of the board configuration is taken over: the configuration as the model holds it (DESIGN CHOICE, log entry 7). -/
def boardBytes (n : Nvm) : List Byte :=
  leBytes 8 n.behav ++ leBytes 8 n.asids.1 ++ leBytes 8 n.asids.2 ++ leBytes 8 n.svcMem.1 ++ leBytes 8 n.svcMem.2.1
    ++ leBytes 8 n.svcMem.2.2 ++ n.quotas.flatMap (fun q => leBytes 4 q.1 ++ leBytes 4 q.2.1 ++ leBytes 8 q.2.2)
    ++ n.regs.flatMap (fun r => leBytes 8 r.1 ++ leBytes 8 r.2)

/-- The measurement blocks, in order (R547). -/
def measurements (d : Ix9) : List Byte :=
  let digest (v : Nat) : List Byte := beBytes 48 v
  leBytes 4 d.nvm.rom ++ digest (((slotImage d (rget d Fld.FW_STATUS_RUNNING)).map (·.digest)).getD 0)
    ++ digest (((slotImage d (otherSlot d)).map (·.digest)).getD 0) ++ digest d.boot.svcImage
    ++ digest (Config.hash (boardBytes d.nvm)) ++ leBytes 4 (rget d Fld.BEHAV_LEVEL_CURRENT) ++ leBytes 4 d.nvm.svn
    ++ leBytes 4 (unitsOf d.code)

/-- The body of the response to a request code of SPDM; the chain in certificate slot 0 is text 16. -/
def spdmBody (d : Ix9) (code : Nat) (req : List Byte) : List Byte :=
  let chain := Config.text 16
  if code = 0x81 then beBytes 48 (Config.hash chain)
  else if code = 0x82 then (chain.drop (leNat (req.take 2))).take (leNat ((req.drop 2).take 2))
  else if code = 0x83 then beBytes 48 (Config.hash chain) ++ Config.sign (req ++ chain)
  else if code = 0xE0 then measurements d ++ Config.sign (req ++ measurements d)
  else Config.text (17 + code)

/-- An SPDM request. While an image is activated a DOE mailbox answers only what it has `accepted` before, once that is
over; while the management island is not ready none is accepted. -/
def spdm (d : Ix9) (code mb : Nat) (accepted : Bool) (req : List Byte) : Ix9 :=
  if !islandReady d 0 || !spdmReach d mb then d
  else if rflag d Fld.FW_STATUS_ACTIVATING && mb != 8 then
    (if accepted then { d with io := { d.io with doeWait := d.io.doeWait ++ [(mb, code, req)] } } else d)
  else emit d (.message code (spdmBody d code req))

/-- Answers what was accepted before an activation once it is over. -/
def doeSettle (d : Ix9) : Ix9 :=
  if rflag d Fld.FW_STATUS_ACTIVATING || !islandReady d 0 then d
  else d.io.doeWait.foldl (fun d (_, code, req) => emit d (.message code (spdmBody d code req)))
    { d with io := { d.io with doeWait := [] } }

/-! ## I3C and the test access port (R577, R578) -/

/-- DYNAMIC_ADDRESS_ASSIGNMENT: `static_`: the static address of SETDASA, none for ENTDAA. -/
def dynAddr (d : Ix9) (static_ : Option Nat) (a : Nat) : Ix9 :=
  if d.io.i3c.isSome || static_.any (· != 0x4E) then d else { d with io := { d.io with i3c := some (a % 128) } }

/-- Every link goes down. -/
def allDown (d : Ix9) : Ix9 :=
  let d := (List.range 16).foldl (fun d p =>
    if !portExists d p then d else if isNative d p then linkFall d p else if rflag d Fld.ETH_STATUS_UP p then ethFall d p else d) d
  (List.range 10).foldl (fun d i =>
    if rflag d Fld.PCIE_LINK_STATUS_DL_UP i then count (rset d Fld.PCIE_LINK_STATUS_DL_UP i 0) Fld.PCIE_LINK_DOWNS i else d) d

/-- Number of an instruction in `Boot.jtagIr`: the spec gives no opcodes (PRESUMED, log entry 9). -/
def jtagNumber : Jtag → Nat
  | .bypass => 0 | .idcode => 1 | .sample => 2 | .extest => 3 | .extestPulse => 4 | .extestTrain => 5 | .clamp => 6 | .highz => 7
  | .other c => c + 8

/-- The device is in boundary scan. -/
def scanMode (d : Ix9) : Ix9 := { d with boot := { d.boot with scan := true } }

/-- JTAG_INSTRUCTION_LOAD. Instructions outside the standard's act as BYPASS unless gated commands run (R468). -/
def jtagLoad (d : Ix9) (i : Jtag) : Ix9 :=
  let gated := d.mon.unlocked || d.nvm.debug
  let n := match i with
    | .other _ => if gated then jtagNumber i else 0
    | _ => jtagNumber i
  let d := { d with boot := { d.boot with jtagIr := n } }
  if n = 1 then emit d (.value 0x10009A6B)
  else if 3 ≤ n && n ≤ 7 then scanMode (allDown d)
  else d

end Sys2Proof.Machine
end

