-- ==== Sys2Proof/Machine/Power.lean ====
section
/-!
DEFINITION. Power, clocks and bring-up (R508 to R528): clocks lost, capping and throttling, thermal trip, the way from
PWR_OK to ready units, standby and wake; the stored behaviour level (R556).
-/

namespace Sys2Proof.Machine

/-! ## Reference clocks (R513) -/

/-- CLOCK_LOST: clock `c` of CLK_STATUS has stopped for 2 µs. SYS_REFCLK is held over, CLK32K replaced. -/
def clockLost (d : Ix9) (c : Nat) : Ix9 :=
  let lost := rget d Fld.CLK_STATUS_LOST
  if 4 < c || flag lost c then d
  else
    let lost := setBit lost c true
    let d := rset (rset d Fld.CLK_STATUS_LOST 0 lost) Fld.CLK_LOST_STICKY 0 (setBit (rget d Fld.CLK_LOST_STICKY) c true)
    let d := pf0Event d EV_DEVICE uMGMT (lost * 2 ^ 16)
    if c = 1 || c = 2 then
      ((List.range 8).map (8 * (c - 1) + ·)).foldl (fun d p =>
        if !portExists d p then d else if isNative d p then linkFall d p else if rflag d Fld.ETH_STATUS_UP p then ethFall d p else d) d
    else if c = 3 then
      let d := hostDlDown d
      [(0, 0), (0, 1), (1, 0), (1, 1), (2, 0), (2, 1), (3, 0), (3, 1)].foldl (fun d (n, s) => accelLoss d n s) d
    else d

/-- CLOCK_RESTORED: the reference has been back for 1 ms. Native ports of its group train again. -/
def clockRestored (d : Ix9) (c : Nat) : Ix9 :=
  let lost := rget d Fld.CLK_STATUS_LOST
  if 4 < c || !flag lost c then d
  else
    let d := rset d Fld.CLK_STATUS_LOST 0 (setBit lost c false)
    if c = 1 || c = 2 then
      ((List.range 8).map (8 * (c - 1) + ·)).foldl (fun d p => if portExists d p && isNative d p then bringUp d p else d) d
    else d

/-! ## Clocks under capping and throttling (R514 to R518) -/

/-- Maximum and floor of a class, in 100 MHz (R514). -/
def clockMax (d : Ix9) (c : Nat) : Nat :=
  let full := if c = 0 then 24 else 16
  if d.code < 3 then full else full / 2
def clockFloor (c : Nat) : Nat := if c = 0 then 6 else 4

/-- The island of a class on a tile; class 3 is CIPHn too. -/
def classIsland (n c : Nat) : Nat := if c = 0 then iSVC n else if c = 1 then iMARA n else if c = 2 then iCOLL n else iXPORT n
def classFitted (d : Ix9) (n c : Nat) : Bool := c < 4 && (fittedIslands d.code).contains (classIsland n c)
def classAnywhere (d : Ix9) (c : Nat) : Bool := (List.range 4).any (fun n => classFitted d n c)

/-- Clocks that capping and throttling grant, and the lower of them (R518). -/
def capClock (d : Ix9) (c : Nat) : Nat := (look d.pw.cap c).getD (clockMax d c)
def thermClock (d : Ix9) (n c : Nat) : Nat := (look d.pw.therm (n * 4 + c)).getD (clockMax d c)
def grantClock (d : Ix9) (n c : Nat) : Nat := min (capClock d c) (thermClock d n c)

/-- The clock a class of a tile runs at: a raise waits for the tile's voltage (R509). -/
def clockOf (d : Ix9) (n c : Nat) : Nat := min (grantClock d n c) ((look d.pw.rising (n * 4 + c)).getD (grantClock d n c))

/-- PWR_CLK (R528): 0 for an island that is absent, evacuated or in reset. -/
def clockShown (d : Ix9) (n c : Nat) : Nat := if classFitted d n c && islandReady d (classIsland n c) then clockOf d n c else 0

/-- New grants: a class that may run faster keeps its clock until the regulator has answered. -/
def setGrants (d : Ix9) (f : Power → Power) : Ix9 :=
  let e := { d with pw := f d.pw }
  let keys := (List.range 16).filter (fun i => classFitted d (i / 4) (i % 4))
  let rising := keys.foldl (fun t i =>
    let was := clockOf d (i / 4) (i % 4)
    if was < grantClock e (i / 4) (i % 4) then put t i was else t) []
  let e := { e with pw := { e.pw with rising := rising } }
  rset e Fld.PWR_STATUS_THERMAL 0 (b2n (keys.any (fun i => grantClock e (i / 4) (i % 4) < capClock e (i % 4))))

/-- REGULATOR_STATUS: the voltage of a tile has reached the request. -/
def regulatorStatus (d : Ix9) (n : Nat) : Ix9 :=
  { d with pw := { d.pw with rising := d.pw.rising.filter (fun x => x.1 / 4 != n) } }

/-- Class that PWR_CAP_ORDER lowers i-th (DEDUCED, log entry 46). -/
def capOrder (d : Ix9) (i : Nat) : Nat := bits (rget d Fld.PWR_CAP_ORDER) (4 * i + 3) (4 * i)

/-- The limit that acts, in W (R517). -/
def capLimit (d : Ix9) : Nat := max 30 (min (tdpOf d.code) (rget d Fld.PWR_CAP_LIMIT))

/-- CAP_TICK: `avg` is the device power in 0.1 W averaged over WINDOW ms (R516) (DEDUCED, log entry 46). -/
def capTick (d : Ix9) (avg : Nat) : Ix9 :=
  let d := rset d Fld.PWR_MEAS 0 (min avg 65535)
  if !rflag d Fld.PWR_CAP_EN then d
  else
    let limit := capLimit d * 10
    let down := ([0, 1, 2, 3].map (capOrder d)).find? (fun c => classAnywhere d c && clockFloor c < capClock d c)
    let up := ([3, 2, 1, 0].map (capOrder d)).find? (fun c => classAnywhere d c && capClock d c < clockMax d c)
    let shown (d : Ix9) : Ix9 :=
      rset d Fld.PWR_STATUS_CAPPING 0 (b2n ([0, 1, 2, 3].any (fun c => classAnywhere d c && capClock d c < clockMax d c)))
    if limit < avg then
      match down with
      | some c => shown (count (setGrants d (fun p => { p with cap := put p.cap c (capClock d c - 1) })) Fld.PWR_CAP_STEPS)
      | none => shown (rset d Fld.PWR_STATUS_CAP_FLOOR 0 1)
    else
      let d := rset d Fld.PWR_STATUS_CAP_FLOOR 0 0
      if avg + rget d Fld.PWR_CAP_HYST * 10 < limit then
        match up with
        | some c => shown (setGrants d (fun p => { p with cap := put p.cap c (capClock d c + 1) }))
        | none => shown d
      else shown d

/-- PWR_CAP_MCTP_WRITE: the firmware writes PWR_CAP for the board management controller (R517). -/
def capMctp (d : Ix9) (v : Nat) : Ix9 :=
  if !islandReady d 0 || d.io.i3c.isNone then d
  else rset (rset d Fld.PWR_CAP_LIMIT 0 (bits v 9 0)) Fld.PWR_CAP_EN 0 (bit v 16)

/-- THERMAL_STEP: the sensors of the eight dies read `temps`, in 1/16 °C as signed 16-bit numbers (R518). One class of each
tile steps, in PWR_CAP_ORDER or back. -/
def thermalStep (d : Ix9) (temps : List Nat) : Ix9 :=
  let t (i : Nat) : Int := signed 16 ((temps[i]?).getD 0)
  let d := (List.range 8).foldl (fun d i => rset d Fld.THERM_TEMP i ((temps[i]?).getD 0 % 2 ^ 16)) d
  let top := (List.range 8).foldl (fun a i => max a (t i)) (signed 16 (rget d Fld.THERM_MAX))
  let d := rset d Fld.THERM_MAX 0 (unsigned 16 top)
  let hot : Int := rget d Fld.THERM_CFG_THROTTLE * 16
  let others := [0, 1, 6, 7]
  setGrants d (fun p =>
    { p with therm := (List.range (tilesOf d.code)).foldl (fun tab n =>
        let dies := (2 + n) :: others
        let down := ([0, 1, 2, 3].map (capOrder d)).find? (fun c => classFitted d n c && clockFloor c < grantClock d n c)
        let up := ([3, 2, 1, 0].map (capOrder d)).find? (fun c => classFitted d n c && thermClock d n c < clockMax d c)
        if dies.any (fun i => hot ≤ t i) then
          (match down with
           | some c => put tab (n * 4 + c) (grantClock d n c - 1)
           | none => tab)
        else if dies.all (fun i => t i < hot - 48) then
          (match up with
           | some c => put tab (n * 4 + c) (thermClock d n c + 1)
           | none => tab)
        else tab) p.therm })

/-! ## What MGMT and the wake detector hold -/

/-- Fields of the management island: its set-up block, its error records and the behaviour level; they outlive a thermal
trip and standby (R519, R527) (DEDUCED, log entry 47). -/
def mgmtField (f : Fld) (i : Nat) : Bool :=
  match f.place with
  | .glob base stride _ =>
    let a := base + stride * i
    0x3700000 ≤ a && a < 0x3800000
  | .func _ => [Fld.BEHAV_LEVEL_CURRENT, Fld.BEHAV_LEVEL_NEXT, Fld.BEHAV_LEVEL_BUSY].any (fun g => g.id == f.id)
  | _ => false

/-- Fields of the wake detector (R275): its configuration, status and patterns, and the address of port 0. -/
def wakeField (f : Fld) (i : Nat) : Bool :=
  [Fld.ETH_WAKE_CFG_MAGIC_EN, Fld.ETH_WAKE_CFG_PAT_EN, Fld.ETH_WAKE_CFG_LINK_EN, Fld.ETH_WAKE_STATUS, Fld.WAKE_PATTERN,
   Fld.WAKE_MASK].any (fun g => g.id == f.id) || (f.id == Fld.ETH_MAC.id && i = 0)

/-- Every island but MGMT and WAKE loses its state; nothing is waited for (DEDUCED, log entry 47). -/
def loseIslands (d : Ix9) (keep : Fld → Nat → Bool) : Ix9 :=
  let (mon, i3c) := (d.mon, d.io.i3c)
  let d := warmState d
  let d := rrestore d (fun f i => !keep f i)
  { d with
    mon := mon
    io := { i3c := i3c }
    c := {}
    net := {}
    lm := { retired := d.lm.retired }
    zap := [(0, 2 ^ 64)]
    ppsAt := none
    ready := d.ready.filter (· < 2)
    off := []
    rcv := { log := d.rcv.log, logSeq := d.rcv.logSeq }
    boot := { d.boot with failed := [], svcWait := false, activate := none } }

/-- THERMAL_TRIP: a sensor has reached TRIP (R519). The spec gives the log entry no CODE: a free one (DESIGN CHOICE, log entry 3). -/
def thermalTrip (d : Ix9) (reading : Nat) : Ix9 :=
  let at_ : Int := rget d Fld.THERM_CFG_TRIP * 16
  if rflag d Fld.PWR_STATUS_TRIPPED || !d.boot.pwrOk || d.boot.standby = 3 || signed 16 reading < at_ then d
  else
    let (code, d) := draw d
    let e : ErrRec := { unit := uMGMT, code := code % 256 }
    let d := count d Fld.LOG_COUNT
    let d := { d with rcv := { d.rcv with log := ((e.word d.now, uMGMT, d.rcv.logSeq) :: d.rcv.log).take 1024, logSeq := d.rcv.logSeq + 1 } }
    let d := accPins (loseIslands d mgmtField)
    emit { rset d Fld.PWR_STATUS_TRIPPED 0 1 with pins := { d.pins with thermN := false } } (.pin .thermtripN false)

/-! ## Bring-up (R520 to R524) -/

/-- PWR_OK_ASSERT: the straps are sampled and the ROM starts. In standby only the level counts (R526). -/
def pwrOkAssert (d : Ix9) (ep halves : Nat) : Ix9 :=
  if d.boot.pwrOk then d
  else if d.boot.standby = 3 then { d with boot := { d.boot with pwrOk := true } }
  else
    let d := { d with boot := { d.boot with pwrOk := true, stage := 1, strapEp := ep % 16, strapBif := halves % 16 } }
    (List.range 4).foldl (fun d n => rset (rset d Fld.ACC_PORT_STATUS_EP n (bit ep n)) Fld.ACC_PORT_STATUS_BIF n (bit halves n)) d

/-- PWR_OK_DEASSERT: a cold reset (R510). -/
def pwrOkDeassert (d : Ix9) : Ix9 :=
  if !d.boot.pwrOk then d
  else if d.boot.standby = 3 then { d with boot := { d.boot with pwrOk := false } }
  else coldReset { d with boot := { d.boot with pwrOk := false } } (rget d Fld.RESET_STATUS_LAST)

/-- A firmware slot holds an image that passes verification now: its SVN and the level of the board configuration. -/
def slotBoots (d : Ix9) (n : Nat) : Bool := (slotImage d n).any (fun i => d.nvm.svn ≤ i.svn && hasLevel i.levels d.nvm.behav)

/-- On codes without HBM, SVC_MEM is written and locked (R452 step 1). -/
def svcMemConfig (d : Ix9) : Ix9 :=
  if stacksOf d.code != 0 then d
  else
    let d := rset (rset d Fld.SVC_MEM_PORT 0 d.nvm.svcMem.1) Fld.SVC_MEM_BASE 0 d.nvm.svcMem.2.1
    rset (rset d Fld.SVC_MEM_SIZE 0 d.nvm.svcMem.2.2) Fld.SVC_MEM_LOCK 0 1

/-- The board configuration as it is applied when firmware starts (R522 step 2, R487 step 3): the behaviour level and the
retired units always, the quotas and registers after a cold reset, SVC_MEM on codes without HBM. -/
def boardConfig (d : Ix9) : Ix9 :=
  let d := rset (rset d Fld.BEHAV_LEVEL_CURRENT 0 d.nvm.behav) Fld.BEHAV_LEVEL_NEXT 0 d.nvm.behav
  let d := rset d Fld.BEHAV_LEVEL_BUSY 0 0
  let d := { d with lm := { d.lm with retired := d.nvm.retired.foldl insertNat d.lm.retired } }
  let d := if d.boot.warm then d
    else
      let d := { d with regs := d.nvm.regs.foldl (fun t (k, v) => put t k v) d.regs }
      d.nvm.quotas.foldl (fun d (r, sub, v) => quotaApply d fIF0 r sub v) d
  svcMemConfig d

/-- FIRMWARE_VERIFIED: the BOOT slot's image runs, or the other one where it fails verification, which is recorded. -/
def firmwareVerified (d : Ix9) : Ix9 :=
  let b := d.nvm.boot % 2
  if d.boot.stage != 1 || d.boot.hold || onlyCold d || d.boot.scan || !(slotBoots d b || slotBoots d (1 - b)) then d
  else
    let run := if slotBoots d b then b else 1 - b
    let d := { d with ready := insertNat d.ready 0, boot := { d.boot with stage := 2, svcWait := true, mgmtEvent := none } }
    let d := rset (rset (rset d Fld.FW_STATUS_RUNNING 0 run) Fld.FW_STATUS_BOOT 0 b) Fld.FW_STATUS_ACTIVATING 0 0
    let d := boardConfig (showStaged d)
    let d := if run = b then d else errorAt d { unit := uMGMT, code := 0x07 } none
    bootLine d 1

/-- UNIT_READY: the islands of a unit are up after bring-up; with `ok` false its self-test has failed (R523). A unit that a
reset holds becomes ready with that reset, the service cores under R452. -/
def unitUp (d : Ix9) (u : Nat) (ok : Bool) : Ix9 :=
  let isl := (unitIslands d.code u).filter (fun i => !d.off.contains i)
  let held := d.rcv.resets.flatMap (fun r => islandsOf d r.due)
  if d.boot.stage != 2 || onlyCold d || d.boot.standby != 0 || d.boot.scan || !present d u || u = uMGMT || u = uSVC
      || d.boot.failed.contains u || isl.all (islandReady d) || isl.any held.contains then d
  else if !ok then
    errorAt { d with boot := { d.boot with failed := insertNat d.boot.failed u } } { unit := u, code := 0x01, island := isl.headD 0 } none
  else
    let d := { d with ready := isl.foldl insertNat d.ready }
    if u = uCIPHER then rset (rset d Fld.VAULT_STATUS_ES_OK 0 1) Fld.VAULT_STATUS_DRBG_OK 0 1 else d

/-! ## The behaviour level (R500, R502, R556) -/

/-- BEHAV_LEVEL_NEXT_WRITE. -/
def behavWrite (d : Ix9) (f v : Nat) : Ix9 :=
  let levels := ((slotImage d (rget d Fld.FW_STATUS_RUNNING)).map (·.levels)).getD 0
  if f != 0 || !islandReady d 0 || !hasLevel levels v || rflag d Fld.BEHAV_LEVEL_BUSY || rflag d Fld.FW_STATUS_ACTIVATING then d
  else rset (rset d Fld.BEHAV_LEVEL_NEXT 0 v) Fld.BEHAV_LEVEL_BUSY 0 1

/-- BEHAV_LEVEL_STORE_DONE. -/
def behavStored (d : Ix9) : Ix9 :=
  if !rflag d Fld.BEHAV_LEVEL_BUSY then d
  else rset { d with nvm := { d.nvm with behav := rget d Fld.BEHAV_LEVEL_NEXT } } Fld.BEHAV_LEVEL_BUSY 0 0

/-! ## Standby (R275, R277, R525 to R527) -/

/-- Wake sources that are enabled, in the bit order of ETH_WAKE_CFG. -/
def wakeEnabled (d : Ix9) : Bool :=
  rflag d Fld.ETH_WAKE_CFG_MAGIC_EN || rget d Fld.ETH_WAKE_CFG_PAT_EN != 0 || rflag d Fld.ETH_WAKE_CFG_LINK_EN

/-- PWR_CTRL_STANDBY: a write of PWR_CTRL with STANDBY by PF0. Step 1: every function is reset. -/
def standbyWrite (d : Ix9) (key : Nat) : Ix9 :=
  if key != 0x57BD || !islandReady d 0 || d.boot.standby != 0 then d
  else if !present d uWAKE || !wakeEnabled d || isNative d 0 || flag (rget d Fld.CLK_STATUS_LOST) 4 then
    rset d Fld.PWR_STATUS_STBY_ERR 0 1
  else
    let fs := usedFuncs d
    (fs.filter isVf ++ fs.filter (fun f => !isVf f)).foldl funcResetBegin { d with boot := { d.boot with standby := 1, wake := none } }

/-- The wake sequence starts (R527). -/
def wakeStart (d : Ix9) : Ix9 :=
  emit (emit { d with pins := { d.pins with wakeN := false, stbyN := true } } (.pin .wakeN false)) (.pin .pwrStbyN true)

/-- STANDBY_ENTRY_DONE: steps 2 to 4, once every function reset is over; a wake that matched meanwhile starts. -/
def standbyDone (d : Ix9) : Ix9 :=
  if d.boot.standby != 1 || d.funcs.any (fun x => x.2.resetting) then d
  else
    let d := loseIslands d (fun f i => mgmtField f i || wakeField f i)
    let d := rset (rset d Fld.ETH_STATUS_UP 0 1) Fld.ETH_LS_STATUS_LANES 0 1
    let d := rset { d with boot := { d.boot with standby := 3 } } Fld.PWR_STATUS_STANDBY 0 1
    let d := emit { d with pins := { d.pins with stbyN := false } } (.pin .pwrStbyN false)
    let d := accPins d
    if d.boot.wake.isSome then wakeStart d else d

/-- Causes that an event on port 0 sets. -/
def wakeCauses (d : Ix9) : WakeEv → Nat
  | .linkChange => if rflag d Fld.ETH_WAKE_CFG_LINK_EN then 2 ^ 17 else 0
  | .frame l => if l.length < 64 || fcs (l.take (l.length - 4)) != l.drop (l.length - 4) then 0 else wakeFrame d l

/-- WAKE_MATCH: in standby, or while entry runs. -/
def wakeMatch (d : Ix9) (e : WakeEv) : Ix9 :=
  let causes := wakeCauses d e
  if d.boot.standby = 0 || causes = 0 then d
  else
    let first := d.boot.wake.isNone
    let d := rset d Fld.ETH_WAKE_STATUS 0 (rget d Fld.ETH_WAKE_STATUS ||| causes)
    let d := { d with boot := { d.boot with wake := some (d.boot.wake.getD 0 ||| causes) } }
    if d.boot.standby = 3 && first then wakeStart d else d

/-- WAKE_RESTORE: PWR_OK reads asserted with every rail good: bring-up from step 3 for every island. -/
def wakeRestore (d : Ix9) : Ix9 :=
  if d.boot.standby != 3 || d.boot.wake.isNone || !d.boot.pwrOk then d
  else
    let d := rrestore d (fun f i => !(mgmtField f i || f.id == Fld.ETH_WAKE_STATUS.id))
    let d := (List.range 4).foldl (fun d n => rset (rset d Fld.ACC_PORT_STATUS_EP n (bit d.boot.strapEp n)) Fld.ACC_PORT_STATUS_BIF n
      (bit d.boot.strapBif n)) d
    let d := rset (rset d Fld.PWR_STATUS_STANDBY 0 0) Fld.PWR_STATUS_WOKE 0 1
    let d := { svcMemConfig d with ready := d.ready.filter (· < 2), boot := { d.boot with standby := 0, wake := none, stage := 2, svcWait := true, warm := false } }
    emit { d with pins := { d.pins with wakeN := true } } (.pin .wakeN true)

end Sys2Proof.Machine
end

