-- ==== Sys2Proof/Machine/Regs.lean ====
section
/-!
DEFINITION. Accesses to the register spaces of the functions (R4, R11, R12, R441, R451, R537, R538, R554 to R562, R582):
which fields an access touches, what a read returns, what a write does. Writes that have a command of their own do what
that command does.
-/

namespace Sys2Proof.Machine

/-! ## Where fields lie (R561) -/

/-- Copies of a field that bytes [a, a + n) of PF0's set-up space may touch: instance and address of the register. -/
def setupHits (p : Place) (a n : Nat) : List (Nat × Nat) :=
  let port := fun (off : Nat) =>
    let r := a % 0x100000
    if 0x2C00000 ≤ a && a < 0x2E00000 && 0x40000 ≤ r && r < 0x80000 then
      let q := (a - 0x2C00000) / 0x100000 * 8 + (r - 0x40000) / 0x8000
      some (q, a - (r - 0x40000) % 0x8000 + off, (r - 0x40000) % 0x8000)
    else none
  let block := fun (_ : Unit) =>
    if 0x350A000 ≤ a && a < 0x350B000 then some (0, 0x350A000)
    else if 0x2E00000 ≤ a && a < 0x3200000 && 0xA000 ≤ a % 0x100000 && a % 0x100000 < 0xB000 then
      some ((a - 0x2E00000) / 0x100000 + 1, a - a % 0x100000 + 0xA000)
    else none
  match p with
  | .glob base stride c =>
    if a + n ≤ base then []
    else if stride = 0 then [(0, base)]
    else
      let i := (a - base) / stride
      ((List.range (if 8 ≤ stride then 2 else 4)).map (fun j => (i + j, base + stride * (i + j)))).filter (fun x => x.1 < c)
  | .port off => match port off with
    | some (q, at_, _) => [(q, at_)]
    | none => []
  | .portArr off stride c => match port off with
    | some (q, at_, r) => if r + n ≤ off then [] else
        let i := (r - off) / stride
        ([i, i + 1].filter (· < c)).map (fun j => (q * 4096 + j, at_ + stride * j))
    | none => []
  | .lane off =>
    let r := a % 0x100000
    if 0x2C00000 ≤ a && a < 0x2E00000 && off ≤ r && (r - off) / 8 < 9 then
      [((a - 0x2C00000) / 0x100000 * 16 + (r - off) / 8, a - r + off + (r - off) / 8 * 8)]
    else []
  | .chan off => if 0x200F000 ≤ a && a < 0x2010000 then [((a - 0x200F000) / 32, a - a % 32 + off)] else []
  | .pcie off => match block () with
    | some (i, b) => [(i, b + off)]
    | none => []
  | .pcieSub off => match block () with
    | some (i, b) => [(i * 2, b + off), (i * 2 + 1, b + 0x80 + off)]
    | none => []
  | _ => []

/-- Copies of a field in the lower part of a function's register space. -/
def lowHits (d : Ix9) (f : Nat) (p : Place) (a : Nat) : List (Nat × Nat) :=
  let chan : Option (Nat × Nat) :=
    if 0x10000 ≤ a && a < 0x11000 then some ((a - 0x10000) / 0x80, a - a % 0x80)
    else if f = 0 && 0x18000 ≤ a && a < 0x19000 then some ((a - 0x18000) / 0x80 + 32, a - a % 0x80)
    else none
  match p with
  | .func off => [(f, off)]
  | .admin off => if hasAdmin f then [(f, off)] else []
  | .pfz off => if f = 0 then [(0, off)] else []
  | .ifz off => if f = fIF0 then [(0, off)] else []
  | .chan off =>
    let c := (a - 0x2000) / 32
    if 0x2000 ≤ a && a < 0x3000 && rget d Fld.STRIDE_CH_CFG_OWNER c = f then [(c, a - a % 32 + off)] else []
  | .mbox off => match chan with
    | some (c, b) => [(c, b + off)]
    | none => []
  | .mboxData => match chan with
    | some (c, b) => if a - b < 64 then [(c * 16 + (a - b) / 4, a - a % 4), (c * 16 + (a - b) / 4 + 1, a - a % 4 + 4)] else []
    | none => []
  | _ => []

/-- The island holds the field's register, or one of several does (R559). -/
def fieldIslands (d : Ix9) (fld : Fld) (i a : Nat) : List Nat :=
  if a < 0x2000000 then (match fld.place with | .chan _ => [iXPORT (chanTile d i)] | _ => [])
  else
    let u := (a - 0x2000000) / 0x100000
    let off := a % 0x100000
    match fld.place with
    | .chan _ => [iXPORT (chanTile d i)]
    | .glob base stride _ =>
      if u = 0 && base < 0x2100000 && stride < 0x100000 then [iXLATE 0]
      else if u = 4 && stride < 0x100000 then [iXLATE 0]
      else if u < 4 then
        (if 0xC000 ≤ off && off < 0xD000 then [iCOLL u] else if 0xD000 ≤ off && off < 0xE000 then [iMARA u] else [iXPORT u])
      else if u = uCIPHER && stride = 0x40 then [iCIPH i]
      else unitIslands d.code u
    | _ => unitIslands d.code u

/-- The field reads and takes writes: its unit is present (R4), its port exists (R225), and an island that holds it is
ready (R559). -/
def fieldLive (d : Ix9) (fld : Fld) (i a : Nat) : Bool :=
  let isl := fieldIslands d fld i a
  (a < 0x2000000 || present d ((a - 0x2000000) / 0x100000)) && (isl.isEmpty || isl.any (islandReady d))
    && (match fld.place with | .port _ => portExists d i | .portArr _ _ _ => portExists d (i / 4096) | _ => true)

/-- The bits of a field and of an access overlap: the register lies at `b`, the access covers bytes [a, a + n). -/
def fieldOverlaps (fld : Fld) (b a n : Nat) : Bool := 8 * b + fld.lsb < 8 * (a + n) && 8 * a ≤ 8 * b + fld.msb

/-- The fields an access of a function touches: field, instance, address of the register. -/
def fieldHits (d : Ix9) (f a n : Nat) : List (Fld × Nat × Nat) :=
  if 0x2000000 ≤ a && f != 0 then []
  else
    (Fld.all.flatMap (fun fld =>
      ((if 0x2000000 ≤ a then setupHits fld.place a n else lowHits d f fld.place a).filter (fun x => fieldOverlaps fld x.2 a n)).map
        (fun x => (fld, x.1, x.2)))).filter (fun x => fieldLive d x.1 x.2.1 x.2.2)

/-! ## Reads -/

/-- The head of a port's timestamp FIFO (R271). -/
def tsHead (d : Ix9) (p : Nat) : Option (Nat × Nat × Nat × Nat × Nat) := (portOf d p).tsFifo.head?

/-- FUNC_QUOTA_PENDING of a function: bit r for resource r. -/
def pendBits (d : Ix9) (f : Nat) : Nat := (List.range 14).foldl (fun a i => a + b2n (quotaPending d f (i + 1)) * 2 ^ i) 0

/-- Behaviour levels of the running firmware; the silicon provides every level. -/
def behavLevels (d : Ix9) : Nat := (((slotImage d (rget d Fld.FW_STATUS_RUNNING)).map (·.levels)).getD 0) % 8

/-- Fields whose value follows from other state; none: the register file holds it. -/
def derived (d : Ix9) (fld : Fld) (i : Nat) : Option Nat :=
  let is (g : Fld) : Bool := fld.id == g.id
  if is Fld.DEV_ID_CODE then some d.code
  else if is Fld.DEV_ID_STEPPING then some d.nvm.stepping
  else if is Fld.FUNC_ID_ID then some i
  else if is Fld.FUNC_ID_VF then some (b2n (isVf i))
  else if is Fld.FUNC_ID_INTERNAL then some (b2n (i = fIF0))
  else if is Fld.FUNC_ID_PF then some (parentPf i)
  else if is Fld.UNITS_PRESENT then some (unitsOf d.code)
  else if is Fld.READY_MAP then some (readyMap d)
  else if is Fld.ISLAND_READY then
    some ((List.range 38).foldl (fun a k => a + b2n (islandReady d k && !d.off.contains k) * 2 ^ k) 0)
  else if is Fld.BEHAV_LEVEL_CURRENT || is Fld.BEHAV_LEVEL_NEXT || is Fld.BEHAV_LEVEL_BUSY then some (rget d fld 0)
  else if is Fld.BEHAV_LEVEL_LEVELS then some (behavLevels d)
  else if is Fld.SERIAL then some d.nvm.serial
  else if is Fld.SB_STATUS_UNLOCKED then some (b2n (d.nvm.debug || d.mon.unlocked))
  else if is Fld.VAULT_STATUS_DRK then some (b2n d.ciph.drk.isSome)
  else if is Fld.CONN_PINNED then some (pinsOn d i)
  else if is Fld.CONN_MISS_BYTES then some (missBytes d i)
  else if is Fld.CONN_STEER_V then some (b2n (i < rget d Fld.CONN_CFG_BLOCKS))
  else if is Fld.FAB_STATUS_LIVE_CONN then some (liveConns d)
  else if is Fld.FUNC_QUOTA_PENDING || is Fld.FUNC_QUOTA_PEND_ALL then some (pendBits d i)
  else if is Fld.FUNC_LANE_WEIGHT then some ((List.range 7).foldl (fun a n => a + funcWeight d i (n + 1) % 256 * 2 ^ (8 * n)) 0)
  else if is Fld.LM_POOL_TOTAL then some (poolTotal d)
  else if is Fld.LM_POOL_FREE then some (poolFree d)
  else if is Fld.LM_FUNC_UNITS then some (lmUnits d i).length
  else if is Fld.COLL_ACTIVE then some (d.h.heats.filter (fun (k, h) => k < localBase && h.tile == i && !h.finished)).length
  else if is Fld.MARA_ACTIVE then some (d.h.heats.filter (fun (_, h) => h.tile == i && !h.finished && h.att.isSome)).length
  else if is Fld.MARA_SEQS then some (d.h.seqs.filter (fun (_, s) => s.tile == i)).length
  else if is Fld.PWR_CLK_XPORT then some (clockShown d i 3)
  else if is Fld.PWR_CLK_COLL then some (clockShown d i 2)
  else if is Fld.PWR_CLK_MARA then some (clockShown d i 1)
  else if is Fld.PWR_CLK_SVC then some (clockShown d i 0)
  else if is Fld.ETH_TS_FIFO_SEQ_ID then some (((tsHead d i).map (fun x => x.1)).getD 0)
  else if is Fld.ETH_TS_FIFO_MSG_TYPE then some (((tsHead d i).map (fun x => x.2.1)).getD 0)
  else if is Fld.ETH_TS_FIFO_DOMAIN then some (((tsHead d i).map (fun x => x.2.2.1)).getD 0)
  else if is Fld.ETH_TS_SEC then some (((tsHead d i).map (fun x => x.2.2.2.1)).getD 0)
  else if is Fld.ETH_TS_NS then some (((tsHead d i).map (fun x => x.2.2.2.2)).getD 0)
  else if is Fld.ETH_TS_FIFO_VALID then some (b2n (tsHead d i).isSome)
  else none

/-- Fields of an accelerator port that only a root port has (R552, R553). -/
def rootField (fld : Fld) : Bool :=
  [Fld.PCIE_ACK_STATUS_CPL_DMWR, Fld.PCIE_ACK_STATUS_ROUTE_DMWR, Fld.PCIE_ACK_STATUS_CPL_ATOMIC, Fld.PCIE_ACK_STATUS_ROUTE_ATOMIC,
   Fld.ACC_CPL_TIMEOUT, Fld.ACC_DB_BASE, Fld.ACC_CFG_ADDR_REG, Fld.ACC_CFG_ADDR_FN, Fld.ACC_CFG_ADDR_DEV, Fld.ACC_CFG_ADDR_BUS,
   Fld.ACC_CFG_ADDR_SUBLINK, Fld.ACC_CFG_DATA].any (fun g => g.id == fld.id)

/-- The field is hidden: it is one of a root port, and its port is none. -/
def rootHidden (d : Ix9) (fld : Fld) (i : Nat) : Bool :=
  rootField fld && (match fld.place with
    | .pcieSub _ => i < 2 || !isRoot d (i / 2 - 1)
    | _ => !isRoot d i)

/-- DATA of a mailbox channel reads 0 for anyone but the owner and the target of its request (R459). -/
def mboxHidden (d : Ix9) (f : Nat) (fld : Fld) (i : Nat) : Bool :=
  fld.id == Fld.MBOX_DATA.id && !(rflag d Fld.MBOX_STATUS_CLAIMED (i / 16) && mboxOwner d (i / 16) = f) && !mboxIsTarget d f (i / 16)

/-- What a read of a field returns to a function (R11, R12). -/
def fieldValue (d : Ix9) (f : Nat) (fld : Fld) (i : Nat) : Nat :=
  if fld.acc = .wo || rootHidden d fld i || mboxHidden d f fld i then 0 else (derived d fld i).getD (rget d fld i) % 2 ^ fld.width

/-- Aligned accesses of 4 or 8 bytes are taken (R538). -/
def regSized (a n : Nat) : Bool := (n = 4 || n = 8) && a % n = 0

/-- The queue status word of a DB_INDEX (R557). -/
def statusWord (d : Ix9) (f i : Nat) : Nat :=
  match sqByDb d f i, cqByDb d f i, eqByDb d f i with
  | some (_, s), _, _ => s.consumed % 2 ^ 32
  | _, some (_, c), _ => c.prod % 2 ^ 32
  | _, _, some (_, e) => b2n (!e.waiting.isEmpty) + b2n e.arm * 2
  | _, _, _ => 0

/-- Base of a function's queue status window and doorbells (R82, R557). -/
def statusBase (f : Nat) : Nat := if isVf f then 0x40000 else 0x400000
def dbBase (f : Nat) : Nat := if isVf f then 0x80000 else 0x1000000

def inDoorbells (f a : Nat) : Bool := dbBase f ≤ a && a < dbBase f + 8 * 65536
def inStatus (f a : Nat) : Bool := statusBase f ≤ a && a < statusBase f + 4 * 65536

/-- A Photo finish bank window (R492): the bank, and the address of the counter its offset names. -/
def photoWindow (d : Ix9) (f a : Nat) : Option (Nat × Nat) :=
  if f != 0 then none
  else if 0x800000 ≤ a && a < 0x900000 then some (0, 0x2000000 + rget d Fld.PHOTO_VIEW_UNIT0 * 0x100000 + (a - 0x800000))
  else if 0x900000 ≤ a && a < 0xA00000 then some (1, 0x2000000 + rget d Fld.PHOTO_VIEW_UNIT1 * 0x100000 + (a - 0x900000))
  else none

/-- A value of an access put together from fields: `val` gives each one's value. -/
def gather (hits : List (Fld × Nat × Nat)) (a n : Nat) (val : Fld → Nat → Nat) : Nat :=
  (hits.foldl (fun v (fld, i, b) =>
    let x := val fld i
    v + (if 8 * a ≤ 8 * b + fld.lsb then x * 2 ^ (8 * b + fld.lsb - 8 * a) else x / 2 ^ (8 * a - 8 * b - fld.lsb) % 2 ^ (8 * n))) 0)
    % 2 ^ (8 * n)

/-- Copies of a bank read through its window; nothing is cleared. Before VALID sets, the copies taken so far, and 0 for the
rest (R69; DESIGN CHOICE, log entry 58). -/
def photoRead (d : Ix9) (b a n : Nat) : Nat :=
  let hits := Fld.all.flatMap (fun fld => if fld.acc != .rc then [] else
    ((setupHits fld.place a n).filter (fun x => fieldOverlaps fld x.2 a n)).map (fun x => (fld, x.1, x.2)))
  gather hits a n (fun fld i => num (bankOf d b).copy (regKey fld i))

/-- The field lies whole within the access. -/
def wholly (fld : Fld) (b a n : Nat) : Bool := 8 * a ≤ 8 * b + fld.lsb && 8 * b + fld.msb < 8 * (a + n)

/-- Words of the MSI-X table and the pending-bit array (R101, R536). -/
def msixRead (d : Ix9) (f a : Nat) : Nat :=
  let fn := funcOf d f
  if a < 0x8000 then
    let (addr, data, masked) := (look fn.msix (a / 16)).getD (0, 0, true)
    (match a / 4 % 4 with | 0 => addr % 2 ^ 32 | 1 => addr / 2 ^ 32 % 2 ^ 32 | 2 => data | _ => b2n masked)
  else if a < 0x8100 then (List.range 32).foldl (fun v i => v + b2n (fn.pba.contains ((a - 0x8000) * 8 + i)) * 2 ^ i) 0
  else 0

/-- A write of a word of the MSI-X table; an unmasked vector sends its pending message. -/
def msixWrite (d : Ix9) (f a v : Nat) : Ix9 :=
  if 0x8000 ≤ a then d
  else
    let k := a / 16
    let (addr, data, masked) := (look (funcOf d f).msix k).getD (0, 0, true)
    let e := (match a / 4 % 4 with
      | 0 => (v + addr / 2 ^ 32 * 2 ^ 32, data, masked)
      | 1 => (addr % 2 ^ 32 + v * 2 ^ 32, data, masked)
      | 2 => (addr, v, masked)
      | _ => (addr, data, v % 2 == 1))
    let d := updFunc d f (fun fn => { fn with msix := put fn.msix k e })
    if e.2.2 || !(funcOf d f).pba.contains k then d
    else msixSend (updFunc d f (fun fn => { fn with pba := fn.pba.filter (· != k) })) f k

/-- Offset in the MSI-X space: BAR2 of a host function, 0x200_0000 of IF0's window (R451). -/
def msixOffset (f : Nat) (bar2 : Bool) (a : Nat) : Option Nat :=
  if f = fIF0 then (if 0x2000000 ≤ a && a < 0x2010000 then some (a - 0x2000000) else none)
  else if bar2 then some a else none

/-- The function reaches its registers: IF0 from the service cores, the others over the host port. -/
def regReach (d : Ix9) (f : Nat) : Bool := funcExists f && (f = fIF0 || islandReady d 7)

/-- A read of a function's register space; `clear`: RC fields clear (R12). A 64-bit counter clears on an 8-byte read
(R280). -/
def regGet (d : Ix9) (f : Nat) (bar2 : Bool) (a n : Nat) (clear : Bool) : Ix9 × Nat :=
  if !regSized a n then (d, 0)
  else
    match msixOffset f bar2 a with
    | some x => (d, (msixRead d f x + (if n = 8 then msixRead d f (x + 4) * 2 ^ 32 else 0)))
    | none =>
      if bar2 || inDoorbells f a then (d, 0)
      else if inStatus f a then
        (d, statusWord d f ((a - statusBase f) / 4) + (if n = 8 then statusWord d f ((a - statusBase f) / 4 + 1) * 2 ^ 32 else 0))
      else
        match photoWindow d f a with
        | some (b, x) => (d, photoRead d b x n)
        | none =>
          let hits := fieldHits d f a n
          let v := gather hits a n (fun fld i => fieldValue d f fld i)
          let d := if clear then
              hits.foldl (fun d (fld, i, b) => if fld.acc = .rc && wholly fld b a n then rset d fld i 0 else d) d
            else d
          (d, v)

/-- A register read by a function. -/
def regRead (d : Ix9) (f : Nat) (bar2 : Bool) (a n : Nat) : Ix9 × Nat :=
  if regReach d f then regGet d f bar2 a n true else (d, 0)

/-- A read of DATA of a channel in DOMAIN_DOWN gets an error response (R461). -/
def readsDown (d : Ix9) (f a n : Nat) : Bool :=
  (fieldHits d f a n).any (fun x => x.1.id == Fld.MBOX_DATA.id && rflag d Fld.MBOX_STATUS_DOMAIN_DOWN (x.2.1 / 16))

/-- RC_COUNTER_READ: a register read of a function. An 8-byte read of ETH_TS_SEC pops the head entry (R279). -/
def regReadOut (d : Ix9) (f : Nat) (bar2 : Bool) (a n : Nat) : Ix9 :=
  if regReach d f && !bar2 && regSized a n && readsDown d f a n then
    emit d (if f = fIF0 then .hart true [] else .completion 0 false)
  else
    let (e, v) := regRead d f bar2 a n
    let hits := if regReach d f && !bar2 && regSized a n && n = 8 && 0x2000000 ≤ a && f = 0 then
      (setupHits Fld.ETH_TS_SEC.place a n).filter (fun x => fieldOverlaps Fld.ETH_TS_SEC x.2 a n && fieldLive d Fld.ETH_TS_SEC x.1 x.2) else []
    emit (hits.foldl (fun d x => updPort d x.1 (fun s => { s with tsFifo := s.tsFifo.drop 1 })) e) (.value v)

/-! ## Writes -/

/-- `old` with the part that an access carries replaced (R560): the register lies at `b` (DEDUCED, log entry 50). -/
def fieldNew (fld : Fld) (b a n v old : Nat) : Nat :=
  let at_ := 8 * b + fld.lsb
  if 8 * a ≤ at_ then setBits old (min fld.width (8 * (a + n) - at_) - 1) 0 (v / 2 ^ (at_ - 8 * a))
  else
    let o := 8 * a - at_
    setBits old (o + min (fld.width - o) (8 * n) - 1) o v

/-- The lock of an RWL field is set (R12). -/
def locked (d : Ix9) (fld : Fld) (i : Nat) : Bool :=
  let is (l : List Fld) : Bool := l.any (fun g => g.id == fld.id)
  if is [Fld.ADMIN_SQ_BASE_ADDR, Fld.ADMIN_CQ_BASE_ADDR, Fld.ADMIN_EQ_BASE_ADDR, Fld.ADMIN_CFG_SQ_LOG2, Fld.ADMIN_CFG_CQ_LOG2,
         Fld.ADMIN_CFG_EQ_LOG2, Fld.ADMIN_CFG_LOC] then rflag d Fld.ADMIN_CTRL_ENABLE i
  else if is [Fld.CONN_SPILL_BASE_ADDR, Fld.CONN_CFG_BLOCKS] then rflag d Fld.CONN_CTRL_LOCK
  else if is [Fld.COLL_CHUNK_LOG2] then rflag d Fld.COLL_CTRL_LOCK
  else if is [Fld.SVC_MEM_PORT, Fld.SVC_MEM_BASE, Fld.SVC_MEM_SIZE] then rflag d Fld.SVC_MEM_LOCK
  else if is [Fld.THERM_CFG_TRIP] then rflag d Fld.THERM_CFG_LOCK
  else if is [Fld.SB_CFG_RX_OFF] then rflag d Fld.SB_CFG_RX_OFF
  else rflag d Fld.XLATE_CTRL_LOCK

/-- The shares of a native port's lanes are acceptable (R230): at least 65 credits each, at most 256 in all. -/
def sharesOk (d : Ix9) (p v : Nat) : Bool :=
  let s := (List.range 8).map (fun n => bits v (8 * n + 7) (8 * n))
  s.all (fun x => 65 ≤ x * (laneWidth d (p / 8) * 4096) / 256) && s.foldl (· + ·) 0 ≤ 256

/-- PWR_CAP_ORDER after a write: a nibble that repeats an earlier one keeps its old value. -/
def orderNew (old new : Nat) : Nat :=
  (List.range 4).foldl (fun v i =>
    let x := bits new (4 * i + 3) (4 * i)
    if (List.range i).any (fun j => bits v (4 * j + 3) (4 * j) == x) then v else setBits v (4 * i + 3) (4 * i) x) old

/-- The epoch tables' entry lies in a table that ignores writes (R246). -/
def epochLocked (d : Ix9) (fld : Fld) (i : Nat) : Bool :=
  let is (l : List Fld) : Bool := l.any (fun g => g.id == fld.id)
  let per := if is [Fld.FAB_GROUP_PORTS, Fld.FAB_GROUP_V, Fld.FAB_GROUP_HOP_OK] then 512
    else if is [Fld.FAB_MEMBER_PORTS, Fld.FAB_MEMBER_V] then 256
    else if is [Fld.FAB_MC_GROUP, Fld.FAB_MC_V, Fld.FAB_MC_NET, Fld.FAB_MC_TILES, Fld.FAB_MC_WIN, Fld.FAB_MC_WINDOW] then 4096
    else 0
  per != 0 && rflag d Fld.FAB_CTRL_FWD_EN && epochRouted d (i / per)

/-- The value a plain write leaves in an RW or RWL field (R582 and the rules that differ from it). `view`: the write goes to
a channel's view in its owner's space. -/
def storedValue (d : Ix9) (fld : Fld) (i new : Nat) (view : Bool) : Nat :=
  let is (l : List Fld) : Bool := l.any (fun g => g.id == fld.id)
  let old := rget d fld i
  if new < fld.lo || fld.hi < new || rootHidden d fld i || (fld.acc = .rwl && locked d fld i) || epochLocked d fld i then old
  else if is [Fld.ETH_SPARE_MAP_FAILED, Fld.ETH_SPARE_MAP_USED] then
    (if (List.range 8).any (fun p => portUp d (8 * i + p)) then old else new)
  else if is [Fld.GATE_LIST] then
    (let p := i / 4096
     if i % 4096 / 1024 = gateActive d p || rflag d Fld.GATE_STATUS_SWAP_PENDING p then old else setBits new 31 11 0)
  else if is [Fld.GATE_PEND_BASE, Fld.GATE_PEND_CYCLE, Fld.GATE_PEND_LEN] then
    (if rflag d Fld.GATE_STATUS_SWAP_PENDING i then old else new)
  else if is [Fld.STRIDE_CH_CFG_PORT, Fld.STRIDE_CH_CFG_DIR, Fld.STRIDE_CH_CFG_REQ_LINE, Fld.STRIDE_CH_CFG_BURST_LOG2,
              Fld.STRIDE_CH_CFG_IX4_STOP] then (if view || has d.stride i then old else new)
  else if is [Fld.LINK_CRED_SHARE] then (if sharesOk d i new then new else old)
  else if is [Fld.FAB_LANE_CFG_MIN_ONLY] then setBit new 0 true
  else if is [Fld.PWR_CAP_ORDER] then orderNew old new
  else if is [Fld.PCIE_ACK_CFG_DMWR_EN, Fld.PCIE_ACK_CFG_ATOMIC_EN] then (if i != 0 && isRoot d (i - 1) then old else new)
  else new

/-- RW fields whose write is a command of its own; the register file takes nothing here. -/
def ownWrite (fld : Fld) : Bool :=
  [Fld.ADMIN_CTRL_ENABLE, Fld.GATE_CTRL_EN, Fld.LINK_CFG_NATIVE, Fld.LINK_CFG_RETRY_MAX, Fld.FAB_EPOCH_CUR, Fld.ETH_GRP_CFG_MODE,
   Fld.BEHAV_LEVEL_NEXT, Fld.MBOX_DATA, Fld.MBOX_CTRL_IRQ, Fld.MBOX_CTRL_TARGET, Fld.EXC_TX_PROD, Fld.ACC_CFG_DATA].any
    (fun g => g.id == fld.id)

/-- A field takes a write by its access code (R12). -/
def writeField (d : Ix9) (fld : Fld) (i b a n v : Nat) : Ix9 :=
  let old := rget d fld i
  match fld.acc with
  | .rw | .rwl =>
    if ownWrite fld then d
    else
      let new := storedValue d fld i (fieldNew fld b a n v old) (a < 0x2000000)
      rset (if fld.id = Fld.METER_EN.id && old = 0 && new = 1 then meterFill d i else d) fld i new
  | .w1c => rset d fld i ((List.range fld.width).foldl (fun x j => if flag (fieldNew fld b a n v 0) j then setBit x j false else x) old)
  | _ => d

/-- What else a write of a field does: triggers and writes that are commands of their own. -/
def writeEffect (m : List Host.Cell) (d : Ix9) (f : Nat) (fld : Fld) (i b a n v : Nat) : Ix9 :=
  let is (g : Fld) : Bool := fld.id == g.id
  let w := fieldNew fld b a n v 0
  let new := fieldNew fld b a n v (rget d fld i)
  let on := w % 2 == 1
  let key := bits v 31 16
  if is Fld.ADMIN_CTRL_ENABLE then (if on then adminEnable d i else adminDisable d i)
  else if is Fld.XLATE_CTRL_LOCK then (if on then xlateLock d else d)
  else if is Fld.CONN_CTRL_LOCK || is Fld.COLL_CTRL_LOCK || is Fld.SVC_MEM_LOCK || is Fld.THERM_CFG_LOCK then
    (if on then rset d fld i 1 else d)
  else if is Fld.GATE_CTRL_EN then
    (if on then (if rflag d Fld.GATE_CTRL_EN i then d else gateEnable d i) else gateDisable d i)
  else if is Fld.GATE_CTRL_SWAP_REQ then (if on then swapReq d i else d)
  else if is Fld.LINK_CFG_NATIVE then linkCfgWrite d i (new + rget d Fld.LINK_CFG_RETRY_MAX i * 2 ^ 8)
  else if is Fld.LINK_CFG_RETRY_MAX then linkCfgWrite d i (rget d Fld.LINK_CFG_NATIVE i + new * 2 ^ 8)
  else if is Fld.FAB_EPOCH_CUR then epochCurWrite d new
  else if is Fld.ETH_LS_EN then (if on then d else updPort d i (fun s => { s with shedLow := 0 }))
  else if is Fld.FAB_CTRL_FWD_EN then (if on then d else pairsToCur d)
  else if is Fld.FAB_EPOCH_COMMIT then (if on then epochCommit d else d)
  else if is Fld.FAB_EPOCH_FLIP then (if on then epochFlip d else d)
  else if is Fld.ETH_GRP_CFG_MODE then grpMode d i new
  else if is Fld.ETH_SPARE_CTRL_REQ then (if on then spareReq d i (rget d Fld.ETH_SPARE_CTRL_LANE i) else d)
  else if is Fld.ETH_PREEMPT_EN || is Fld.ETH_PREEMPT_VERIFY_DIS then preemptFollow d i
  else if is Fld.LM_REPAIR_CTRL_ROW_REQ then (if on then rowReq d i else d)
  else if is Fld.LM_REPAIR_CTRL_PIN_REQ then (if on then pinReq d i else d)
  else if is Fld.STRIDE_CH_CTRL_PAUSE then (if on then stridePause d i else d)
  else if is Fld.STRIDE_CH_CTRL_RESUME then (if on then strideResume d i else d)
  else if is Fld.STRIDE_CH_CTRL_STOP then (if on then strideStop d i else d)
  else if is Fld.FUNC_RESET_GO then (if on then funcResetGo d (rget d Fld.FUNC_RESET_ID) else d)
  else if is Fld.SVC_CTRL_RESTART then svcRestart d w
  else if is Fld.MBOX_DATA then mboxWrite d f (i / 16) (i % 16) w
  else if is Fld.MBOX_CTRL_TARGET then mboxWrite d f i 16 (v % 64)
  else if is Fld.RESET_CTRL_WARM then (if on then resetCtrl d false key else d)
  else if is Fld.RESET_CTRL_COLD then (if on then resetCtrl d true key else d)
  else if is Fld.ENG_RESET_GO then (if on then engResetGo d (rget d Fld.ENG_RESET_TILE) (rget d Fld.ENG_RESET_ENGINE) else d)
  else if is Fld.QUEUE_RESET_GO then (if on then queueResetGo d (rget d Fld.QUEUE_RESET_SQ_ID) else d)
  else if is Fld.HOST_HB then hostHb d
  else if is Fld.EVAC_CTRL_GO then
    (if on then evacGo d (rget d Fld.EVAC_CTRL_SRC) (rget d Fld.EVAC_CTRL_DST) (rflag d Fld.EVAC_CTRL_MODE) else d)
  else if is Fld.PHOTO_CTRL_ARM0 then (if on then photoArm d 0 else d)
  else if is Fld.PHOTO_CTRL_ARM1 then (if on then photoArm d 1 else d)
  else if is Fld.BEHAV_LEVEL_NEXT then behavWrite d f new
  else if is Fld.PWR_CTRL_STANDBY then (if on then standbyWrite d key else d)
  else if is Fld.ACC_PORT_CTRL_RESCAN then (if on then rescan d i else d)
  else if is Fld.ACC_PORT_CTRL_DPC_RELEASE then (if on then dpcRelease d i else d)
  else if is Fld.ACC_CFG_DATA then accCfg d i (some new) none
  else if is Fld.EXC_TX_PROD then excTxProd m d new
  else if is Fld.PCIE_ACK_CFG_DMWR_EN then
    (if i != 0 && isRoot d (i - 1) then d else rset d Fld.PCIE_ACK_STATUS_USE_DMWR (i * 2) (rget d Fld.PCIE_ACK_CFG_DMWR_EN i))
  else if is Fld.PCIE_ACK_CFG_ATOMIC_EN then
    (if i != 0 && isRoot d (i - 1) then d else rset d Fld.PCIE_ACK_STATUS_USE_ATOMIC (i * 2) (rget d Fld.PCIE_ACK_CFG_ATOMIC_EN i))
  else if is Fld.METER_CBS || is Fld.METER_PBS then meterClip d i
  else if is Fld.CONN_CFG_BLOCKS then (if new = rget d fld i then capacityEvent d rCONN else d)
  else d

/-- A write to a function's register space. Every field of the access takes its part first, then come the effects. -/
def regPut (m : List Host.Cell) (d : Ix9) (f : Nat) (bar2 : Bool) (a n v : Nat) : Ix9 :=
  if !bar2 && inDoorbells f a then doorbell d f ((a - dbBase f) / 8) (n = 8 && a % 8 = 0) v
  else if !regSized a n then d
  else
    match msixOffset f bar2 a with
    | some x => let d := msixWrite d f x (v % 2 ^ 32); if n = 8 then msixWrite d f (x + 4) (v / 2 ^ 32 % 2 ^ 32) else d
    | none =>
      if bar2 || inStatus f a || (photoWindow d f a).isSome then d
      else
        let hits := fieldHits d f a n
        let e := hits.foldl (fun d (fld, i, b) => writeField d fld i b a n v) d
        hits.foldl (fun d (fld, i, b) => writeEffect m d f fld i b a n v) e

/-- REGISTER_WRITE: a write of a function. -/
def regWrite (m : List Host.Cell) (d : Ix9) (f : Nat) (bar2 : Bool) (a n v : Nat) : Ix9 :=
  if regReach d f then regPut m d f bar2 a n v else d

end Sys2Proof.Machine
end

