-- ==== Sys2Proof/Machine/Monitor.lean ====
section
/-!
DEFINITION. Starting Blocks (R465 to R468): its commands with their arguments read. A response is the values its lines show
and its code (DESIGN CHOICE, log entry 6).
-/

namespace Sys2Proof.Machine

/-- The monitor runs and reads input (R465, R468). -/
def sbListens (d : Ix9) : Bool := unitReady d uMGMT && !rflag d Fld.SB_CFG_RX_OFF

def sbAnswer (d : Ix9) (values : List Nat) : Ix9 := emit d (.monitor values 0)
def sbErr (d : Ix9) (code : Nat) : Ix9 := emit d (.monitor [] code)

/-- A command that is not gated. -/
def sbFree (d : Ix9) (run : Ix9 → Ix9) : Ix9 := if sbListens d then run d else d

/-- A gated command runs with the debug fuse blown or while an unlock is in force. -/
def sbGated (d : Ix9) (run : Ix9 → Ix9) : Ix9 :=
  sbFree d (fun d => if d.nvm.debug || d.mon.unlocked then run d else sbErr d 0x03)

/-- HELP: the list of commands. The spec gives no text. -/
def sbHelp (d : Ix9) : Ix9 := sbFree d (fun d => sbAnswer (emit d (.uart (Config.text 64))) [])

def sbVer (d : Ix9) : Ix9 := sbFree d (fun d => sbAnswer d (versionWords d ++ [d.code, d.nvm.serial]))

/-- Code of a bad word address of PF0's BAR0, whose registers lie below 0x0400_0000: 0x02 for one that is not aligned or
lies outside, 0x04 for one of a unit that is absent or not ready; none where it may be accessed (DESIGN CHOICE, log entry 43). -/
def sbAddr (d : Ix9) (a : Nat) : Option Nat :=
  if a % 4 != 0 || 0x4000000 ≤ a then some 0x02
  else if a < 0x2000000 then none
  else
    let u := (a - 0x2000000) / 0x100000
    if u < 25 && present d u && (unitIslands d.code u).any (islandReady d) then none else some 0x04

/-- RD: `count` words from an offset. -/
def sbRd (d : Ix9) (off count : Nat) : Ix9 :=
  sbFree d (fun d =>
    if count = 0 || 256 < count then sbErr d 0x02
    else match (List.range count).findSome? (fun i => sbAddr d (off + 4 * i)) with
      | some e => sbErr d e
      | none => sbAnswer d ((List.range count).map (fun i => (regGet d 0 false (off + 4 * i) 4 false).2)))

/-- WR: one word, written as PF0. -/
def sbWr (m : List Host.Cell) (d : Ix9) (off v : Nat) : Ix9 :=
  sbGated d (fun d => match if v < 2 ^ 32 then sbAddr d off else some 0x02 with
    | some e => sbErr d e
    | none => sbAnswer (regPut m d 0 false off 4 v) [])

def sbMap (d : Ix9) : Ix9 :=
  sbFree d (fun d => sbAnswer d [unitsOf d.code, readyMap d, fieldValue d 0 Fld.ISLAND_READY 0])

/-- Values ERR shows of a unit. -/
def sbErrOf (d : Ix9) (u : Nat) : List Nat := [rget d Fld.ERR_FIRST u, rget d Fld.ERR_NEXT u, rget d Fld.ERR_COUNT u]

/-- ERR: of one unit, or of every unit present. -/
def sbErrs (d : Ix9) (unit : Option Nat) : Ix9 :=
  sbFree d (fun d => match unit with
    | none => sbAnswer d (((List.range 25).filter (present d)).flatMap (sbErrOf d))
    | some u => if 25 ≤ u then sbErr d 0x02 else if !present d u then sbErr d 0x04 else sbAnswer d (sbErrOf d u))

/-- CNT: the flags of a bank and its copies. -/
def sbCnt (d : Ix9) (b : Nat) : Ix9 :=
  sbFree d (fun d =>
    if 2 ≤ b then sbErr d 0x02
    else sbAnswer d ([rget d (photoFld b Fld.PHOTO_STATUS_VALID0 Fld.PHOTO_STATUS_VALID1),
      rget d (photoFld b Fld.PHOTO_LATE0 Fld.PHOTO_LATE1)] ++ (bankOf d b).copy.flatMap (fun (k, v) => [k, v])))

/-- PHOTO: for a PTP time, or for µs after now. The mask stays as it is. -/
def sbPhoto (d : Ix9) (b : Nat) (after : Bool) (t : Nat) : Ix9 :=
  sbGated d (fun d =>
    let at_ := if after then d.now + 1000 * t else t
    if 2 ≤ b || 2 ^ 64 ≤ at_ then sbErr d 0x02
    else sbAnswer (photoArm (rset d (photoFld b Fld.PHOTO_T0 Fld.PHOTO_T1) 0 at_) b) [])

/-- LOG: the last entries, 16 by default. -/
def sbLog (d : Ix9) (n : Option Nat) : Ix9 :=
  sbFree d (fun d => sbAnswer d ((d.rcv.log.take (n.getD 16)).flatMap (fun (w, u, s) => [w, u, s])))

def sbCon (d : Ix9) (tile : Nat) : Ix9 :=
  sbFree d (fun d =>
    if 4 ≤ tile then sbErr d 0x02
    else if !islandReady d (iSVC tile) then sbErr d 0x04
    else sbAnswer d (((look d.mon.console tile).getD []).map (·.toNat)))

/-- RESET: a domain that does not exist is a bad argument, one whose reset is under way is busy (DESIGN CHOICE, log entry 43). -/
def sbReset (d : Ix9) (what : SbReset) : Ix9 :=
  sbGated d (fun d => match what with
    | .queue k => if (sqAt d k).isSome then sbAnswer (queueResetGo d k) [] else sbErr d 0x02
    | .func f =>
      if !funcExists f then sbErr d 0x02
      else if rflag d Fld.FUNC_RESET_STATUS_BUSY then sbErr d 0x06
      else sbAnswer (funcResetGo d f) []
    | .engine t e => if 4 ≤ t || 7 ≤ e then sbErr d 0x02 else if tilesOf d.code ≤ t then sbErr d 0x04 else sbAnswer (engResetGo d t e) []
    | .tile t => if 4 ≤ t then sbErr d 0x02 else if tilesOf d.code ≤ t then sbErr d 0x04 else sbAnswer (engResetGo d t 7) []
    | .warm => resetCtrl (sbAnswer d []) false 0xC0DE
    | .cold => resetCtrl (sbAnswer d []) true 0xC0DE)

/-- BAUD: the rates of R465. -/
def sbBaud (d : Ix9) (rate : Nat) : Ix9 :=
  sbFree d (fun d =>
    if [115200, 230400, 460800, 921600, 1000000, 1500000, 2000000, 3000000].contains rate then
      let d := sbAnswer d []
      { d with mon := { d.mon with baud := rate } }
    else sbErr d 0x02)

/-- What an unlock token signs: serial number, nonce, minutes. The spec gives no layout: 8, 16 and 4 bytes, little-endian. -/
def unlockText (d : Ix9) (nonce minutes : Nat) : List Byte := leBytes 8 d.nvm.serial ++ leBytes 16 nonce ++ leBytes 4 minutes

/-- UNLOCK: prints a nonce (a free value), or checks a token with its minutes. -/
def sbUnlock (d : Ix9) (arg : Option (List Byte × Nat)) : Ix9 :=
  sbFree d (fun d =>
    if d.mon.lockout then sbErr d 0x06
    else match arg with
    | none =>
      let (x, d) := draw d
      let nonce := x % 2 ^ 128
      let d := { d with mon := { d.mon with nonce := some nonce } }
      sbAnswer d [nonce]
    | some (token, minutes) =>
      if token.length != 96 || minutes = 0 || 1440 < minutes then sbErr d 0x02
      else
        let ok := match d.mon.nonce with
          | some n => Config.verify d.nvm.unlockKey (unlockText d n minutes) token
          | none => false
        if ok then
          let d := { d with mon := { d.mon with nonce := none, unlocked := true, rejects := 0 } }
          sbAnswer d []
        else
          let r := d.mon.rejects + 1
          let d := { d with mon := { d.mon with nonce := none, rejects := if r = 3 then 0 else r, lockout := r = 3 } }
          sbErr d 0x05)

/-- An unlock ends: on LOCK, and when its minutes pass. -/
def unlockEnd (d : Ix9) : Ix9 := { d with mon := { d.mon with unlocked := false } }

def sbLock (d : Ix9) : Ix9 := sbFree d (fun d => sbAnswer (unlockEnd d) [])

/-- UNLOCK_LOCKOUT_END: 60 s have passed. -/
def lockoutEnd (d : Ix9) : Ix9 := { d with mon := { d.mon with lockout := false } }

end Sys2Proof.Machine
end

