-- ==== Sys2Proof/Machine/React.lean ====
section
/-!
DEFINITION. What follows a command inside the block, and the ways a command runs. A command whose effect other work of the
block may wait for is followed by `react`: engines hear of their messages, Heats and channels go on as far as they can
without anything from outside, what waited for room, state or the end of something proceeds, and resets begin. Landing
writes of a step are stored when it ends.
-/

namespace Sys2Proof.Machine

/-- An engine hears that a message of it has ended. -/
def msgEnded (d : Ix9) : Origin × Nat × Nat → Ix9
  | (.entry _ _, _, _) => d
  | (.left _, _, _) => d
  | (.heat key item, st, _) =>
    if key = ctrlBase then d
    else heatMsgEnded d key st ((((heatAt d key).bind (fun h => h.xfers[item / 2 ^ 20]?)).map (·.peer)).getD 0)
  | (.stride c, st, cause) => strideMsgEnded d c st cause

/-- The engines take what has been noted for them, at most `fuel` times in one step; the rest stays noted
(DESIGN CHOICE, log entry 52). -/
def hear (fuel : Nat) (m : List Host.Cell) (d : Ix9) : Ix9 :=
  match fuel with
  | 0 => d
  | fuel + 1 =>
    if d.c.ended.isEmpty && d.c.landed.isEmpty && d.h.mcLanded.isEmpty && d.h.faulted.isEmpty then d
    else
      let e := { d with c := { d.c with ended := [], landed := [] }, h := { d.h with mcLanded := [], faulted := [] } }
      let e := d.c.ended.foldl msgEnded e
      let e := d.c.landed.foldl (fun e (w, off, n, _) => collLanded m e w off n) e
      let e := d.h.mcLanded.foldl (fun e (w, off, n) => collMc m e w off n) e
      let e := d.h.faulted.foldl (fun e (w, cause, _) => collFaulted e w cause) e
      hear fuel m (stridesRun (attsRun m e))

/-- Connections: modifies and destroys that wait, creates, modifies and fills that wait for room, parked packets of a connection
that has gone to ERROR, answers that wait for their keys. -/
def connsGo (d : Ix9) : Ix9 :=
  let d := (d.c.conns.filter (fun x => !x.2.waiter.isEmpty)).foldl (fun d x => drainDone d x.1) d
  let d := unpinStray (retryFills (retryWaiters d))
  let dead := ((d.c.parked.map (·.conn)).eraseDups).filter (fun n => cachedConn d n && (connOf d n).state = csERROR)
  let d := dead.foldl runParked d
  (d.c.conns.filter (fun x => !x.2.ansWait.isEmpty)).foldl (fun d x => flushAnswers d x.1) d

/-! ## What commands ask before they act -/

/-- A function's write (or read) reaches a register: its space is reachable, and where the field lies in the set-up space,
its copy is live (DEDUCED, log entry 50). -/
def wrote (d : Ix9) (f : Nat) (fld : Fld) (i : Nat) : Bool :=
  regReach d f && (match setupAddr fld i with | some a => fieldLive d fld i a | none => true)

/-- The host port runs (R522). -/
def hostRunning (d : Ix9) : Bool := islandReady d 7 && !d.boot.perstLow

/-- An answer of a kind arrives: its header says so, or it is one that an AETH carries (R262). -/
def answerIn (d : Ix9) (op : Nat) (p : Pkt) : Ix9 :=
  let h := (pktHdr p).op
  if h = op || (h = 0x28 && (op = 0x20 || op = 0x23 || op = 0x24 || op = 0x26 || op = 0x27)) then rxPacket (takeArrived d p) p else d

/-- PCS_BLOCK_LOCK_LOSS: the link of a port goes down (R233). -/
def lockLost (d : Ix9) (p : Nat) : Ix9 :=
  if !portExists d p then d else if isNative d p then linkDown d p else if rflag d Fld.ETH_STATUS_UP p then ethFall d p else d

/-- What follows a command (DESIGN CHOICE, log entry 52). -/
def react (m : List Host.Cell) (d : Ix9) : Ix9 :=
  let d := hear 4 m (stridesRun (attsRun m (hear 4 m d)))
  let d := freshen (invSteps (connsGo (mcDrain d)))
  let d := lowerings ([0, 1, 2, 3, fIF0].foldl adminSettle d)
  let d := doeSettle (fwCtxDone (mboxSettle d))
  accPins (evacSettle (beginResets d))

/-! ## Landing memory at the end of a step -/

/-- The address lies in a range that has been zeroed. -/
def zapped (l : List (Nat × Nat)) (a : Nat) : Bool := l.any (fun (x, y) => x ≤ a && a < y)

/-- Stores what a step has written, and answers the machine after it. -/
def State.store (s : State) (d : Ix9) : State :=
  { s with
    dev := { d with wr := [], zap := [], sent := d.out.length, x := { d.x with found := none } }
    cells := storeAll (s.cells.filter (fun c => !zapped d.zap c.1)) d.wr }

/-- The machine with block `d`: nothing else has changed. -/
def State.only (s : State) (d : Ix9) : State := { s with dev := d }

/-- The machine after a command's own effect `d`, and what follows it. -/
def State.follow (s : State) (d : Ix9) : State := s.store (react s.cells d)

/-! ## How commands run -/

/-- What a command answers. -/
abbrev Result := Host.Outcome State Fault Refusal

/-- The command changes the block and neither landing memory nor anything that other work waits for. -/
def State.plain (s : State) (f : Ix9 → Ix9) : Result := .next (s.only (f s.dev))

/-- The command may write landing memory, as an event or completion in a ring there; nothing else follows. -/
def State.run (s : State) (f : Ix9 → Ix9) : Result := .next (s.store (f s.dev))

/-- The command is followed by `react`; `f` may read landing memory. -/
def State.act (s : State) (f : List Host.Cell → Ix9 → Ix9) : Result :=
  .next (s.follow (f s.cells s.dev))

end Sys2Proof.Machine
end

