-- ==== Sys2Proof/Machine/CmdCipher.lean ====
section
/-!
DEFINITION. Commands of the cipher slices and the Vault (R406 to R429). One definition per command: what it does to the block (the
meaning), and how it runs.
-/

namespace Sys2Proof.Machine

/-- SEAL (R407). -/
def execSealCommand (chan : Nat) (s : State) : Result :=
  s.run (fun d => fwSeal d chan)

/-- OP_KEY_BIND (R422). -/
def execOpKeyBind (sq slot : Nat) (r : ReadData) (s : State) : Result :=
  s.act (fun m d => keyBind m d sq slot r)

/-- OP_KEY_ROTATE (R421). -/
def execOpKeyRotate (sq slot : Nat) (s : State) : Result :=
  s.act (fun _ d => keyRotate d sq slot)

/-- OP_KEY_RETIRE (R422). -/
def execOpKeyRetire (sq slot : Nat) (s : State) : Result :=
  s.act (fun _ d => keyRetire d sq slot)

/-- VAULT_KEY_FETCH_DONE (R411). -/
def execVaultKeyFetchDone (tile conn dir epoch : Nat) (send : Bool) (s : State) : Result :=
  s.act (fun _ d => keyFetched d tile ⟨conn, dir, epoch, send⟩)

/-- TAG_FAIL_COUNT_EXPIRY (R418). -/
def execTagFailCountExpiry (conn : Nat) (s : State) : Result :=
  s.plain (fun d => tagExpiry d conn)

/-- DRBG_RESEED (R425). -/
def execDrbgReseed (s : State) : Result :=
  s.plain (fun d => drbgReseed d)

/-- HEALTH_TEST_FAIL (R426). -/
def execHealthTestFail (s : State) : Result :=
  s.act (fun _ d => healthFail d)

/-- VAULT_RETEST (R426). -/
def execVaultRetest (pass : Bool) (s : State) : Result :=
  s.act (fun _ d => vaultRetest d pass)

end Sys2Proof.Machine
end

