-- ==== Sys2Proof/Machine/CmdColl.lean ====
section
/-!
DEFINITION. Commands of collectives and of the Marathon engine (R281 to R361). One definition per command: what it does to the block (the
meaning), and how it runs.
-/

namespace Sys2Proof.Machine

/-- OP_ALL_REDUCE (R288). -/
def execOpAllReduce (sq slot : Nat) (s : State) : Result :=
  s.act (fun m d => opHeat m d 0x20 sq slot)

/-- OP_REDUCE_SCATTER (R288). -/
def execOpReduceScatter (sq slot : Nat) (s : State) : Result :=
  s.act (fun m d => opHeat m d 0x21 sq slot)

/-- OP_ALL_GATHER (R288). -/
def execOpAllGather (sq slot : Nat) (s : State) : Result :=
  s.act (fun m d => opHeat m d 0x22 sq slot)

/-- OP_REDUCE (R288). -/
def execOpReduce (sq slot : Nat) (s : State) : Result :=
  s.act (fun m d => opHeat m d 0x23 sq slot)

/-- OP_BROADCAST (R288). -/
def execOpBroadcast (sq slot : Nat) (s : State) : Result :=
  s.act (fun m d => opHeat m d 0x24 sq slot)

/-- OP_ALL_TO_ALL (R288). -/
def execOpAllToAll (sq slot : Nat) (s : State) : Result :=
  s.act (fun m d => opHeat m d 0x25 sq slot)

/-- OP_ALL_TO_ALLV (R289). -/
def execOpAllToAllv (sq slot : Nat) (s : State) : Result :=
  s.act (fun m d => opHeat m d 0x26 sq slot)

/-- OP_GROUP_BARRIER (R293). -/
def execOpGroupBarrier (sq slot : Nat) (s : State) : Result :=
  s.act (fun m d => opHeat m d 0x27 sq slot)

/-- OP_GROUP_SET (R282). -/
def execOpGroupSet (sq slot : Nat) (r : ReadData) (s : State) : Result :=
  s.act (fun m d => opGroupSet m d sq slot r)

/-- HEAT_CREDIT_RECEIVED (R296). -/
def execHeatCreditReceived (k : Packet) (s : State) : Result :=
  s.act (fun m d => ctrlReceived m d 1 k)

/-- HEAT_ABORT_RECEIVED (R304). -/
def execHeatAbortReceived (k : Packet) (s : State) : Result :=
  s.act (fun m d => ctrlReceived m d 2 k)

/-- ABORT_REPEAT_TIMER (R304). -/
def execAbortRepeatTimer (group epoch seq : Nat) (s : State) : Result :=
  s.act (fun _ d => abortRepeat d (heatKey group epoch seq))

/-- FINISH_UP_RECEIVED (R301). -/
def execFinishUpReceived (k : Packet) (s : State) : Result :=
  s.act (fun m d => ctrlReceived m d 3 k)

/-- RELEASE_RECEIVED (R301). -/
def execReleaseReceived (k : Packet) (s : State) : Result :=
  s.act (fun m d => ctrlReceived m d 4 k)

/-- QUERY_RECEIVED (R302). -/
def execQueryReceived (k : Packet) (s : State) : Result :=
  s.act (fun m d => ctrlReceived m d 5 k)

/-- QUERY_REPEAT_TIMER (R302). -/
def execQueryRepeatTimer (group epoch seq : Nat) (s : State) : Result :=
  s.act (fun _ d => queryRepeat d (heatKey group epoch seq))

/-- DECISION_HOLD_EXPIRY (R301). -/
def execDecisionHoldExpiry (group epoch seq : Nat) (s : State) : Result :=
  s.act (fun _ d => decisionHoldEnd d (heatKey group epoch seq))

/-- MARK_RECEIVED (R298). -/
def execMarkReceived (k : Packet) (s : State) : Result :=
  s.act (fun m d => ctrlReceived m d 6 k)

/-- REPAIR_RECEIVED (R298). -/
def execRepairReceived (k : Packet) (s : State) : Result :=
  s.act (fun m d => ctrlReceived m d 7 k)

/-- MC_REPAIR_TIMER (R298). -/
def execMcRepairTimer (group epoch seq slot : Nat) (s : State) : Result :=
  s.act (fun _ d => mcRepairTimer d (heatKey group epoch seq) slot)

/-- LAP_WINDOW_EXPIRY (R299). -/
def execLapWindowExpiry (group epoch seq lap : Nat) (s : State) : Result :=
  s.act (fun _ d => lapWindowEnd d (heatKey group epoch seq) lap)

/-- OP_ATT_BLOCK_TABLE (R343). -/
def execOpAttBlockTable (sq slot : Nat) (r : ReadData) (s : State) : Result :=
  s.act (fun m d => opBlockTable m d sq slot r)

/-- OP_ATT_DECODE (R344). -/
def execOpAttDecode (sq slot : Nat) (s : State) : Result :=
  s.act (fun m d => opAtt m d 0x30 sq slot)

/-- OP_ATT_PREFILL (R356). -/
def execOpAttPrefill (sq slot : Nat) (s : State) : Result :=
  s.act (fun m d => opAtt m d 0x31 sq slot)

/-- MARA_ISLAND_DONE (R337). -/
def execMaraIslandDone (key island : Nat) (s : State) : Result :=
  s.act (fun m d => maraIslandDone m d key island)

/-- SCATTER_HEADER_RECEIVED (R355). -/
def execScatterHeaderReceived (group seq peer : Nat) (header : List Byte) (s : State) : Result :=
  s.act (fun m d => scatterOpen m d group seq peer header)

end Sys2Proof.Machine
end

