-- ==== Sys2Proof/Machine/CmdConns.lean ====
section
/-!
DEFINITION. Commands of the transport: transport entries, connections, packets and timers (R147 to R210, R265). One definition per command: what it does to the block (the
meaning), and how it runs.
-/

namespace Sys2Proof.Machine

/-- OP_SEND (R166). -/
def execOpSend (sq slot : Nat) (s : State) : Result :=
  s.act (fun _ d => opTransport d 0x10 sq slot)

/-- OP_WRITE (R164). -/
def execOpWrite (sq slot : Nat) (s : State) : Result :=
  s.act (fun _ d => opTransport d 0x11 sq slot)

/-- OP_WRITE_IMM (R167). -/
def execOpWriteImm (sq slot : Nat) (s : State) : Result :=
  s.act (fun _ d => opTransport d 0x12 sq slot)

/-- OP_READ (R164). -/
def execOpRead (sq slot : Nat) (s : State) : Result :=
  s.act (fun _ d => opTransport d 0x13 sq slot)

/-- OP_FETCH_ADD (R168). -/
def execOpFetchAdd (sq slot : Nat) (s : State) : Result :=
  s.act (fun _ d => opTransport d 0x14 sq slot)

/-- OP_CMP_SWAP (R168). -/
def execOpCmpSwap (sq slot : Nat) (s : State) : Result :=
  s.act (fun _ d => opTransport d 0x15 sq slot)

/-- OP_CONN_CREATE (R154). -/
def execOpConnCreate (sq slot : Nat) (r : ReadData) (s : State) : Result :=
  s.act (fun m d => connCreate m d sq slot r)

/-- OP_CONN_MODIFY (R155). -/
def execOpConnModify (sq slot : Nat) (r : ReadData) (s : State) : Result :=
  s.act (fun m d => connModify m d sq slot r)

/-- OP_CONN_DESTROY (R156). -/
def execOpConnDestroy (sq slot : Nat) (s : State) : Result :=
  s.act (fun _ d => connDestroy d sq slot)

/-- OP_PD_CREATE (R160). -/
def execOpPdCreate (sq slot : Nat) (s : State) : Result :=
  s.act (fun _ d => opPdCreate d sq slot)

/-- REQUEST_PACKET_RECEIVED (R162). -/
def execRequestPacketReceived (p : Pkt) (s : State) : Result :=
  s.act (fun _ d => if isRequest (pktHdr p).op then rxPacket (takeArrived d p) p else d)

/-- CONN_FILL_DONE (R172). -/
def execConnFillDone (e : FillEnd) (s : State) : Result :=
  s.act (fun _ d => connFilled d e.conn e.good)

/-- CONN_SPILL_DONE (R172). -/
def execConnSpillDone (conn : Nat) (s : State) : Result :=
  s.act (fun _ d => connSpilled d conn)

/-- CONN_QUARANTINE_END (R150). -/
def execConnQuarantineEnd (conn : Nat) (s : State) : Result :=
  s.act (fun _ d => connQuarantineEnd d conn)

/-- ACK_RECEIVED (R187). -/
def execAckReceived (p : Pkt) (s : State) : Result :=
  s.act (fun _ d => answerIn d 0x20 p)

/-- ATOMIC_ACK_RECEIVED (R187). -/
def execAtomicAckReceived (p : Pkt) (s : State) : Result :=
  s.act (fun _ d => answerIn d 0x21 p)

/-- READ_RESP_RECEIVED (R185). -/
def execReadRespReceived (p : Pkt) (s : State) : Result :=
  s.act (fun _ d => answerIn d 0x22 p)

/-- NAK_SEQ_RECEIVED (R187). -/
def execNakSeqReceived (p : Pkt) (s : State) : Result :=
  s.act (fun _ d => answerIn d 0x23 p)

/-- BUSY_RECEIVED (R187). -/
def execBusyReceived (p : Pkt) (s : State) : Result :=
  s.act (fun _ d => answerIn d 0x24 p)

/-- BUSY_HOLD_END (R187). -/
def execBusyHoldEnd (conn : Nat) (s : State) : Result :=
  s.plain (fun d => busyHoldEnd d conn)

/-- RESETTING_RECEIVED (R187). -/
def execResettingReceived (p : Pkt) (s : State) : Result :=
  s.act (fun _ d => answerIn d 0x25 p)

/-- RESET_BACKOFF_END (R187). -/
def execResetBackoffEnd (conn : Nat) (s : State) : Result :=
  s.plain (fun d => resetBackoffEnd d conn)

/-- NAK_FATAL_RECEIVED (R150). -/
def execNakFatalReceived (p : Pkt) (s : State) : Result :=
  s.act (fun _ d => answerIn d 0x26 p)

/-- ABORT_RECEIVED (R150). -/
def execAbortReceived (p : Pkt) (s : State) : Result :=
  s.act (fun _ d => answerIn d 0x27 p)

/-- RETRANSMISSION_TIMER_EXPIRY (R188). -/
def execRetransmissionTimerExpiry (conn : Nat) (s : State) : Result :=
  s.act (fun _ d => retransExpiry d conn)

/-- ACK_DELAY_EXPIRY (R182). -/
def execAckDelayExpiry (conn : Nat) (s : State) : Result :=
  s.plain (fun d => ackDelay d conn)

/-- PACKET_SEND (R192). -/
def execPacketSend (conn : Nat) (s : State) : Result :=
  s.act (fun m d => packetSend m d conn)

/-- CNP_RECEIVED (R265). -/
def execCnpReceived (p : Pkt) (s : State) : Result :=
  s.act (fun _ d => answerIn d 0x29 p)

/-- PACER_PERIOD (R207). -/
def execPacerPeriod (conn : Nat) (s : State) : Result :=
  s.plain (fun d => pacerPeriod d conn)

end Sys2Proof.Machine
end

