-- ==== Sys2Proof/Machine/CmdEther.lean ====
section
/-!
DEFINITION. Commands of the Ethernet ports (R255 to R280). One definition per command: what it does to the block (the
meaning), and how it runs.
-/

namespace Sys2Proof.Machine

/-- ETH_FRAME_RECEIVED (R257). -/
def execEthFrameReceived (port : Nat) (fr : RxFrame) (s : State) : Result :=
  s.run (fun d => rxPulse (ethFrame d port fr) port (match fr with | .frame _ l => l.length | _ => 0))

/-- ETH_GRP_MODE_WRITE (R255). -/
def execEthGrpModeWrite (group mode : Nat) (s : State) : Result :=
  s.run (fun d => if wrote d 0 Fld.ETH_GRP_CFG_MODE group then grpMode d group mode else d)

/-- PFC_FRAME_RECEIVED (R268). -/
def execPfcFrameReceived (port prios : Nat) (quanta : List Nat) (s : State) : Result :=
  s.plain (fun d => pfcReceived d port prios quanta)

/-- PFC_PAUSE_EXPIRY (R268). -/
def execPfcPauseExpiry (port lane : Nat) (s : State) : Result :=
  s.plain (fun d => pfcExpiry d port lane)

/-- PFC_REPEAT_TIMER (R268). -/
def execPfcRepeatTimer (port lane : Nat) (s : State) : Result :=
  s.plain (fun d => pfcRepeat d port lane)

/-- PREEMPT_VERIFY_TIMER (R269). -/
def execPreemptVerifyTimer (port : Nat) (s : State) : Result :=
  s.plain (fun d => preemptTimer d port)

/-- FEC_WINDOW_END (R272). -/
def execFecWindowEnd (group : Nat) (lanes : List (Nat × Nat × Nat)) (s : State) : Result :=
  s.run (fun d => fecWindow d group lanes)

/-- LANE_LOCK_LOSS (R272). -/
def execLaneLockLoss (group lane : Nat) (s : State) : Result :=
  s.run (fun d => lockLoss d group lane)

/-- ETH_SPARE_REQ (R272). -/
def execEthSpareReq (group lane : Nat) (s : State) : Result :=
  s.run (fun d => if wrote d 0 Fld.ETH_SPARE_CTRL_REQ group then spareReq d group lane else d)

/-- SPARE_ADAPT_DONE (R272). -/
def execSpareAdaptDone (group : Nat) (s : State) : Result :=
  s.run (fun d => spareDone d group)

/-- LANE_SHED_WINDOW (R273). -/
def execLaneShedWindow (port tx rx : Nat) (s : State) : Result :=
  s.plain (fun d => shedWindow d port tx rx)

/-- LS_RETRAIN_DONE (R274). -/
def execLsRetrainDone (port : Nat) (s : State) : Result :=
  s.run (fun d => lsDone d port)

/-- WAKE_MATCH (R275). -/
def execWakeMatch (ev : WakeEv) (s : State) : Result :=
  s.act (fun _ d => wakeMatch d ev)

/-- ETH_TS_POP (R279). -/
def execEthTsPop (port : Nat) (s : State) : Result :=
  s.plain (fun d => if wrote d 0 Fld.ETH_TS_SEC port then tsPop d port else d)

/-- ETH_LINK_UP (R255). -/
def execEthLinkUp (port : Nat) (s : State) : Result :=
  s.plain (fun d => ethLinkUp d port)

end Sys2Proof.Machine
end

