-- ==== Sys2Proof/Machine/CmdFuncs.lean ====
section
/-!
DEFINITION. Commands of functions and quotas (R430 to R446). One definition per command: what it does to the block (the
meaning), and how it runs.
-/

namespace Sys2Proof.Machine

/-- OP_QUOTA_SET (R434). -/
def execOpQuotaSet (sq slot : Nat) (s : State) : Result :=
  s.act (fun _ d => opQuotaSet d sq slot)

/-- OP_QUOTA_GET (R438). -/
def execOpQuotaGet (sq slot : Nat) (s : State) : Result :=
  s.act (fun _ d => opQuotaGet d sq slot)

/-- FUNC_RESET_GO (R442). -/
def execFuncResetGo (id : Nat) (s : State) : Result :=
  s.act (fun _ d => if wrote d 0 Fld.FUNC_RESET_GO 0 then funcResetGo d id else d)

/-- PCIE_FLR (R442). -/
def execPcieFlr (f : Nat) (s : State) : Result :=
  s.act (fun _ d => if hostRunning d then pcieFlr d f else d)

/-- VF_ENABLE_CLEAR (R442). -/
def execVfEnableClear (pf : Nat) (s : State) : Result :=
  s.act (fun _ d =>
    if hostRunning d && d.io.vfEnable.contains pf then vfEnableClear { d with io := { d.io with vfEnable := d.io.vfEnable.filter (· != pf) } } pf else d)

/-- FUNC_RESET_DONE (R442). -/
def execFuncResetDone (f : Nat) (s : State) : Result :=
  s.act (fun _ d => funcResetDone d f)

end Sys2Proof.Machine
end

