-- ==== Sys2Proof/Machine/CmdLanding.lean ====
section
/-!
DEFINITION. Commands of landing memory (R362 to R382). One definition per command: what it does to the block (the
meaning), and how it runs.
-/

namespace Sys2Proof.Machine

/-- PATROL_SCRUB_TICK (R373). -/
def execPatrolScrubTick (ecc : Ecc) (s : State) : Result :=
  s.run (fun d => scrubTick d ecc)

/-- ROW_REQ (R374). -/
def execRowReq (stack : Nat) (s : State) : Result :=
  s.run (fun d => if wrote d 0 Fld.LM_REPAIR_CTRL_ROW_REQ stack then rowReq d stack else d)

/-- ROW_SPARE_COPY_DONE (R374). -/
def execRowSpareCopyDone (stack chan bank lmrow : Nat) (s : State) : Result :=
  s.run (fun d => rowCopied d stack chan bank lmrow)

/-- POST_PACKAGE_REPAIR_DONE (R374). -/
def execPostPackageRepairDone (stack chan : Nat) (lmrow : Option (Nat × Nat)) (s : State) : Result :=
  s.run (fun d => repairDone d stack chan lmrow)

/-- PIN_REQ (R375). -/
def execPinReq (stack : Nat) (s : State) : Result :=
  s.run (fun d => if wrote d 0 Fld.LM_REPAIR_CTRL_PIN_REQ stack then pinReq d stack else d)

/-- PIN_THRESH_WINDOW (R375). -/
def execPinThreshWindow (s : State) : Result :=
  s.run (fun d => pinWindow d)

/-- PIN_STEER_COPY_DONE (R375). -/
def execPinSteerCopyDone (stack chan : Nat) (s : State) : Result :=
  s.run (fun d => pinCopied d stack chan)

/-- LM_ZERO_DONE (R367). -/
def execLmZeroDone (block : Bool) (n : Nat) (s : State) : Result :=
  s.act (fun _ d => if block then blockZeroed d n else unitZeroed d n)

end Sys2Proof.Machine
end

