-- ==== Sys2Proof/Machine/CmdLinks.lean ====
section
/-!
DEFINITION. Commands of native links and the fabric (R226 to R254). One definition per command: what it does to the block (the
meaning), and how it runs.
-/

namespace Sys2Proof.Machine

/-- LINK_TRAINING_DONE (R229). -/
def execLinkTrainingDone (port : Nat) (s : State) : Result :=
  s.plain (fun d => trainingDone d port)

/-- INIT_TIMER (R229). -/
def execInitTimer (port : Nat) (s : State) : Result :=
  s.plain (fun d => initTimer d port)

/-- INIT_RECEIVED (R229). -/
def execInitReceived (port word : Nat) (s : State) : Result :=
  s.run (fun d => initReceived d port word)

/-- CREDIT_RECEIVED (R230). -/
def execCreditReceived (port word : Nat) (s : State) : Result :=
  s.plain (fun d => creditReceived d port word)

/-- CREDIT_TIMER (R230). -/
def execCreditTimer (port : Nat) (s : State) : Result :=
  s.plain (fun d => creditTimer d port)

/-- LACK_RECEIVED (R231). -/
def execLackReceived (port word : Nat) (s : State) : Result :=
  s.plain (fun d => lackReceived d port word)

/-- LACK_TIMER (R231). -/
def execLackTimer (port : Nat) (s : State) : Result :=
  s.plain (fun d => lackTimer d port)

/-- LNAK_RECEIVED (R232). -/
def execLnakReceived (port word : Nat) (s : State) : Result :=
  s.run (fun d => lnakReceived d port word)

/-- LINK_PACKET_RECEIVED (R232). -/
def execLinkPacketReceived (port start : Nat) (k : Packet) (s : State) : Result :=
  s.plain (fun d => rxPulse (linkPacket d port start k) port k.wireLen)

/-- LINK_WORD_TIMEOUT (R233). -/
def execLinkWordTimeout (port : Nat) (s : State) : Result :=
  s.run (fun d => if isNative d port && portExists d port then linkDown d port else d)

/-- PCS_BLOCK_LOCK_LOSS (R233). -/
def execPcsBlockLockLoss (port : Nat) (s : State) : Result :=
  s.run (fun d => lockLost d port)

/-- LINK_CFG_NATIVE_WRITE (R233). -/
def execLinkCfgNativeWrite (port : Nat) (native : Bool) (s : State) : Result :=
  s.run (fun d =>
    if wrote d 0 Fld.LINK_CFG_NATIVE port then linkCfgWrite d port (b2n native + rget d Fld.LINK_CFG_RETRY_MAX port * 2 ^ 8) else d)

/-- NATIVE_PACKET_ROUTE (R241). -/
def execNativePacketRoute (port lane : Nat) (s : State) : Result :=
  s.act (fun _ d => nativeRoute d port lane)

/-- PAIR_COUNT_TIMEOUT (R242). -/
def execPairCountTimeout (pair : Nat) (s : State) : Result :=
  s.plain (fun d => pairTimeout d pair)

/-- FAB_EPOCH_COMMIT (R247). -/
def execFabEpochCommit (s : State) : Result :=
  s.plain (fun d => if wrote d 0 Fld.FAB_EPOCH_COMMIT 0 then epochCommit d else d)

/-- FAB_EPOCH_FLIP (R247). -/
def execFabEpochFlip (s : State) : Result :=
  s.plain (fun d => if wrote d 0 Fld.FAB_EPOCH_FLIP 0 then epochFlip d else d)

/-- FLIP_TIME (R247). -/
def execFlipTime (s : State) : Result :=
  s.plain (fun d => flipTime d)

/-- FAB_EPOCH_FORCE_EXPIRY (R247). -/
def execFabEpochForceExpiry (s : State) : Result :=
  s.plain (fun d => epochForce d)

/-- FAB_EPOCH_SETTLE_EXPIRY (R247). -/
def execFabEpochSettleExpiry (s : State) : Result :=
  s.plain (fun d => epochSettle d)

/-- FAB_EPOCH_CUR_WRITE (R251). -/
def execFabEpochCurWrite (epoch : Nat) (s : State) : Result :=
  s.plain (fun d => if wrote d 0 Fld.FAB_EPOCH_CUR 0 then epochCurWrite d epoch else d)

end Sys2Proof.Machine
end

