-- ==== Sys2Proof/Machine/CmdMonitor.lean ====
section
/-!
DEFINITION. Commands of Starting Blocks (R465 to R468). One definition per command: what it does to the block (the
meaning), and how it runs.
-/

namespace Sys2Proof.Machine

/-- SB_HELP (R467). -/
def execSbHelp (s : State) : Result :=
  s.plain (fun d => sbHelp d)

/-- SB_VER (R467). -/
def execSbVer (s : State) : Result :=
  s.plain (fun d => sbVer d)

/-- SB_RD (R467). -/
def execSbRd (off count : Nat) (s : State) : Result :=
  s.plain (fun d => sbRd d off count)

/-- SB_WR (R467). -/
def execSbWr (off v : Nat) (s : State) : Result :=
  s.act (fun m d => sbWr m d off v)

/-- SB_MAP (R467). -/
def execSbMap (s : State) : Result :=
  s.plain (fun d => sbMap d)

/-- SB_ERR (R467). -/
def execSbErr (unit : Option Nat) (s : State) : Result :=
  s.plain (fun d => sbErrs d unit)

/-- SB_CNT (R467). -/
def execSbCnt (bank : Nat) (s : State) : Result :=
  s.plain (fun d => sbCnt d bank)

/-- SB_PHOTO (R467). -/
def execSbPhoto (bank : Nat) (after : Bool) (t : Nat) (s : State) : Result :=
  s.plain (fun d => sbPhoto d bank after t)

/-- SB_LOG (R467). -/
def execSbLog (n : Option Nat) (s : State) : Result :=
  s.plain (fun d => sbLog d n)

/-- SB_CON (R467). -/
def execSbCon (tile : Nat) (s : State) : Result :=
  s.plain (fun d => sbCon d tile)

/-- SB_RESET (R467). -/
def execSbReset (what : SbReset) (s : State) : Result :=
  s.act (fun _ d => sbReset d what)

/-- SB_BAUD (R465). -/
def execSbBaud (rate : Nat) (s : State) : Result :=
  s.plain (fun d => sbBaud d rate)

/-- SB_UNLOCK (R468). -/
def execSbUnlock (arg : Option (List Byte × Nat)) (s : State) : Result :=
  s.plain (fun d => sbUnlock d arg)

/-- SB_LOCK (R468). -/
def execSbLock (s : State) : Result :=
  s.plain (fun d => sbLock d)

/-- UNLOCK_EXPIRY (R468). -/
def execUnlockExpiry (s : State) : Result :=
  s.plain (fun d => unlockEnd d)

/-- UNLOCK_LOCKOUT_END (R468). -/
def execUnlockLockoutEnd (s : State) : Result :=
  s.plain (fun d => lockoutEnd d)

end Sys2Proof.Machine
end

