-- ==== Sys2Proof/Machine/CmdPcie.lean ====
section
/-!
DEFINITION. Commands of the PCIe ports and of acknowledgements (R27 to R46, R532 to R553). One definition per command: what it does to the block (the
meaning), and how it runs.
-/

namespace Sys2Proof.Machine

/-- ACCEL_LINK_LOSS (R550). -/
def execAccelLinkLoss (n sub : Nat) (s : State) : Result :=
  s.act (fun _ d => accelLoss d n sub)

/-- ACCEL_LINK_UP (R539). -/
def execAccelLinkUp (n sub speed width : Nat) (flit : Bool) (s : State) : Result :=
  s.act (fun _ d => accelUp d n sub speed width flit)

/-- DISCOVERY_DONE (R539). -/
def execDiscoveryDone (n sub : Nat) (cplDmwr routeDmwr cplAtomic routeAtomic : Bool) (s : State) : Result :=
  s.act (fun _ d => discoveryDone d n sub cplDmwr routeDmwr cplAtomic routeAtomic)

/-- ACC_PORT_RESCAN (R539). -/
def execAccPortRescan (n : Nat) (s : State) : Result :=
  s.act (fun _ d => if wrote d 0 Fld.ACC_PORT_CTRL_RESCAN n then rescan d n else d)

/-- DPC_RELEASE (R545). -/
def execDpcRelease (n : Nat) (s : State) : Result :=
  s.act (fun _ d => if wrote d 0 Fld.ACC_PORT_CTRL_DPC_RELEASE n then dpcRelease d n else d)

/-- ERR_FATAL_RECEIVED (R545). -/
def execErrFatalReceived (n sub : Nat) (s : State) : Result :=
  s.act (fun _ d => errFatal d n sub)

/-- AER_MESSAGE_RECEIVED (R545). -/
def execAerMessageReceived (n sub : Nat) (s : State) : Result :=
  s.act (fun _ d => aerMessage d n sub)

/-- ACC_CFG_DATA_ACCESS (R533). -/
def execAccCfgDataAccess (n : Nat) (write answer : Option Nat) (s : State) : Result :=
  s.plain (fun d => if wrote d 0 Fld.ACC_CFG_DATA n then accCfg d n write answer else d)

/-- INBOUND_DOORBELL_WRITE (R533). -/
def execInboundDoorbellWrite (n sub addr : Nat) (whole dmwr : Bool) (v : Nat) (s : State) : Result :=
  s.act (fun _ d => inboundDoorbell d n sub addr whole dmwr v)

/-- INBOUND_REQUEST_DISCARD (R533). -/
def execInboundRequestDiscard (n sub : Nat) (posted : Bool) (s : State) : Result :=
  s.plain (fun d => inboundDiscard d n sub posted)

/-- ACK_HOLD_EXPIRY (R541). -/
def execAckHoldExpiry (p : Path) (s : State) : Result :=
  s.plain (fun d => ackHold d p)

/-- DMWR_COMPLETION (R41). -/
def execDmwrCompletion (p : Path) (s : State) : Result :=
  s.act (fun _ d => ackCompletion d p true)

/-- DMWR_RETRY_STATUS (R42). -/
def execDmwrRetryStatus (p : Path) (s : State) : Result :=
  s.act (fun _ d => dmwrRetry d p)

/-- READBACK_COMPLETION (R42). -/
def execReadbackCompletion (p : Path) (s : State) : Result :=
  s.act (fun _ d => ackCompletion d p false)

/-- ACK_REQUEST_FAILURE (R43). -/
def execAckRequestFailure (p : Path) (dmwr : Bool) (why : BusFail) (s : State) : Result :=
  s.act (fun _ d => ackFailure d p dmwr why)

/-- COMPLETION_TIMEOUT (R43). -/
def execCompletionTimeout (p : Path) (q : PcieReq) (s : State) : Result :=
  s.act (fun m d => cplTimeout m d p q)

/-- SOURCE_READ_COMPLETION (R27). -/
def execSourceReadCompletion (q : SourceReq) (ecc : List (Nat × Ecc)) (r : ReadData) (s : State) : Result :=
  s.act (fun m d => sourceRead m (eccAll d ecc) q r)

/-- DOMAIN_DOWN_RESPONSE (R19). -/
def execDomainDownResponse (q : PcieReq) (s : State) : Result :=
  s.act (fun m d => domainDown m d q)

/-- CONTROLLER_ACCEPTANCE (R38). -/
def execControllerAcceptance (s : State) : Result :=
  s.act (fun _ d => controllerAccepts d)

/-- PORT_ACKNOWLEDGEMENT (R38). -/
def execPortAcknowledgement (p : Path) (s : State) : Result :=
  s.act (fun _ d => portAcknowledges d p)

end Sys2Proof.Machine
end

