-- ==== Sys2Proof/Machine/CmdPorts.lean ====
section
/-!
DEFINITION. Commands of the ports and their gates (R199 to R225). One definition per command: what it does to the block (the
meaning), and how it runs.
-/

namespace Sys2Proof.Machine

/-- PORT_PICK (R202). -/
def execPortPick (port : Nat) (s : State) : Result :=
  s.run (fun d => mcDrain (portPick d port))

/-- GATE_ENTRY_BEGIN (R215). -/
def execGateEntryBegin (port : Nat) (s : State) : Result :=
  s.plain (fun d => gateNext d port)

/-- GATE_ENABLE (R215). -/
def execGateEnable (port : Nat) (s : State) : Result :=
  s.plain (fun d => if wrote d 0 Fld.GATE_CTRL_EN port then gateEnable d port else d)

/-- GATE_DISABLE (R218). -/
def execGateDisable (port : Nat) (s : State) : Result :=
  s.plain (fun d => if wrote d 0 Fld.GATE_CTRL_EN port then gateDisable d port else d)

/-- SWAP_REQ (R218). -/
def execSwapReq (port : Nat) (s : State) : Result :=
  s.plain (fun d => if wrote d 0 Fld.GATE_CTRL_SWAP_REQ port then swapReq d port else d)

/-- GATE_SWAP (R218). -/
def execGateSwap (port : Nat) (s : State) : Result :=
  s.plain (fun d => gateSwap d port)

/-- PTP_TIME_STEP (R219). -/
def execPtpTimeStep (ns : Nat) (s : State) : Result :=
  s.plain (fun d => ptpStep d ns)

end Sys2Proof.Machine
end

