-- ==== Sys2Proof/Machine/CmdPower.lean ====
section
/-!
DEFINITION. Commands of power, clocks and bring-up (R506 to R531, R556). One definition per command: what it does to the block (the
meaning), and how it runs.
-/

namespace Sys2Proof.Machine

/-- BEHAV_LEVEL_NEXT_WRITE (R556). -/
def execBehavLevelNextWrite (f v : Nat) (s : State) : Result :=
  s.plain (fun d => if regReach d f then behavWrite d f v else d)

/-- BEHAV_LEVEL_STORE_DONE (R556). -/
def execBehavLevelStoreDone (s : State) : Result :=
  s.plain (fun d => behavStored d)

/-- PWR_OK_ASSERT (R522). -/
def execPwrOkAssert (ep halves : Nat) (s : State) : Result :=
  s.act (fun _ d => pwrOkAssert d ep halves)

/-- PWR_OK_DEASSERT (R510). -/
def execPwrOkDeassert (s : State) : Result :=
  s.act (fun _ d => pwrOkDeassert d)

/-- FIRMWARE_VERIFIED (R522). -/
def execFirmwareVerified (s : State) : Result :=
  s.act (fun _ d => firmwareVerified d)

/-- UNIT_READY (R17). -/
def execUnitReady (unit : Nat) (ok : Bool) (s : State) : Result :=
  s.act (fun _ d => unitUp d unit ok)

/-- CLOCK_LOST (R513). -/
def execClockLost (clock : Nat) (s : State) : Result :=
  s.act (fun _ d => clockLost d clock)

/-- CLOCK_RESTORED (R513). -/
def execClockRestored (clock : Nat) (s : State) : Result :=
  s.plain (fun d => clockRestored d clock)

/-- CAP_TICK (R516). -/
def execCapTick (avg : Nat) (s : State) : Result :=
  s.plain (fun d => capTick d avg)

/-- THERMAL_STEP (R518). -/
def execThermalStep (temps : List Nat) (s : State) : Result :=
  s.plain (fun d => thermalStep d temps)

/-- THERMAL_TRIP (R519). -/
def execThermalTrip (reading : Nat) (s : State) : Result :=
  s.act (fun _ d => thermalTrip d reading)

/-- PWR_CAP_MCTP_WRITE (R517). -/
def execPwrCapMctpWrite (v : Nat) (s : State) : Result :=
  s.plain (fun d => capMctp d v)

/-- PWR_CTRL_STANDBY (R526). -/
def execPwrCtrlStandby (key : Nat) (s : State) : Result :=
  s.act (fun _ d => if wrote d 0 Fld.PWR_CTRL_STANDBY 0 then standbyWrite d key else d)

/-- WAKE_RESTORE (R527). -/
def execWakeRestore (s : State) : Result :=
  s.act (fun _ d => wakeRestore d)

/-- STANDBY_ENTRY_DONE (R526). -/
def execStandbyEntryDone (s : State) : Result :=
  s.act (fun _ d => standbyDone d)

/-- REGULATOR_STATUS (R509). -/
def execRegulatorStatus (tile : Nat) (s : State) : Result :=
  s.plain (fun d => regulatorStatus d tile)

/-- CONFIGURATION_REQUEST (R522). -/
def execConfigurationRequest (f : Nat) (r : CfgReq) (s : State) : Result :=
  s.act (fun _ d => configRequest d f r)

end Sys2Proof.Machine
end

