-- ==== Sys2Proof/Machine/CmdQueues.lean ====
section
/-!
DEFINITION. Commands of work submission: doorbells, fetching, arbitration, events, admin queues (R81 to R106). One definition per command: what it does to the block (the
meaning), and how it runs.
-/

namespace Sys2Proof.Machine

/-- SQ_DOORBELL_WRITE (R85). -/
def execSqDoorbellWrite (f db : Nat) (whole : Bool) (v : Nat) (s : State) : Result :=
  s.act (fun _ d => sqDoorbell d f db whole v)

/-- CQ_DOORBELL_WRITE (R97). -/
def execCqDoorbellWrite (f db : Nat) (whole : Bool) (v : Nat) (s : State) : Result :=
  s.plain (fun d => cqDoorbell d f db whole v)

/-- EQ_DOORBELL_WRITE (R101). -/
def execEqDoorbellWrite (f db : Nat) (whole : Bool) (v : Nat) (s : State) : Result :=
  s.run (fun d => eqDoorbell d f db whole v)

/-- FQ_DOORBELL_WRITE (R141). -/
def execFqDoorbellWrite (f db : Nat) (whole : Bool) (v : Nat) (s : State) : Result :=
  s.plain (fun d => fqDoorbell d f db whole v)

/-- FETCH_READ_RETURN (R87). -/
def execFetchReadReturn (sq : Nat) (r : FetchRead) (s : State) : Result :=
  s.act (fun m d =>
    (match r with | .ring r => fetchReturn m d sq r | .list slot buf r => entryListRead m d sq slot buf r | .table slot r => entryListRead m d sq slot 3 r))

/-- PHASE_REREAD (R87). -/
def execPhaseReread (sq : Nat) (s : State) : Result :=
  s.act (fun _ d => phaseReread d sq)

/-- QUEUE_ERROR_COMPLETION (R91). -/
def execQueueErrorCompletion (sq : Nat) (s : State) : Result :=
  s.act (fun _ d => errCompletion d sq)

/-- ARBITRATE (R94). -/
def execArbitrate (tile : Nat) (s : State) : Result :=
  s.act (fun _ d => arbitrate d tile)

/-- MOD_TIME_EXPIRY (R99). -/
def execModTimeExpiry (cq : Nat) (s : State) : Result :=
  s.run (fun d => modTimeEnd d cq)

/-- ADMIN_ENABLE (R103). -/
def execAdminEnable (f : Nat) (s : State) : Result :=
  s.act (fun _ d => if regReach d f then adminEnable d f else d)

/-- ADMIN_DISABLE (R103). -/
def execAdminDisable (f : Nat) (s : State) : Result :=
  s.act (fun _ d => if regReach d f then adminDisable d f else d)

/-- OP_NOP (R81). -/
def execOpNop (sq slot : Nat) (s : State) : Result :=
  s.act (fun _ d => opNop d sq slot)

/-- OP_SQ_CREATE (R104). -/
def execOpSqCreate (sq slot : Nat) (s : State) : Result :=
  s.act (fun _ d => opCreate d 0x60 sq slot)

/-- OP_CQ_CREATE (R104). -/
def execOpCqCreate (sq slot : Nat) (s : State) : Result :=
  s.act (fun _ d => opCreate d 0x61 sq slot)

/-- OP_EQ_CREATE (R104). -/
def execOpEqCreate (sq slot : Nat) (s : State) : Result :=
  s.act (fun _ d => opCreate d 0x62 sq slot)

/-- OP_QUEUE_DESTROY (R105). -/
def execOpQueueDestroy (sq slot : Nat) (s : State) : Result :=
  s.act (fun _ d => opDestroy d sq slot)

/-- OP_QUEUE_MODIFY (R93). -/
def execOpQueueModify (sq slot : Nat) (s : State) : Result :=
  s.act (fun _ d => opModify d false sq slot)

/-- QUEUE_RESTART (R92). -/
def execQueueRestart (sq slot : Nat) (s : State) : Result :=
  s.act (fun _ d => queueRestart d sq slot)

end Sys2Proof.Machine
end

