-- ==== Sys2Proof/Machine/CmdRecover.lean ====
section
/-!
DEFINITION. Commands of errors, hangs, resets and recovery (R471 to R505). One definition per command: what it does to the block (the
meaning), and how it runs.
-/

namespace Sys2Proof.Machine

/-- PROGRESS_WINDOW_EXPIRY (R480). -/
def execProgressWindowExpiry (unit : HangUnit) (s : State) : Result :=
  s.act (fun _ d => hang d unit)

/-- RESET_BOUND_EXPIRY (R478). -/
def execResetBoundExpiry (level tile engine target : Nat) (s : State) : Result :=
  s.act (fun _ d => resetBound d level tile engine target)

/-- UNCORRECTABLE_RAM_ERROR (R474). -/
def execUncorrectableRamError (island engine ram : Nat) (s : State) : Result :=
  s.act (fun _ d => ramError d island engine ram)

/-- D2D_LINK_ERROR (R474). -/
def execD2dLinkError (island : Nat) (s : State) : Result :=
  s.act (fun _ d => d2dError d island)

/-- ENG_RESET_GO (R484). -/
def execEngResetGo (tile engine : Nat) (s : State) : Result :=
  s.act (fun _ d => if wrote d 0 Fld.ENG_RESET_GO 0 then engResetGo d tile engine else d)

/-- QUEUE_RESET_GO (R484). -/
def execQueueResetGo (sq : Nat) (s : State) : Result :=
  s.act (fun _ d => if wrote d 0 Fld.QUEUE_RESET_GO 0 then queueResetGo d sq else d)

/-- RESET_DONE (R485). -/
def execResetDone (level tile engine target : Nat) (s : State) : Result :=
  s.act (fun _ d => resetDone d level tile engine target)

/-- RESET_CTRL_WARM (R487). -/
def execResetCtrlWarm (key : Nat) (s : State) : Result :=
  s.act (fun _ d => if wrote d 0 Fld.RESET_CTRL_WARM 0 then resetCtrl d false key else d)

/-- RESET_CTRL_COLD (R484). -/
def execResetCtrlCold (key : Nat) (s : State) : Result :=
  s.act (fun _ d => if wrote d 0 Fld.RESET_CTRL_COLD 0 then resetCtrl d true key else d)

/-- PERST_N_ASSERT (R489). -/
def execPerstNAssert (s : State) : Result :=
  s.act (fun _ d => perstAssert d)

/-- PERST_N_DEASSERT (R487). -/
def execPerstNDeassert (s : State) : Result :=
  s.act (fun _ d => perstDeassert d)

/-- HOST_HB (R489). -/
def execHostHb (s : State) : Result :=
  s.plain (fun d => if wrote d 0 Fld.HOST_HB 0 then hostHb d else d)

/-- HB_WINDOW_EXPIRY (R489). -/
def execHbWindowExpiry (s : State) : Result :=
  s.act (fun _ d => hbExpiry d)

/-- HOST_DL_DOWN (R489). -/
def execHostDlDown (s : State) : Result :=
  s.act (fun _ d => hostDlDown d)

/-- HOST_HOT_RESET (R549). -/
def execHostHotReset (s : State) : Result :=
  s.act (fun _ d => hostHotReset d)

/-- HOST_LINK_RETURN (R490). -/
def execHostLinkReturn (speed width : Nat) (flit : Bool) (s : State) : Result :=
  s.act (fun _ d => hostReturn (pathLost d .host) speed width flit)

/-- PHOTO_ARM (R491). -/
def execPhotoArm (bank : Nat) (s : State) : Result :=
  s.plain (fun d => if wrote d 0 (photoFld bank Fld.PHOTO_CTRL_ARM0 Fld.PHOTO_CTRL_ARM1) 0 then photoArm d bank else d)

/-- PHOTO_TIME (R65). -/
def execPhotoTime (bank : Nat) (late : List Nat) (s : State) : Result :=
  s.plain (fun d => photoTime d bank late)

/-- PHOTO_LATE_COPY (R68). -/
def execPhotoLateCopy (bank unit : Nat) (s : State) : Result :=
  s.plain (fun d => photoLate d bank unit)

/-- EVAC_GO_EVACUATE (R497). -/
def execEvacGoEvacuate (src dst : Nat) (s : State) : Result :=
  s.act (fun _ d => if wrote d 0 Fld.EVAC_CTRL_GO 0 then evacGo d src dst false else d)

/-- EVAC_GO_RETURN (R499). -/
def execEvacGoReturn (src dst : Nat) (s : State) : Result :=
  s.act (fun _ d => if wrote d 0 Fld.EVAC_CTRL_GO 0 then evacGo d src dst true else d)

/-- EVAC_DRAIN_EXPIRY (R497). -/
def execEvacDrainExpiry (s : State) : Result :=
  s.act (fun _ d => evacDrain d)

/-- EVAC_BLOCK_MOVED (R497). -/
def execEvacBlockMoved (s : State) : Result :=
  s.act (fun _ d => evacMoved d)

end Sys2Proof.Machine
end

