-- ==== Sys2Proof/Machine/CmdRegs.lean ====
section
/-!
DEFINITION. Accesses to registers (R12, R554 to R562). One definition per command: what it does to the block (the
meaning), and how it runs.
-/

namespace Sys2Proof.Machine

/-- RC_COUNTER_READ (R12). -/
def execRcCounterRead (f : Nat) (bar2 : Bool) (addr size : Nat) (s : State) : Result :=
  s.plain (fun d => regReadOut d f bar2 addr size)

/-- REGISTER_WRITE (R12). -/
def execRegisterWrite (f : Nat) (bar2 : Bool) (addr size v : Nat) (s : State) : Result :=
  s.act (fun m d => regWrite m d f bar2 addr size v)

end Sys2Proof.Machine
end

