-- ==== Sys2Proof/Machine/CmdService.lean ====
section
/-!
DEFINITION. Commands of the service cores, mailboxes and firmware (R447 to R464, R493 to R496). One definition per command: what it does to the block (the
meaning), and how it runs.
-/

namespace Sys2Proof.Machine

/-- SVC_RESTART (R453). -/
def execSvcRestart (islands : Nat) (s : State) : Result :=
  s.act (fun _ d => if wrote d 0 Fld.SVC_CTRL_RESTART 0 then svcRestart d islands else d)

/-- SERVICE_IMAGE_READ_DONE (R452). -/
def execServiceImageReadDone (image blob : List Byte) (s : State) : Result :=
  s.act (fun _ d => svcImage d image blob)

/-- HART_LANDING_ACCESS (R450). -/
def execHartLandingAccess (hart off n : Nat) (store : Option (List Byte)) (r : ReadData) (s : State) : Result :=
  s.act (fun m d => hartAccess m d hart off n store r)

/-- EXC_TX_PROD_WRITE (R456). -/
def execExcTxProdWrite (v : Nat) (s : State) : Result :=
  s.act (fun m d => excTxProd m d v)

/-- EXC_TX_RECORD_DONE (R456). -/
def execExcTxRecordDone (s : State) : Result :=
  s.act (fun m d => excTxDone m d)

/-- MBOX_GO (R460). -/
def execMboxGo (f chan target : Nat) (irq : Bool) (s : State) : Result :=
  s.run (fun d => mboxWrite d f chan 16 (1 + b2n irq * 8 + target % 4 * 16))

/-- MBOX_RESPOND (R460). -/
def execMboxRespond (who : Option Nat) (chan : Nat) (s : State) : Result :=
  s.run (fun d => mboxRespond d who chan)

/-- MBOX_RELEASE (R460). -/
def execMboxRelease (f chan : Nat) (s : State) : Result :=
  s.run (fun d => mboxWrite d f chan 16 2)

/-- MBOX_CLAIM (R459). -/
def execMboxClaim (f chan w v : Nat) (s : State) : Result :=
  s.run (fun d => if w < 16 then mboxWrite d f chan w v else d)

/-- MBOX_TIMEOUT (R462). -/
def execMboxTimeout (chan : Nat) (s : State) : Result :=
  s.run (fun d => mboxTimeout d chan)

/-- VERSION (R463). -/
def execVersion (chan : Nat) (s : State) : Result :=
  s.run (fun d => fwVersion d chan)

/-- IF0_CTX (R464). -/
def execIf0Ctx (chan : Nat) (s : State) : Result :=
  s.act (fun m d => fwCtx m d chan)

/-- LOG_READ (R494). -/
def execLogRead (chan : Nat) (s : State) : Result :=
  s.run (fun d => fwLogRead d chan)

/-- FW_STAGE (R494). -/
def execFwStage (chan : Nat) (r : ReadData) (s : State) : Result :=
  s.act (fun m d => fwStage m d chan r)

/-- FW_ACTIVATE (R495). -/
def execFwActivate (chan : Nat) (s : State) : Result :=
  s.act (fun _ d => fwActivate d chan)

/-- FW_COMMIT (R494). -/
def execFwCommit (chan : Nat) (s : State) : Result :=
  s.run (fun d => fwCommit d chan)

/-- FW_ACTIVATION_DONE (R495). -/
def execFwActivationDone (s : State) : Result :=
  s.act (fun _ d => activationDone d)

/-- FW_ACTIVATION_ROLLBACK (R496). -/
def execFwActivationRollback (s : State) : Result :=
  s.act (fun _ d => activationBack d)

/-- LOCKSTEP_MISMATCH (R457). -/
def execLockstepMismatch (s : State) : Result :=
  s.act (fun _ d => lockstep d)

/-- MGMT_WATCHDOG (R480). -/
def execMgmtWatchdog (s : State) : Result :=
  s.act (fun _ d => watchdog d)

/-- MGMT_RELOAD_DONE (R457). -/
def execMgmtReloadDone (s : State) : Result :=
  s.act (fun _ d => mgmtReload d)

end Sys2Proof.Machine
end

