-- ==== Sys2Proof/Machine/CmdSideband.lean ====
section
/-!
DEFINITION. Commands of attestation, I3C and the test access port (R546 to R548, R577, R578). One definition per command: what it does to the block (the
meaning), and how it runs.
-/

namespace Sys2Proof.Machine

/-- SPDM_GET_VERSION (R546). -/
def execSpdmGetVersion (mailbox : Nat) (accepted : Bool) (body : List Byte) (s : State) : Result :=
  s.plain (fun d => spdm d 0x84 mailbox accepted body)

/-- SPDM_GET_CAPABILITIES (R546). -/
def execSpdmGetCapabilities (mailbox : Nat) (accepted : Bool) (body : List Byte) (s : State) : Result :=
  s.plain (fun d => spdm d 0xE1 mailbox accepted body)

/-- SPDM_NEGOTIATE_ALGORITHMS (R546). -/
def execSpdmNegotiateAlgorithms (mailbox : Nat) (accepted : Bool) (body : List Byte) (s : State) : Result :=
  s.plain (fun d => spdm d 0xE3 mailbox accepted body)

/-- SPDM_GET_DIGESTS (R546). -/
def execSpdmGetDigests (mailbox : Nat) (accepted : Bool) (body : List Byte) (s : State) : Result :=
  s.plain (fun d => spdm d 0x81 mailbox accepted body)

/-- SPDM_GET_CERTIFICATE (R546). -/
def execSpdmGetCertificate (mailbox : Nat) (accepted : Bool) (body : List Byte) (s : State) : Result :=
  s.plain (fun d => spdm d 0x82 mailbox accepted body)

/-- SPDM_CHALLENGE (R546). -/
def execSpdmChallenge (mailbox : Nat) (accepted : Bool) (body : List Byte) (s : State) : Result :=
  s.plain (fun d => spdm d 0x83 mailbox accepted body)

/-- SPDM_GET_MEASUREMENTS (R547). -/
def execSpdmGetMeasurements (mailbox : Nat) (accepted : Bool) (body : List Byte) (s : State) : Result :=
  s.plain (fun d => spdm d 0xE0 mailbox accepted body)

/-- JTAG_INSTRUCTION_LOAD (R578). -/
def execJtagInstructionLoad (jtag : Jtag) (s : State) : Result :=
  s.run (fun d => jtagLoad d jtag)

/-- DYNAMIC_ADDRESS_ASSIGNMENT (R577). -/
def execDynamicAddressAssignment (static_ : Option Nat) (addr : Nat) (s : State) : Result :=
  s.plain (fun d => dynAddr d static_ addr)

end Sys2Proof.Machine
end

