-- ==== Sys2Proof/Machine/CmdStride.lean ====
section
/-!
DEFINITION. Commands of the Stride engines (R383 to R405). One definition per command: what it does to the block (the
meaning), and how it runs.
-/

namespace Sys2Proof.Machine

/-- OP_COPY (R387). -/
def execOpCopy (sq slot : Nat) (s : State) : Result :=
  s.act (fun _ d => opStride d 0x01 sq slot)

/-- OP_FILL (R387). -/
def execOpFill (sq slot : Nat) (s : State) : Result :=
  s.act (fun _ d => opStride d 0x02 sq slot)

/-- OP_CHAIN_START (R388). -/
def execOpChainStart (sq slot : Nat) (s : State) : Result :=
  s.act (fun _ d => opStride d 0x03 sq slot)

/-- DESCRIPTOR_READ_RETURN (R391). -/
def execDescriptorReadReturn (chan : Nat) (r : ReadData) (s : State) : Result :=
  s.act (fun m d => descriptorRead m d chan r)

/-- DESCRIPTOR_END (R394). -/
def execDescriptorEnd (chan : Nat) (s : State) : Result :=
  s.act (fun _ d => descriptorEnd d chan)

/-- REQUEST_LINE_PULSE (R398). -/
def execRequestLinePulse (line : Nat) (s : State) : Result :=
  s.plain (fun d => requestPulse d line)

/-- DREQ_EDGE (R399). -/
def execDreqEdge (pin : Nat) (rising : Bool) (s : State) : Result :=
  s.plain (fun d => dreqEdge d pin rising)

/-- PPS_IN_EDGE (R399). -/
def execPpsInEdge (s : State) : Result :=
  s.plain (fun d => ppsIn d)

/-- TIME_SECOND_BOUNDARY (R399). -/
def execTimeSecondBoundary (s : State) : Result :=
  s.plain (fun d => secondBoundary d)

/-- STRIDE_BURST_START (R398). -/
def execStrideBurstStart (chan : Nat) (s : State) : Result :=
  s.act (fun _ d => burstStart d chan)

/-- STRIDE_PAUSE (R400). -/
def execStridePause (f chan : Nat) (setup : Bool) (s : State) : Result :=
  s.act (fun _ d => if regReach d f && chanCtrlAllowed d chan f setup then stridePause d chan else d)

/-- STRIDE_RESUME (R400). -/
def execStrideResume (f chan : Nat) (setup : Bool) (s : State) : Result :=
  s.act (fun _ d => if regReach d f && chanCtrlAllowed d chan f setup then strideResume d chan else d)

/-- STRIDE_STOP (R400). -/
def execStrideStop (f chan : Nat) (setup : Bool) (s : State) : Result :=
  s.act (fun _ d => if regReach d f && chanCtrlAllowed d chan f setup then strideStop d chan else d)

/-- PAUSING_DONE (R401). -/
def execPausingDone (chan : Nat) (s : State) : Result :=
  s.act (fun _ d => pausingDone d chan)

end Sys2Proof.Machine
end

