-- ==== Sys2Proof/Machine/CmdXlate.lean ====
section
/-!
DEFINITION. Commands of translation and remote windows (R108 to R146). One definition per command: what it does to the block (the
meaning), and how it runs.
-/

namespace Sys2Proof.Machine

/-- OP_PREFETCH (R137). -/
def execOpPrefetch (sq slot : Nat) (s : State) : Result :=
  s.act (fun _ d => opPrefetch d sq slot)

/-- OP_ADVISE (R139). -/
def execOpAdvise (sq slot : Nat) (s : State) : Result :=
  s.act (fun _ d => opAdvise d sq slot)

/-- OP_INVALIDATE (R123). -/
def execOpInvalidate (sq slot : Nat) (s : State) : Result :=
  s.act (fun _ d => opInvalidate d sq slot)

/-- INVALIDATION_DONE (R123). -/
def execInvalidationDone (id : Nat) (r : ReadData) (s : State) : Result :=
  s.act (fun m d => invDone m d id r)

/-- INV_DRAIN_LIMIT_EXPIRY (R62). -/
def execInvDrainLimitExpiry (id : Nat) (s : State) : Result :=
  s.act (fun _ d => invLimit d id)

/-- OP_WINDOW_SET (R131). -/
def execOpWindowSet (sq slot : Nat) (s : State) : Result :=
  s.act (fun _ d => opWindowSet d sq slot)

/-- WINDOW_QUARANTINE_END (R132). -/
def execWindowQuarantineEnd (win : Nat) (s : State) : Result :=
  s.act (fun _ d => winQuarEnd d win)

/-- WALK_DONE (R117). -/
def execWalkDone (island asid page : Nat) (reads : List (Nat × ReadData)) (s : State) : Result :=
  s.act (fun m d => walkDone m d island asid page reads)

/-- ATS_TRANSLATION_COMPLETION (R127). -/
def execAtsTranslationCompletion (island asid page : Nat) (r : AtsRes) (s : State) : Result :=
  s.act (fun _ d => atsDone d island asid page r)

/-- ATS_INVALIDATE_REQUEST (R128). -/
def execAtsInvalidateRequest (id pasid va pages : Nat) (s : State) : Result :=
  s.act (fun _ d => atsInvalidate d id pasid va pages)

/-- PAGE_REQUEST_GROUP_RESPONSE (R129). -/
def execPageRequestGroupResponse (island asid page : Nat) (ok : Bool) (s : State) : Result :=
  s.act (fun _ d => pageResponse d island asid page ok)

/-- PRI_TIMEOUT (R129). -/
def execPriTimeout (island asid page : Nat) (s : State) : Result :=
  s.act (fun _ d => pageResponse d island asid page false)

/-- XLATE_LOCK (R133). -/
def execXlateLock (s : State) : Result :=
  s.run (fun d => if wrote d 0 Fld.XLATE_CTRL_LOCK 0 then xlateLock d else d)

/-- WINDOW_TABLE_INIT_DONE (R133). -/
def execWindowTableInitDone (s : State) : Result :=
  s.act (fun _ d => winInitDone d)

end Sys2Proof.Machine
end

