-- ==== Sys2Proof/Machine/Dispatch.lean ====
section
/-! DEFINITION. The dispatch of commands to their meanings, one arm per row of spec/opcode_table.json. -/

namespace Sys2Proof.Machine

def exec (i : Instr) (s : State) : Host.Outcome State Fault Refusal :=
  match i with
  | .sqDoorbellWrite f db whole v => Sys2Proof.Machine.execSqDoorbellWrite f db whole v s
  | .cqDoorbellWrite f db whole v => Sys2Proof.Machine.execCqDoorbellWrite f db whole v s
  | .eqDoorbellWrite f db whole v => Sys2Proof.Machine.execEqDoorbellWrite f db whole v s
  | .fqDoorbellWrite f db whole v => Sys2Proof.Machine.execFqDoorbellWrite f db whole v s
  | .fetchReadReturn sq r => Sys2Proof.Machine.execFetchReadReturn sq r s
  | .phaseReread sq => Sys2Proof.Machine.execPhaseReread sq s
  | .queueErrorCompletion sq => Sys2Proof.Machine.execQueueErrorCompletion sq s
  | .arbitrate tile => Sys2Proof.Machine.execArbitrate tile s
  | .modTimeExpiry cq => Sys2Proof.Machine.execModTimeExpiry cq s
  | .adminEnable f => Sys2Proof.Machine.execAdminEnable f s
  | .adminDisable f => Sys2Proof.Machine.execAdminDisable f s
  | .opSend sq slot => Sys2Proof.Machine.execOpSend sq slot s
  | .opWrite sq slot => Sys2Proof.Machine.execOpWrite sq slot s
  | .opWriteImm sq slot => Sys2Proof.Machine.execOpWriteImm sq slot s
  | .opRead sq slot => Sys2Proof.Machine.execOpRead sq slot s
  | .opFetchAdd sq slot => Sys2Proof.Machine.execOpFetchAdd sq slot s
  | .opCmpSwap sq slot => Sys2Proof.Machine.execOpCmpSwap sq slot s
  | .opNop sq slot => Sys2Proof.Machine.execOpNop sq slot s
  | .opSqCreate sq slot => Sys2Proof.Machine.execOpSqCreate sq slot s
  | .opCqCreate sq slot => Sys2Proof.Machine.execOpCqCreate sq slot s
  | .opEqCreate sq slot => Sys2Proof.Machine.execOpEqCreate sq slot s
  | .opQueueDestroy sq slot => Sys2Proof.Machine.execOpQueueDestroy sq slot s
  | .opQueueModify sq slot => Sys2Proof.Machine.execOpQueueModify sq slot s
  | .queueRestart sq slot => Sys2Proof.Machine.execQueueRestart sq slot s
  | .opConnCreate sq slot r => Sys2Proof.Machine.execOpConnCreate sq slot r s
  | .opConnModify sq slot r => Sys2Proof.Machine.execOpConnModify sq slot r s
  | .opConnDestroy sq slot => Sys2Proof.Machine.execOpConnDestroy sq slot s
  | .opPdCreate sq slot => Sys2Proof.Machine.execOpPdCreate sq slot s
  | .opPrefetch sq slot => Sys2Proof.Machine.execOpPrefetch sq slot s
  | .opAdvise sq slot => Sys2Proof.Machine.execOpAdvise sq slot s
  | .opInvalidate sq slot => Sys2Proof.Machine.execOpInvalidate sq slot s
  | .invalidationDone id r => Sys2Proof.Machine.execInvalidationDone id r s
  | .invDrainLimitExpiry id => Sys2Proof.Machine.execInvDrainLimitExpiry id s
  | .opWindowSet sq slot => Sys2Proof.Machine.execOpWindowSet sq slot s
  | .windowQuarantineEnd win => Sys2Proof.Machine.execWindowQuarantineEnd win s
  | .walkDone island asid page reads => Sys2Proof.Machine.execWalkDone island asid page reads s
  | .atsTranslationCompletion island asid page r => Sys2Proof.Machine.execAtsTranslationCompletion island asid page r s
  | .atsInvalidateRequest id pasid va pages => Sys2Proof.Machine.execAtsInvalidateRequest id pasid va pages s
  | .pageRequestGroupResponse island asid page ok => Sys2Proof.Machine.execPageRequestGroupResponse island asid page ok s
  | .priTimeout island asid page => Sys2Proof.Machine.execPriTimeout island asid page s
  | .xlateLock => Sys2Proof.Machine.execXlateLock s
  | .windowTableInitDone => Sys2Proof.Machine.execWindowTableInitDone s
  | .requestPacketReceived p => Sys2Proof.Machine.execRequestPacketReceived p s
  | .connFillDone e => Sys2Proof.Machine.execConnFillDone e s
  | .connSpillDone conn => Sys2Proof.Machine.execConnSpillDone conn s
  | .connQuarantineEnd conn => Sys2Proof.Machine.execConnQuarantineEnd conn s
  | .ackReceived p => Sys2Proof.Machine.execAckReceived p s
  | .atomicAckReceived p => Sys2Proof.Machine.execAtomicAckReceived p s
  | .readRespReceived p => Sys2Proof.Machine.execReadRespReceived p s
  | .nakSeqReceived p => Sys2Proof.Machine.execNakSeqReceived p s
  | .busyReceived p => Sys2Proof.Machine.execBusyReceived p s
  | .busyHoldEnd conn => Sys2Proof.Machine.execBusyHoldEnd conn s
  | .resettingReceived p => Sys2Proof.Machine.execResettingReceived p s
  | .resetBackoffEnd conn => Sys2Proof.Machine.execResetBackoffEnd conn s
  | .nakFatalReceived p => Sys2Proof.Machine.execNakFatalReceived p s
  | .abortReceived p => Sys2Proof.Machine.execAbortReceived p s
  | .retransmissionTimerExpiry conn => Sys2Proof.Machine.execRetransmissionTimerExpiry conn s
  | .ackDelayExpiry conn => Sys2Proof.Machine.execAckDelayExpiry conn s
  | .packetSend conn => Sys2Proof.Machine.execPacketSend conn s
  | .cnpReceived p => Sys2Proof.Machine.execCnpReceived p s
  | .pacerPeriod conn => Sys2Proof.Machine.execPacerPeriod conn s
  | .portPick port => Sys2Proof.Machine.execPortPick port s
  | .gateEntryBegin port => Sys2Proof.Machine.execGateEntryBegin port s
  | .gateEnable port => Sys2Proof.Machine.execGateEnable port s
  | .gateDisable port => Sys2Proof.Machine.execGateDisable port s
  | .swapReq port => Sys2Proof.Machine.execSwapReq port s
  | .gateSwap port => Sys2Proof.Machine.execGateSwap port s
  | .ptpTimeStep ns => Sys2Proof.Machine.execPtpTimeStep ns s
  | .linkTrainingDone port => Sys2Proof.Machine.execLinkTrainingDone port s
  | .initTimer port => Sys2Proof.Machine.execInitTimer port s
  | .initReceived port word => Sys2Proof.Machine.execInitReceived port word s
  | .creditReceived port word => Sys2Proof.Machine.execCreditReceived port word s
  | .creditTimer port => Sys2Proof.Machine.execCreditTimer port s
  | .lackReceived port word => Sys2Proof.Machine.execLackReceived port word s
  | .lackTimer port => Sys2Proof.Machine.execLackTimer port s
  | .lnakReceived port word => Sys2Proof.Machine.execLnakReceived port word s
  | .linkPacketReceived port start k => Sys2Proof.Machine.execLinkPacketReceived port start k s
  | .linkWordTimeout port => Sys2Proof.Machine.execLinkWordTimeout port s
  | .pcsBlockLockLoss port => Sys2Proof.Machine.execPcsBlockLockLoss port s
  | .linkCfgNativeWrite port native => Sys2Proof.Machine.execLinkCfgNativeWrite port native s
  | .nativePacketRoute port lane => Sys2Proof.Machine.execNativePacketRoute port lane s
  | .pairCountTimeout pair => Sys2Proof.Machine.execPairCountTimeout pair s
  | .fabEpochCommit => Sys2Proof.Machine.execFabEpochCommit s
  | .fabEpochFlip => Sys2Proof.Machine.execFabEpochFlip s
  | .flipTime => Sys2Proof.Machine.execFlipTime s
  | .fabEpochForceExpiry => Sys2Proof.Machine.execFabEpochForceExpiry s
  | .fabEpochSettleExpiry => Sys2Proof.Machine.execFabEpochSettleExpiry s
  | .fabEpochCurWrite epoch => Sys2Proof.Machine.execFabEpochCurWrite epoch s
  | .ethFrameReceived port fr => Sys2Proof.Machine.execEthFrameReceived port fr s
  | .ethGrpModeWrite group mode => Sys2Proof.Machine.execEthGrpModeWrite group mode s
  | .pfcFrameReceived port prios quanta => Sys2Proof.Machine.execPfcFrameReceived port prios quanta s
  | .pfcPauseExpiry port lane => Sys2Proof.Machine.execPfcPauseExpiry port lane s
  | .pfcRepeatTimer port lane => Sys2Proof.Machine.execPfcRepeatTimer port lane s
  | .preemptVerifyTimer port => Sys2Proof.Machine.execPreemptVerifyTimer port s
  | .fecWindowEnd group lanes => Sys2Proof.Machine.execFecWindowEnd group lanes s
  | .laneLockLoss group lane => Sys2Proof.Machine.execLaneLockLoss group lane s
  | .ethSpareReq group lane => Sys2Proof.Machine.execEthSpareReq group lane s
  | .spareAdaptDone group => Sys2Proof.Machine.execSpareAdaptDone group s
  | .laneShedWindow port tx rx => Sys2Proof.Machine.execLaneShedWindow port tx rx s
  | .lsRetrainDone port => Sys2Proof.Machine.execLsRetrainDone port s
  | .wakeMatch ev => Sys2Proof.Machine.execWakeMatch ev s
  | .ethTsPop port => Sys2Proof.Machine.execEthTsPop port s
  | .opAllReduce sq slot => Sys2Proof.Machine.execOpAllReduce sq slot s
  | .opReduceScatter sq slot => Sys2Proof.Machine.execOpReduceScatter sq slot s
  | .opAllGather sq slot => Sys2Proof.Machine.execOpAllGather sq slot s
  | .opReduce sq slot => Sys2Proof.Machine.execOpReduce sq slot s
  | .opBroadcast sq slot => Sys2Proof.Machine.execOpBroadcast sq slot s
  | .opAllToAll sq slot => Sys2Proof.Machine.execOpAllToAll sq slot s
  | .opAllToAllv sq slot => Sys2Proof.Machine.execOpAllToAllv sq slot s
  | .opGroupBarrier sq slot => Sys2Proof.Machine.execOpGroupBarrier sq slot s
  | .opGroupSet sq slot r => Sys2Proof.Machine.execOpGroupSet sq slot r s
  | .heatCreditReceived k => Sys2Proof.Machine.execHeatCreditReceived k s
  | .heatAbortReceived k => Sys2Proof.Machine.execHeatAbortReceived k s
  | .abortRepeatTimer group epoch seq => Sys2Proof.Machine.execAbortRepeatTimer group epoch seq s
  | .finishUpReceived k => Sys2Proof.Machine.execFinishUpReceived k s
  | .releaseReceived k => Sys2Proof.Machine.execReleaseReceived k s
  | .queryReceived k => Sys2Proof.Machine.execQueryReceived k s
  | .queryRepeatTimer group epoch seq => Sys2Proof.Machine.execQueryRepeatTimer group epoch seq s
  | .decisionHoldExpiry group epoch seq => Sys2Proof.Machine.execDecisionHoldExpiry group epoch seq s
  | .markReceived k => Sys2Proof.Machine.execMarkReceived k s
  | .repairReceived k => Sys2Proof.Machine.execRepairReceived k s
  | .mcRepairTimer group epoch seq slot => Sys2Proof.Machine.execMcRepairTimer group epoch seq slot s
  | .lapWindowExpiry group epoch seq lap => Sys2Proof.Machine.execLapWindowExpiry group epoch seq lap s
  | .opAttBlockTable sq slot r => Sys2Proof.Machine.execOpAttBlockTable sq slot r s
  | .opAttDecode sq slot => Sys2Proof.Machine.execOpAttDecode sq slot s
  | .opAttPrefill sq slot => Sys2Proof.Machine.execOpAttPrefill sq slot s
  | .maraIslandDone key island => Sys2Proof.Machine.execMaraIslandDone key island s
  | .scatterHeaderReceived group seq peer header => Sys2Proof.Machine.execScatterHeaderReceived group seq peer header s
  | .patrolScrubTick ecc => Sys2Proof.Machine.execPatrolScrubTick ecc s
  | .rowReq stack => Sys2Proof.Machine.execRowReq stack s
  | .rowSpareCopyDone stack chan bank lmrow => Sys2Proof.Machine.execRowSpareCopyDone stack chan bank lmrow s
  | .postPackageRepairDone stack chan lmrow => Sys2Proof.Machine.execPostPackageRepairDone stack chan lmrow s
  | .pinReq stack => Sys2Proof.Machine.execPinReq stack s
  | .pinThreshWindow => Sys2Proof.Machine.execPinThreshWindow s
  | .pinSteerCopyDone stack chan => Sys2Proof.Machine.execPinSteerCopyDone stack chan s
  | .lmZeroDone block n => Sys2Proof.Machine.execLmZeroDone block n s
  | .opCopy sq slot => Sys2Proof.Machine.execOpCopy sq slot s
  | .opFill sq slot => Sys2Proof.Machine.execOpFill sq slot s
  | .opChainStart sq slot => Sys2Proof.Machine.execOpChainStart sq slot s
  | .descriptorReadReturn chan r => Sys2Proof.Machine.execDescriptorReadReturn chan r s
  | .descriptorEnd chan => Sys2Proof.Machine.execDescriptorEnd chan s
  | .requestLinePulse line => Sys2Proof.Machine.execRequestLinePulse line s
  | .dreqEdge pin rising => Sys2Proof.Machine.execDreqEdge pin rising s
  | .ppsInEdge => Sys2Proof.Machine.execPpsInEdge s
  | .timeSecondBoundary => Sys2Proof.Machine.execTimeSecondBoundary s
  | .strideBurstStart chan => Sys2Proof.Machine.execStrideBurstStart chan s
  | .stridePause f chan setup => Sys2Proof.Machine.execStridePause f chan setup s
  | .strideResume f chan setup => Sys2Proof.Machine.execStrideResume f chan setup s
  | .strideStop f chan setup => Sys2Proof.Machine.execStrideStop f chan setup s
  | .pausingDone chan => Sys2Proof.Machine.execPausingDone chan s
  | .sealCommand chan => Sys2Proof.Machine.execSealCommand chan s
  | .opKeyBind sq slot r => Sys2Proof.Machine.execOpKeyBind sq slot r s
  | .opKeyRotate sq slot => Sys2Proof.Machine.execOpKeyRotate sq slot s
  | .opKeyRetire sq slot => Sys2Proof.Machine.execOpKeyRetire sq slot s
  | .vaultKeyFetchDone tile conn dir epoch send => Sys2Proof.Machine.execVaultKeyFetchDone tile conn dir epoch send s
  | .tagFailCountExpiry conn => Sys2Proof.Machine.execTagFailCountExpiry conn s
  | .drbgReseed => Sys2Proof.Machine.execDrbgReseed s
  | .healthTestFail => Sys2Proof.Machine.execHealthTestFail s
  | .vaultRetest pass => Sys2Proof.Machine.execVaultRetest pass s
  | .opQuotaSet sq slot => Sys2Proof.Machine.execOpQuotaSet sq slot s
  | .opQuotaGet sq slot => Sys2Proof.Machine.execOpQuotaGet sq slot s
  | .funcResetGo id => Sys2Proof.Machine.execFuncResetGo id s
  | .pcieFlr f => Sys2Proof.Machine.execPcieFlr f s
  | .vfEnableClear pf => Sys2Proof.Machine.execVfEnableClear pf s
  | .funcResetDone f => Sys2Proof.Machine.execFuncResetDone f s
  | .svcRestart islands => Sys2Proof.Machine.execSvcRestart islands s
  | .serviceImageReadDone image blob => Sys2Proof.Machine.execServiceImageReadDone image blob s
  | .hartLandingAccess hart off n store r => Sys2Proof.Machine.execHartLandingAccess hart off n store r s
  | .excTxProdWrite v => Sys2Proof.Machine.execExcTxProdWrite v s
  | .excTxRecordDone => Sys2Proof.Machine.execExcTxRecordDone s
  | .mboxGo f chan target irq => Sys2Proof.Machine.execMboxGo f chan target irq s
  | .mboxRespond who chan => Sys2Proof.Machine.execMboxRespond who chan s
  | .mboxRelease f chan => Sys2Proof.Machine.execMboxRelease f chan s
  | .mboxClaim f chan w v => Sys2Proof.Machine.execMboxClaim f chan w v s
  | .mboxTimeout chan => Sys2Proof.Machine.execMboxTimeout chan s
  | .version chan => Sys2Proof.Machine.execVersion chan s
  | .if0Ctx chan => Sys2Proof.Machine.execIf0Ctx chan s
  | .logRead chan => Sys2Proof.Machine.execLogRead chan s
  | .fwStage chan r => Sys2Proof.Machine.execFwStage chan r s
  | .fwActivate chan => Sys2Proof.Machine.execFwActivate chan s
  | .fwCommit chan => Sys2Proof.Machine.execFwCommit chan s
  | .fwActivationDone => Sys2Proof.Machine.execFwActivationDone s
  | .fwActivationRollback => Sys2Proof.Machine.execFwActivationRollback s
  | .lockstepMismatch => Sys2Proof.Machine.execLockstepMismatch s
  | .mgmtWatchdog => Sys2Proof.Machine.execMgmtWatchdog s
  | .mgmtReloadDone => Sys2Proof.Machine.execMgmtReloadDone s
  | .sbHelp => Sys2Proof.Machine.execSbHelp s
  | .sbVer => Sys2Proof.Machine.execSbVer s
  | .sbRd off count => Sys2Proof.Machine.execSbRd off count s
  | .sbWr off v => Sys2Proof.Machine.execSbWr off v s
  | .sbMap => Sys2Proof.Machine.execSbMap s
  | .sbErr unit => Sys2Proof.Machine.execSbErr unit s
  | .sbCnt bank => Sys2Proof.Machine.execSbCnt bank s
  | .sbPhoto bank after t => Sys2Proof.Machine.execSbPhoto bank after t s
  | .sbLog n => Sys2Proof.Machine.execSbLog n s
  | .sbCon tile => Sys2Proof.Machine.execSbCon tile s
  | .sbReset what => Sys2Proof.Machine.execSbReset what s
  | .sbBaud rate => Sys2Proof.Machine.execSbBaud rate s
  | .sbUnlock arg => Sys2Proof.Machine.execSbUnlock arg s
  | .sbLock => Sys2Proof.Machine.execSbLock s
  | .unlockExpiry => Sys2Proof.Machine.execUnlockExpiry s
  | .unlockLockoutEnd => Sys2Proof.Machine.execUnlockLockoutEnd s
  | .progressWindowExpiry unit => Sys2Proof.Machine.execProgressWindowExpiry unit s
  | .resetBoundExpiry level tile engine target => Sys2Proof.Machine.execResetBoundExpiry level tile engine target s
  | .uncorrectableRamError island engine ram => Sys2Proof.Machine.execUncorrectableRamError island engine ram s
  | .d2dLinkError island => Sys2Proof.Machine.execD2dLinkError island s
  | .engResetGo tile engine => Sys2Proof.Machine.execEngResetGo tile engine s
  | .queueResetGo sq => Sys2Proof.Machine.execQueueResetGo sq s
  | .resetDone level tile engine target => Sys2Proof.Machine.execResetDone level tile engine target s
  | .resetCtrlWarm key => Sys2Proof.Machine.execResetCtrlWarm key s
  | .resetCtrlCold key => Sys2Proof.Machine.execResetCtrlCold key s
  | .perstNAssert => Sys2Proof.Machine.execPerstNAssert s
  | .perstNDeassert => Sys2Proof.Machine.execPerstNDeassert s
  | .hostHb => Sys2Proof.Machine.execHostHb s
  | .hbWindowExpiry => Sys2Proof.Machine.execHbWindowExpiry s
  | .hostDlDown => Sys2Proof.Machine.execHostDlDown s
  | .hostHotReset => Sys2Proof.Machine.execHostHotReset s
  | .hostLinkReturn speed width flit => Sys2Proof.Machine.execHostLinkReturn speed width flit s
  | .photoArm bank => Sys2Proof.Machine.execPhotoArm bank s
  | .photoTime bank late => Sys2Proof.Machine.execPhotoTime bank late s
  | .photoLateCopy bank unit => Sys2Proof.Machine.execPhotoLateCopy bank unit s
  | .evacGoEvacuate src dst => Sys2Proof.Machine.execEvacGoEvacuate src dst s
  | .evacGoReturn src dst => Sys2Proof.Machine.execEvacGoReturn src dst s
  | .evacDrainExpiry => Sys2Proof.Machine.execEvacDrainExpiry s
  | .evacBlockMoved => Sys2Proof.Machine.execEvacBlockMoved s
  | .behavLevelNextWrite f v => Sys2Proof.Machine.execBehavLevelNextWrite f v s
  | .behavLevelStoreDone => Sys2Proof.Machine.execBehavLevelStoreDone s
  | .pwrOkAssert ep halves => Sys2Proof.Machine.execPwrOkAssert ep halves s
  | .pwrOkDeassert => Sys2Proof.Machine.execPwrOkDeassert s
  | .firmwareVerified => Sys2Proof.Machine.execFirmwareVerified s
  | .unitReady unit ok => Sys2Proof.Machine.execUnitReady unit ok s
  | .clockLost clock => Sys2Proof.Machine.execClockLost clock s
  | .clockRestored clock => Sys2Proof.Machine.execClockRestored clock s
  | .capTick avg => Sys2Proof.Machine.execCapTick avg s
  | .thermalStep temps => Sys2Proof.Machine.execThermalStep temps s
  | .thermalTrip reading => Sys2Proof.Machine.execThermalTrip reading s
  | .pwrCapMctpWrite v => Sys2Proof.Machine.execPwrCapMctpWrite v s
  | .pwrCtrlStandby key => Sys2Proof.Machine.execPwrCtrlStandby key s
  | .wakeRestore => Sys2Proof.Machine.execWakeRestore s
  | .accelLinkLoss n sub => Sys2Proof.Machine.execAccelLinkLoss n sub s
  | .accelLinkUp n sub speed width flit => Sys2Proof.Machine.execAccelLinkUp n sub speed width flit s
  | .discoveryDone n sub cplDmwr routeDmwr cplAtomic routeAtomic => Sys2Proof.Machine.execDiscoveryDone n sub cplDmwr routeDmwr cplAtomic routeAtomic s
  | .accPortRescan n => Sys2Proof.Machine.execAccPortRescan n s
  | .dpcRelease n => Sys2Proof.Machine.execDpcRelease n s
  | .errFatalReceived n sub => Sys2Proof.Machine.execErrFatalReceived n sub s
  | .aerMessageReceived n sub => Sys2Proof.Machine.execAerMessageReceived n sub s
  | .accCfgDataAccess n write answer => Sys2Proof.Machine.execAccCfgDataAccess n write answer s
  | .inboundDoorbellWrite n sub addr whole dmwr v => Sys2Proof.Machine.execInboundDoorbellWrite n sub addr whole dmwr v s
  | .inboundRequestDiscard n sub posted => Sys2Proof.Machine.execInboundRequestDiscard n sub posted s
  | .ackHoldExpiry p => Sys2Proof.Machine.execAckHoldExpiry p s
  | .dmwrCompletion p => Sys2Proof.Machine.execDmwrCompletion p s
  | .dmwrRetryStatus p => Sys2Proof.Machine.execDmwrRetryStatus p s
  | .readbackCompletion p => Sys2Proof.Machine.execReadbackCompletion p s
  | .ackRequestFailure p dmwr why => Sys2Proof.Machine.execAckRequestFailure p dmwr why s
  | .completionTimeout p q => Sys2Proof.Machine.execCompletionTimeout p q s
  | .sourceReadCompletion q ecc r => Sys2Proof.Machine.execSourceReadCompletion q ecc r s
  | .domainDownResponse q => Sys2Proof.Machine.execDomainDownResponse q s
  | .spdmGetVersion mailbox accepted body => Sys2Proof.Machine.execSpdmGetVersion mailbox accepted body s
  | .spdmGetCapabilities mailbox accepted body => Sys2Proof.Machine.execSpdmGetCapabilities mailbox accepted body s
  | .spdmNegotiateAlgorithms mailbox accepted body => Sys2Proof.Machine.execSpdmNegotiateAlgorithms mailbox accepted body s
  | .spdmGetDigests mailbox accepted body => Sys2Proof.Machine.execSpdmGetDigests mailbox accepted body s
  | .spdmGetCertificate mailbox accepted body => Sys2Proof.Machine.execSpdmGetCertificate mailbox accepted body s
  | .spdmChallenge mailbox accepted body => Sys2Proof.Machine.execSpdmChallenge mailbox accepted body s
  | .spdmGetMeasurements mailbox accepted body => Sys2Proof.Machine.execSpdmGetMeasurements mailbox accepted body s
  | .jtagInstructionLoad jtag => Sys2Proof.Machine.execJtagInstructionLoad jtag s
  | .rcCounterRead f bar2 addr size => Sys2Proof.Machine.execRcCounterRead f bar2 addr size s
  | .registerWrite f bar2 addr size v => Sys2Proof.Machine.execRegisterWrite f bar2 addr size v s
  | .controllerAcceptance => Sys2Proof.Machine.execControllerAcceptance s
  | .portAcknowledgement p => Sys2Proof.Machine.execPortAcknowledgement p s
  | .standbyEntryDone => Sys2Proof.Machine.execStandbyEntryDone s
  | .regulatorStatus tile => Sys2Proof.Machine.execRegulatorStatus tile s
  | .ethLinkUp port => Sys2Proof.Machine.execEthLinkUp port s
  | .configurationRequest f r => Sys2Proof.Machine.execConfigurationRequest f r s
  | .dynamicAddressAssignment static_ addr => Sys2Proof.Machine.execDynamicAddressAssignment static_ addr s

end Sys2Proof.Machine
end

