-- ==== Sys2Proof/Machine/Step.lean ====
section
/-!
DEFINITION. The step: the oldest command that waits runs; with none waiting time passes (DESIGN CHOICE, log entry 4).
-/

namespace Sys2Proof.Machine

/-- Time passes by one nanosecond with nothing commanded. -/
def State.idle (s : State) : State := { s with dev := { s.dev with now := s.dev.now + 1, el := s.dev.el + 1 } }

def step (s : State) : Host.Outcome State Fault Refusal :=
  match s.pending with
  | [] => .next s.idle
  | c :: rest => exec c { s with pending := rest }

/-- The machine with the command that a word spells in front of its queue: no word spells one. -/
def State.withFetchWord (s : State) (nbits w : Nat) : State :=
  match decodeTableWord nbits w with
  | some c => { s with pending := c :: s.pending }
  | none => s

end Sys2Proof.Machine
end

