-- ==== Sys2Proof/Safety.lean ====
section
/-!
DEFINITION. What a safe run is, and runs of several commands: landing memory keeps its canonical form; commands run one after
another by `exec`, and steps of the machine that take them from its queue.
-/

namespace Sys2Proof

/-- What every state of a run has. -/
abbrev Safe (s : Machine.State) : Prop := Machine.Memory.wf s.cells

/-- The commands, run one after another from `s`, lead to `t`. -/
def Ran : List Instr → Machine.State → Machine.State → Prop
  | [], s, t => t = s
  | c :: r, s, t => ∃ u, Machine.exec c s = .next u ∧ Ran r u t

/-- `n` steps of the machine lead from `s` to `t`. -/
def Steps : Nat → Machine.State → Machine.State → Prop
  | 0, s, t => t = s
  | n + 1, s, t => ∃ u, Machine.step s = .next u ∧ Steps n u t

/-- A packet finds its connection ready to act on it: it is intact and young, the connection's block and tile serve, its
state is at hand with nothing parked before it, it comes from the peer, the connection receives, and carries no envelope
(checks 1 to 5 of R162). -/
def Delivered (d : Machine.Ix9) (pkt : Pkt) : Prop :=
  let n := Machine.pktConn pkt
  let c := Machine.connOf d n
  (match pkt with
    | .native k => k.crc = k.trailer ∧ Machine.ageMs d k < 500
    | .roce _ => True) ∧
  Machine.blockValid d n = true ∧ Machine.xportReady d (Machine.homeTile d n) = true ∧ Machine.holdsState d n = true ∧
  Machine.cachedConn d n = true ∧ Machine.parkedOf d n = [] ∧ c.discarded = false ∧ Machine.peerMatches c pkt = true ∧
  (c.state = Machine.csREADY_RX ∨ c.state = Machine.csREADY ∨ c.state = Machine.csDRAIN) ∧ c.enc = false

/-- The block once a delivered packet has found its state: the packet has left the tile's input, the connection is the one
used last, and the hit is counted (R170, R282). -/
def found (d : Machine.Ix9) (pkt : Pkt) : Machine.Ix9 :=
  let e := Machine.takeArrived d pkt
  Machine.count (Machine.touch e (Machine.pktConn pkt)) Machine.Fld.CONN_HITS (Machine.homeTile e (Machine.pktConn pkt))

end Sys2Proof
end

