-- ==== Sys2Proof/Certificates/Slice0/Obligations.lean ====
section
/-!
DEFINITION. Statements for the provers. A command's own effect on the block is written out; `State.follow` is what the
machine is after that effect and what other waiting work does with it, `State.store` where only landing writes follow.
-/

open Sys2Proof
open Sys2Proof.Machine

/-- The block is driven by commands taken first in first out from its queue (the model's form, log entry 1): a step is the
front command's `exec` on the state with the queue's rest. -/
def Obligations.StepRunsTheFrontCommand : Prop :=
  ∀ (c : Instr) (rest : List Instr) (s : State), s.pending = c :: rest → step s = exec c { s with pending := rest }

/-- The model's choice of log entry 4: with nothing commanded only time passes. -/
def Obligations.StepWithEmptyQueueOnlyMovesTime : Prop :=
  ∀ s : State, s.pending = [] →
    step s = .next (s.only { s.dev with now := s.dev.now + 1, el := s.dev.el + 1 })

/-- Commands of a queue take effect in their order, one per step (the model's form, log entry 1). -/
def Obligations.QueueIsServedFirstInFirstOut : Prop :=
  ∀ (cs : List Instr) (s : State),
    ∃ t, Ran cs s t ∧ Steps cs.length { s with pending := cs ++ s.pending } t ∧ t.pending = s.pending

/-- The spec gives every command of the table an outcome (errors are statuses, records or discards), so none faults or is
refused, and no command touches the queue of commands. -/
def Obligations.EveryCommandAnswersANextState : Prop :=
  ∀ (i : Instr) (s : State), ∃ t, exec i s = .next t ∧ t.pending = s.pending

/-- Invariant of landing memory (R366, R367): addresses strictly rising, no entry equal to what an unlisted byte reads as. -/
def Obligations.LandingMemoryKeepsItsForm : Prop :=
  ∀ s t : State, Memory.wf s.cells → step s = .next t → Memory.wf t.cells

/-- The machine right after reset: before PWR_OK asserts nothing is ready and no object exists. The PTP time is log entry 4's. -/
def Obligations.ResetLandingMemoryIsInForm : Prop :=
  Memory.wf State.reset.cells ∧ State.reset.pending = [] ∧ State.reset.dev.ready = [] ∧ State.reset.dev.q = {} ∧
    State.reset.dev.c.conns = [] ∧ State.reset.dev.now = 0

/-- The frame of landing memory: `State.store`, through which every command writes it, changes exactly the bytes written
or zeroed (R367, R379). -/
def Obligations.StoredBytesAreTheLastOnesWritten : Prop :=
  ∀ (s : State) (d : Ix9) (a : Nat), Memory.wf s.cells →
    cellAt (s.store d).cells a =
      match d.wr.reverse.find? (fun c => c.1 == a) with
      | some c => c.2
      | none => if d.zap.any (fun r => r.1 ≤ a && a < r.2) then 0 else cellAt s.cells a

/-- The frame of the register file: one field changes. -/
def Obligations.RegisterWriteChangesOneField : Prop :=
  ∀ (d : Ix9) (f g : Fld) (i j v : Nat),
    rget (rset d f i v) f i = v % 2 ^ f.width ∧
    (regKey g j ≠ regKey f i → rget (rset d f i v) g j = rget d g j) ∧
    { rset d f i v with regs := d.regs } = d

/-- R84 and R85, whole: doorbell writes that are discarded, and the submission doorbell. -/
def Obligations.SubmissionDoorbellsFollowTheirRule : Prop :=
  ∀ (s : State) (f i v : Nat),
    (∀ w, (w = false ∨ sqByDb s.dev f i = none) → exec (.sqDoorbellWrite f i w v) s = .next (s.follow (count s.dev Fld.DB_DISCARDS f))) ∧
    (∀ w, (w = false ∨ cqByDb s.dev f i = none) → exec (.cqDoorbellWrite f i w v) s = .next (s.only (count s.dev Fld.DB_DISCARDS f))) ∧
    (∀ w, (w = false ∨ eqByDb s.dev f i = none) → exec (.eqDoorbellWrite f i w v) s = .next (s.store (count s.dev Fld.DB_DISCARDS f))) ∧
    (∀ w, (w = false ∨ (fctxOf s.dev f).fqV = false ∨ (fctxOf s.dev f).fqDb ≠ i) →
      exec (.fqDoorbellWrite f i w v) s = .next (s.only (count s.dev Fld.DB_DISCARDS f))) ∧
    (∀ k q, sqByDb s.dev f i = some (k, q) → (funcOf s.dev f).resetting = false →
      (v ≤ q.lim → exec (.sqDoorbellWrite f i true v) s = .next (s.follow (count s.dev Fld.DB_DISCARDS f))) ∧
      (q.lim < v → q.consumed + 2 ^ q.ring.log2 < v →
        exec (.sqDoorbellWrite f i true v) s = .next (s.follow (queueError s.dev k ST_QUEUE_ERROR 0x01 false))) ∧
      (q.lim < v → v ≤ q.consumed + 2 ^ q.ring.log2 →
        exec (.sqDoorbellWrite f i true v) s = .next (s.follow (updSq s.dev k (fun q => { q with lim := v })))))

/-- R97, R101, R141: the doorbells by which software gives entries back. -/
def Obligations.ConsumerDoorbellsMoveTheirCounts : Prop :=
  ∀ (s : State) (f i v : Nat), (funcOf s.dev f).resetting = false →
    (∀ k c, cqByDb s.dev f i = some (k, c) →
      (c.cons ≤ v → v ≤ c.prod → exec (.cqDoorbellWrite f i true v) s =
        .next (s.only { s.dev with q := { s.dev.q with cqs := put s.dev.q.cqs k { c with cons := v } } })) ∧
      (v < c.cons ∨ c.prod < v → exec (.cqDoorbellWrite f i true v) s = .next (s.only (count s.dev Fld.DB_DISCARDS f)))) ∧
    (∀ k e, eqByDb s.dev f i = some (k, e) → v < 2 ^ 63 →
      (e.cons ≤ v → v ≤ e.prod → exec (.eqDoorbellWrite f i true v) s = .next (s.store (eqDrain (e.waiting.length + 1)
        { s.dev with q := { s.dev.q with eqs := put s.dev.q.eqs k { e with cons := v } } } k))) ∧
      (v < e.cons ∨ e.prod < v → exec (.eqDoorbellWrite f i true v) s = .next (s.store (count s.dev Fld.DB_DISCARDS f)))) ∧
    (∀ c, c = fctxOf s.dev f → c.fqV = true → c.fqDb = i →
      (c.cons ≤ v → v ≤ c.prod → exec (.fqDoorbellWrite f i true v) s =
        .next (s.only { s.dev with x := { s.dev.x with fctx := put s.dev.x.fctx f { c with cons := v } } })) ∧
      (v < c.cons ∨ c.prod < v → exec (.fqDoorbellWrite f i true v) s = .next (s.only (count s.dev Fld.DB_DISCARDS f))))

/-- R87: what a fetch brings, and the re-reads; R91: the queue-error completion (a queue on the same path as its events). -/
def Obligations.FetchedEntriesAreAccepted : Prop :=
  ∀ (s : State) (k : Nat) (q : Sq), sqAt s.dev k = some q →
    (∀ (r : ReadData) (b : List Byte) (n : Nat), q.err = none → q.reread = none → xportReady s.dev q.tile = true →
      (funcOf s.dev q.func).resetting = false → 0 < fetchSlots q → ringRead s.cells s.dev q (fetchSlots q) r = .ok b →
      n = slotLen (((chunksOf 16 b).map leNat).headD 0) →
      (n ≤ fetchSlots q → phasesMatch q (((chunksOf 16 b).map leNat).take 1) = true →
        phasesMatch q (((chunksOf 16 b).map leNat).take n) = true →
        exec (.fetchReadReturn k (.ring r)) s = .next (s.follow (acceptEntry s.dev k (((chunksOf 16 b).map leNat).take n)))) ∧
      (phasesMatch q (((chunksOf 16 b).map leNat).take 1) = false → rget s.dev Fld.FETCH_CFG_DB_RETRY q.tile ≠ 0 →
        exec (.fetchReadReturn k (.ring r)) s =
          .next (s.follow (updSq s.dev k (fun q => { q with reread := some ⟨rget s.dev Fld.FETCH_CFG_DB_RETRY q.tile, 0, none⟩ }))))) ∧
    (∀ (x : Reread), q.reread = some x → x.left ≠ 0 →
      exec (.phaseReread k) s =
        .next (s.follow (updSq s.dev k (fun q => { q with reread := some { x with left := x.left - 1, out := x.out + 1 } })))) ∧
    (∀ (c : Cq) (ev : Eq) (st cause : Nat), q.err = some (st, cause) → q.errDue = true → q.entries = [] → q.dying = none →
      look s.dev.q.cqs q.cq = some c → c.prod - c.cons + c.reserved < 2 ^ c.ring.log2 → (funcOf s.dev q.func).resetting = false →
      ∀ d, d = cqWrite (updSq s.dev k (fun q => { q with errDue := false })) q.cq
        { status := st, sqId := sqIdOf k, cause := cause, consumed := q.consumed % 2 ^ 32 } →
      look d.q.eqs c.eq = some ev → pathOf d c.ring.base = pathOf d ev.ring.base →
      exec (.queueErrorCompletion k) s =
        .next (s.follow (eqRaise d c.eq ⟨EV_QUEUE_ERROR, sqIdOf k, st + cause * 2 ^ 8⟩)))

/-- R94: the turn of one queue; R99: the event a moderation time owes. -/
def Obligations.ArbitrationStartsTheQueueWhoseTurnItIs : Prop :=
  (∀ (s : State) (t lane f k : Nat) (a b c : Ix9) (q : Sq), xportReady s.dev t = true →
    pickLane (wakeConns (freshen s.dev) t) t = some (lane, a) → pickFunc a t lane = some (f, b) →
    pickQueue b t lane f = some (k, c) → sqAt c k = some q →
    exec (.arbitrate t) s = .next (s.follow (startBurst q.turn c k))) ∧
  (∀ (s : State) (k : Nat) (c : Cq), look s.dev.q.cqs k = some c → c.uncovered ≠ 0 → c.timer ≠ 0 →
    (funcOf s.dev c.func).resetting = false → exec (.modTimeExpiry k) s = .next (s.store (cqEvent s.dev k)))

/-- R94's wrr_pick: soundness of the pick, when a new round begins, and that a pick exists. -/
def Obligations.WeightedRoundRobinPicksAnEligibleMember : Prop :=
  ∀ (l : List Nat) (ptr : Nat) (elig : Nat → Bool) (credit weight : Nat → Nat),
    (∀ m p fresh, wrrPick l ptr elig credit weight = some (m, p, fresh) →
      m ∈ l ∧ elig m = true ∧ p < l.length ∧ (fresh = false → 0 < credit m) ∧
      (fresh = true → 0 < weight m ∧ ∀ x ∈ l, elig x = true → credit x = 0)) ∧
    ((∃ x ∈ l, elig x = true ∧ (0 < credit x ∨ 0 < weight x)) → (wrrPick l ptr elig credit weight).isSome = true)

/-- R102, R103: bringing an admin queue up and down. -/
def Obligations.AdminQueuesComeUpAndGoDown : Prop :=
  ∀ (s : State) (f : Nat), regReach s.dev f = true →
    (f < 5 → (funcOf s.dev f).resetting = false → has s.dev.q.sqs (adminKey f) = false →
      ∀ d, d = rset (rset (rset s.dev Fld.ADMIN_CTRL_ENABLE f 1) Fld.ADMIN_STATUS_ERR f 0) Fld.ADMIN_STATUS_CAUSE f 0 →
      (∀ c, adminCause d f = some c →
        exec (.adminEnable f) s = .next (s.follow (rset (rset d Fld.ADMIN_STATUS_ERR f 1) Fld.ADMIN_STATUS_CAUSE f c))) ∧
      (∀ k ring up, k = adminKey f →
        ring = (fun a log2 => (⟨⟨if rflag d Fld.ADMIN_CFG_LOC f then .landing else .host, a, f, false, false⟩, log2⟩ : Ring)) →
        up = rset { d with q := { d.q with
          sqs := put d.q.sqs k {
            func := f, db := 0, ring := ring (rget d Fld.ADMIN_SQ_BASE_ADDR f) (rget d Fld.ADMIN_CFG_SQ_LOG2 f),
            ringVa := rget d Fld.ADMIN_SQ_BASE_ADDR f, tile := lowestTile d, origin := lowestTile d, cq := k, admin := true },
          cqs := put d.q.cqs k {
            func := f, db := 1, eq := k, ring := ring (rget d Fld.ADMIN_CQ_BASE_ADDR f) (rget d Fld.ADMIN_CFG_CQ_LOG2 f),
            modCount := 1, admin := true },
          eqs := put d.q.eqs k {
            func := f, db := 2, ring := ring (rget d Fld.ADMIN_EQ_BASE_ADDR f) (rget d Fld.ADMIN_CFG_EQ_LOG2 f),
            admin := true } } } Fld.ADMIN_STATUS_READY f 1 →
        adminCause d f = none →
        exec (.adminEnable f) s = .next (s.follow (if f = 0
          then up.q.pf0Waiting.foldl (fun d e => eqRaise d k e) { up with q := { up.q with pf0Waiting := [] } } else up)))) ∧
    (∀ d k q, f < 5 → k = adminKey f → sqAt s.dev k = some q → q.entries = [] → q.paused = none →
      d = rset (rset (rset s.dev Fld.ADMIN_CTRL_ENABLE f 0) Fld.ADMIN_STATUS_ERR f 0) Fld.ADMIN_STATUS_CAUSE f 0 →
      exec (.adminDisable f) s = .next (s.follow (rset { d with q := { d.q with
        sqs := drop d.q.sqs k, cqs := drop d.q.cqs k, eqs := drop d.q.eqs k,
        pf0Waiting := (if f = 0 then ((look d.q.eqs k).map (·.waiting)).getD [] else []).foldl absorb d.q.pf0Waiting } }
        Fld.ADMIN_STATUS_READY f 0))) ∧
    (f < 5 →
      exec (.adminDisable f) s =
        .next (s.follow (adminSettle (updSq (queueError
          (rset (rset (rset s.dev Fld.ADMIN_CTRL_ENABLE f 0) Fld.ADMIN_STATUS_ERR f 0) Fld.ADMIN_STATUS_CAUSE f 0)
          (adminKey f) ST_FLUSHED 0 true) (adminKey f) (fun q => { q with errDue := false })) f))) ∧
    (5 ≤ f → exec (.adminEnable f) s = .next (s.follow s.dev) ∧ exec (.adminDisable f) s = .next (s.follow s.dev))

/-- R81, R92, R93, R104, R105: the queue opcodes. -/
def Obligations.QueueOpcodesCreateChangeAndEnd : Prop :=
  ∀ (s : State) (k slot : Nat) (q : Sq) (e : Entry), sqAt s.dev k = some q → entryAt s.dev k slot = some e →
    e.stage = .started → e.phase = 0 → e.issued = false → q.inTurn slot = true →
    (e.op = 0x70 → exec (.opNop k slot) s = .next (s.follow (endEntry s.dev k slot ST_OK))) ∧
    (∀ n, (e.op = 0x60 ∨ e.op = 0x61 ∨ e.op = 0x62) → createCause s.dev q.func e = none → createQuota s.dev e = true →
      (e.op = 0x60 → pickFree (draw s.dev).1 65536 (has s.dev.q.sqs) 65536 = some n →
        exec (.opSqCreate k slot) s = .next (s.follow (endEntry
          { (draw s.dev).2 with q := { s.dev.q with sqs := put s.dev.q.sqs n e.newSq } } k slot ST_OK 0 0 n))) ∧
      (e.op = 0x61 → pickFree (draw s.dev).1 65536 (has s.dev.q.cqs) 65536 = some n →
        exec (.opCqCreate k slot) s = .next (s.follow (endEntry
          { (draw s.dev).2 with q := { s.dev.q with cqs := put s.dev.q.cqs n e.newCq } } k slot ST_OK 0 0 n))) ∧
      (e.op = 0x62 → pickFree (draw s.dev).1 4096 (has s.dev.q.eqs) 4096 = some n →
        exec (.opEqCreate k slot) s = .next (s.follow (endEntry
          { (draw s.dev).2 with q := { s.dev.q with eqs := put s.dev.q.eqs n e.newEq } } k slot ST_OK 0 0 n)))) ∧
    (∀ c, e.op = 0x60 → createCause s.dev q.func e = some c →
      exec (.opSqCreate k slot) s = .next (s.follow (endEntry s.dev k slot ST_BAD_ENTRY c))) ∧
    (e.op = 0x63 → destroyCause s.dev q.func e = none →
      (e.oparg0 % 4 = 1 → exec (.opQueueDestroy k slot) s =
        .next (s.follow (endEntry { s.dev with q := { s.dev.q with cqs := drop s.dev.q.cqs (e.object % 65536) } } k slot ST_OK))) ∧
      (e.oparg0 % 4 = 2 → exec (.opQueueDestroy k slot) s =
        .next (s.follow (endEntry { s.dev with q := { s.dev.q with eqs := drop s.dev.q.eqs (e.object % 65536) } } k slot ST_OK)))) ∧
    (e.op = 0x64 → waitsRestart s.dev q.func e = false → modifyCause s.dev q.func e = none →
      exec (.opQueueModify k slot) s = .next (s.follow (modifyQueue s.dev k slot e)) ∧
      (headEntry q = none → flag e.opflags 0 = true →
        exec (.queueRestart k slot) s = .next (s.follow (modifyQueue s.dev k slot e))))

/-- R164, R166 to R168: messages of a connection are sent in the order of their entries. -/
def Obligations.TransportEntriesPostTheirMessage : Prop :=
  ∀ (s : State) (k slot op : Nat) (q : Sq) (e : Entry), startedEntry s.dev op k slot = some (q, e) →
    ∀ t, t = s.follow (updConn (updEntry s.dev k slot (fun e => { e with phase := 1 })) e.object
        (fun c => { c with txMsgs := c.txMsgs ++ [entryMsg k e] })) →
    (op = 0x10 → exec (.opSend k slot) s = .next t) ∧ (op = 0x11 → exec (.opWrite k slot) s = .next t) ∧
    (op = 0x12 → exec (.opWriteImm k slot) s = .next t) ∧ (op = 0x13 → exec (.opRead k slot) s = .next t) ∧
    (op = 0x14 → exec (.opFetchAdd k slot) s = .next t) ∧ (op = 0x15 → exec (.opCmpSwap k slot) s = .next t)

/-- R154 to R156, R160: the life of connections and protection domains. -/
def Obligations.ConnectionOpcodesMakeChangeAndRetire : Prop :=
  ∀ (s : State) (k slot : Nat) (q : Sq) (e : Entry) (d1 d2 : Ix9),
    (∀ r, readBlock s.cells s.dev 0x16 k slot r = (d1, true) → sqAt d1 k = some q → entryAt d1 k slot = some e →
      e.stage = .started → e.op = 0x16 → e.phase = 1 → createCheck d1 q e.block = none → e.object ≠ 0xFFFFFF →
      connFree d1 e.object = true → (createDoc e.block q.func 0).pin = false → makeWay d1 e.object (wantsAhead d1 e.object) = (d2, true) →
      exec (.opConnCreate k slot r) s = .next (s.follow (makeConn d2 e.object k slot q e.block))) ∧
    (∀ r c2, readBlock s.cells s.dev 0x17 k slot r = (d1, true) → sqAt d1 k = some q → entryAt d1 k slot = some e →
      e.stage = .started → e.op = 0x17 → e.phase = 1 →
      c2 = applyWords (connOf d1 e.object) (e.oparg1 % 2 ^ 24) e.block → (connOf d1 e.object).state ≠ csRESET →
      (connOf d1 e.object).state ≠ csQUARANTINE → (connOf d1 e.object).owner = q.func → cachedConn d1 e.object = true →
      modifyBehind d1 e.object k slot = false → transition (connOf d1 e.object).state (e.oparg0 % 8) = true →
      (∀ w < 24, flag (e.oparg1 % 2 ^ 24) w = true → wordSettable w (connOf d1 e.object).state = true) → attrsOk d1 c2 = true →
      rqOk d1 c2.rq q.func (homeTile d1 e.object) = true → keyMissing d1 (connOf d1 e.object) (e.oparg0 % 8) = false →
      c2.pin = false → movePin d1 e.object false = (d2, true) →
      ∀ d3, d3 = updEntry (updConn d2 e.object (fun _ => c2)) k slot (fun e => { e with phase := 2 }) →
      exec (.opConnModify k slot r) s = .next (s.follow
        (modifyState (quotaSettle (if flag (e.oparg1 % 2 ^ 24) 2 then bindRq d3 c2.rq else d3)) e.object k slot (e.oparg0 % 8)))) ∧
    (sqAt s.dev k = some q → entryAt s.dev k slot = some e → e.stage = .started → e.phase = 0 → e.issued = false →
      q.inTurn slot = true →
      (e.op = 0x18 → (connOf s.dev e.object).state = csINIT → (connOf s.dev e.object).owner = q.func →
        exec (.opConnDestroy k slot) s = .next (s.follow (drainDone (updConn
          (updEntry (quotaSettle (toQuarantine s.dev e.object false false)) k slot (fun e => { e with phase := 1 })) e.object
          (fun c => { c with waiter := c.waiter ++ [(k, slot)] })) e.object))) ∧
      (∀ n, e.op = 0x67 → flag e.opflags 0 = false → mayUse s.dev (e.oparg1 % 1024) (e.object % 2 ^ 20) = true →
        quotaAllows s.dev (e.oparg1 % 1024) rPD 1 = true →
        pickFree (draw s.dev).1 (2 ^ 24) (has s.dev.c.pds) (s.dev.c.pds.length + 1) = some n →
        exec (.opPdCreate k slot) s = .next (s.follow (endEntry { (draw s.dev).2 with c :=
          { s.dev.c with pds := put s.dev.c.pds n (e.oparg1 % 1024, e.object % 2 ^ 20) } } k slot ST_OK 0 0 n))) ∧
      (∀ f a, e.op = 0x67 → flag e.opflags 0 = true → look s.dev.c.pds e.object = some (f, a) → parentPf f = q.func →
        pdNamed s.dev e.object = false →
        exec (.opPdCreate k slot) s = .next (s.follow (endEntry (quotaSettle
          { s.dev with c := { s.dev.c with pds := drop s.dev.c.pds e.object } }) k slot ST_OK 0 0 e.object))))

/-- R162, R183: a request in sequence is executed. Stated for native packets of connections without ENC whose ECN is not
marked; the general packet runs the checks of R162. -/
def Obligations.RequestPacketsInOrderExecute : Prop :=
  ∀ (s : State) (p : Packet) (n : Nat) (h : Hdr) (r : Req) (c : Conn) (d : Ix9), n = p.conn → h = nativeHdr p →
    r = pktReq (.native p) h true p.wireBytes → c = connOf s.dev n → d = found s.dev (.native p) →
    (isRequest h.op = true → exec (.requestPacketReceived (.native p)) s =
      .next (s.follow (rxPacket (takeArrived s.dev (.native p)) (.native p)))) ∧
    (isRequest h.op = false → exec (.requestPacketReceived (.native p)) s = .next (s.follow s.dev)) ∧
    (Delivered s.dev (.native p) → p.ecn ≠ 3 → p.psn = c.rxEpsn → c.busy = none → c.rxMsg = none →
      behindRead s.dev n h.op = false →
      (∀ d2 segs m, p.typ = 2 → winFirst d n r 1 r.data.length = (d2, .ok segs) →
        m = ({ op := 0x11, window := r.window, offset := r.offset, scope := r.flags % 4, barrier := flag r.flags 2,
               solicit := flag r.flags 3, win := winOf d r.window, rkey := r.rkey, kept := segs } : RxMsg) →
        exec (.requestPacketReceived (.native p)) s =
          .next (s.follow (execWriteData (tagClear (updConn d2 n (fun c => { c with rxMsg := some m })) n) n h r m segs false))) ∧
      (∀ d2 segs, p.typ = 4 → winFirst d n r 0 r.length = (d2, .ok segs) →
        exec (.requestPacketReceived (.native p)) s = .next (s.follow (execReadReq (tagClear d2 n) n h r segs))) ∧
      (∀ d2 segs, (p.typ = 5 ∨ p.typ = 6) → r.offset % 8 = 0 → winFirst d n r 2 8 = (d2, .ok segs) →
        exec (.requestPacketReceived (.native p)) s = .next (s.follow (execReadReq (tagClear d2 n) n h r segs))))

/-- R162, R187, R265: answers of connections without ENC. -/
def Obligations.AnswersReachTheirConnection : Prop :=
  (∀ (s : State) (p : Pkt) (n tile : Nat) (h : Hdr) (v : AnsView) (c : Conn) (d : Ix9), n = pktConn p → h = pktHdr p →
    v = ansView p h (pktPlain p) → c = connOf s.dev n → d = found s.dev p → tile = homeTile d n → Delivered s.dev p → h.marked = false →
    (∀ q ce, (h.op = 0x20 ∨ h.op = 0x28) → v = .ack q ce → psnSub q c.txUna ≤ psnSub c.txPsn c.txUna →
      exec (.ackReceived p) s = .next (s.follow (ackUpTo
        (if c.roce = true ∨ ce = 0 then endBackoff d n else pacerNotify (endBackoff d n) n) n q))) ∧
    (∀ q r t m, h.op = 0x21 → v = .atomic q r → inRange c q = true → c.txOut.find? (fun t => t.psn == q && isAtomic t.op) = some t →
      c.txMsgs.find? (fun m => m.org == t.org) = some m →
      exec (.atomicAckReceived p) s = .next (s.follow (ackUpTo (updConn
        (if segsLen m.buf = 0 then endBackoff d n else (writeResponse (endBackoff d n) m 0 (leBytes 8 r)).1) n
        (fun c => { c with txMsgs := c.txMsgs.map (fun x => if x.org = t.org then { x with result := r, got := 8 } else x) }))
        n (psnAdd q 1)))) ∧
    (∀ q data t m w, h.op = 0x22 → v = .resp q data → inRange c q = true →
      c.txOut.find? (fun t => t.op == 0x13 && (readLacks c t).isSome) = some t → readLacks c t = some q →
      c.txMsgs.find? (fun m => m.org == t.org) = some m → data.length = min c.mtu (t.off + t.len - max t.off m.got) →
      writeResponse (ackUpTo (endBackoff d n) n t.psn) m m.got data = (w, false) →
      exec (.readRespReceived p) s = .next (s.follow (ackUpTo (updConn w n (fun c => { c with
        txMsgs := c.txMsgs.map (fun x => if x.org = t.org then { x with got := x.got + data.length, answered := true } else x) })) n (psnAdd q 1)))) ∧
    (∀ q, (h.op = 0x23 ∨ h.op = 0x28) → v = .nakSeq q → inRange c q = true → c.retryCnt < rget d Fld.RD_TIMER_RETRY_LIMIT →
      (∀ b at_, c.backAt = some (b, at_) → b ≠ q ∨ at_ + rget d Fld.RD_TIMER_RTO_BASE * 500 ≤ d.el) →
      exec (.nakSeqReceived p) s = .next (s.follow (updConn (count (endBackoff d n) Fld.RD_NAK_RCVD tile) n
        (fun c => { goBack c q with retryCnt := c.retryCnt + 1, backAt := some (q, d.el) })))) ∧
    (∀ q hint, (h.op = 0x24 ∨ h.op = 0x28) → v = .busy q hint → inRange c q = true →
      exec (.busyReceived p) s = .next (s.follow (updConn (endBackoff (count d Fld.RD_BUSY_RCVD tile) n) n
        (fun c => { c with hold := some (.busy q), resend := [] })))) ∧
    (∀ q, h.op = 0x25 → q = h.psn → inRange c q = true → c.hold ≠ some (.backoff false) →
      c.resetCnt + 1 ≤ rget d Fld.RD_RESET_LIMIT →
      exec (.resettingReceived p) s = .next (s.follow (updConn (count d Fld.RD_RESET_RCVD tile) n
        (fun c => { c with resetCnt := c.resetCnt + 1, hold := some (.backoff false), resend := [] })))) ∧
    (∀ q st cause t m, (h.op = 0x26 ∨ h.op = 0x28) → v = .fatal q st cause → inRange c q = true →
      c.txOut.find? (fun t => psnSub q t.psn < t.npsn) = some t → c.txMsgs.find? (fun m => m.org == t.org) = some m →
      exec (.nakFatalReceived p) s = .next (s.follow (enterError d n 3
        (some (m, st, cause, if st = ST_AUTH_UNTRUSTED then untrustedRange c q else 0)) true))) ∧
    ((h.op = 0x27 ∨ h.op = 0x28) → v = .abort → exec (.abortReceived p) s = .next (s.follow (enterError d n 4 none false))) ∧
    (∀ x f r a rc, h.op = 0x29 → c.roce = true → c.pacer.lastDec = none → x = count d Fld.ETH_CNP_RCVD c.netPort → f = profOf (count x Fld.PACER_NOTIFY (homeTile x n)) c →
      f.react = true → r = (accrue (count x Fld.PACER_NOTIFY (homeTile x n)) c).renew f → a = r.alpha - r.alpha / 2 ^ f.g + 65536 / 2 ^ f.g →
      rc = r.rc - r.rc * a / 2 ^ 17 → f.line * f.low / 1000 ≤ rc →
      exec (.cnpReceived p) s = .next (s.follow (updConn (count x Fld.PACER_NOTIFY (homeTile x n)) n (fun c => { c with
        pacer := { r with alpha := a, rc := rc, quiet := 0, lastDec := some d.el, grid := d.el } }))))) ∧
  (∀ (s : State) (p : Pkt), (pktHdr p).op < 0x20 → exec (.ackReceived p) s = .next (s.follow s.dev) ∧
    exec (.busyReceived p) s = .next (s.follow s.dev) ∧ exec (.nakSeqReceived p) s = .next (s.follow s.dev) ∧
    exec (.readRespReceived p) s = .next (s.follow s.dev))

/-- R187: the sender's side of the answers. -/
def Obligations.AnswersMoveTheSender : Prop :=
  ∀ (d : Ix9) (n p : Nat) (c : Conn), c = connOf d n →
    (inRange c p = true →
      (connOf (onBusy d n p) n).hold = some (.busy p) ∧ (connOf (onBusy d n p) n).resend = [] ∧
      (c.hold = none → c.backAt = none → c.retryCnt < rget d Fld.RD_TIMER_RETRY_LIMIT →
        (connOf (onNakSeq d n p) n).retryCnt = c.retryCnt + 1 ∧
        (connOf (onNakSeq d n p) n).resend =
          ((c.txOut.filter (fun t => psnSub p c.txUna < psnSub t.psn c.txUna + t.npsn)).map (·.psn))) ∧
      (c.hold = none → c.resetCnt + 1 ≤ rget d Fld.RD_RESET_LIMIT →
        (connOf (onResetting d n p) n).hold = some (.backoff false) ∧
        (connOf (onResetting d n p) n).resetCnt = c.resetCnt + 1 ∧ (connOf (onResetting d n p) n).resend = [])) ∧
    (inRange c p = false → onBusy d n p = count d Fld.RD_BUSY_RCVD (homeTile d n) ∧ onNakSeq d n p = d ∧ onResetting d n p = d ∧
      (∀ x, onAtomicAck d n p x = d) ∧ (∀ x, onReadResp d n p x = d) ∧ (∀ x y, onNakFatal d n p x y = d)) ∧
    (∀ ce, psnSub c.txPsn c.txUna < psnSub p c.txUna → onAck d n p ce = d) ∧
    (∀ e, p ≠ c.txUna → p < 2 ^ 24 → c.waiter = [] → (∀ m ∈ c.txMsgs, m.allSent = false) → e = connOf (ackTo d n p) n →
      e.txUna = p ∧ e.txPsn = c.txPsn ∧ e.txMsgs = c.txMsgs ∧ e.retryCnt = 0 ∧ e.resetCnt = 0 ∧ e.hold = c.hold ∧
      ∀ t ∈ e.txOut, psnSub p c.txUna < psnSub t.psn c.txUna + t.npsn)

/-- R150, R172, R182, R187, R188, R207: time-driven effects on a connection. -/
def Obligations.ConnectionTimersAndFillsAct : Prop :=
  ∀ (s : State) (n : Nat) (c : Conn), c = connOf s.dev n →
    (placeOf s.dev n = some .filling → c.discarded = false →
      (∀ d, spillPoisoned s.dev n = false → d = setPlace s.dev n (if fillsPinned s.dev n then .pinned else .cached) →
        exec (.connFillDone ⟨n, true⟩) s = .next (s.follow (retryWaiters (retryFills (runParked (touch (pacerFill
          { d with c := { d.c with fillAt := drop d.c.fillAt n, pinFill := d.c.pinFill.filter (· != n) } } n) n) n))))) ∧
      exec (.connFillDone ⟨n, false⟩) s = .next (s.follow (askReset s.dev { level := 3, tile := homeTile s.dev n, engine := 1 }))) ∧
    (placeOf s.dev n = some .spilling → c.discarded = false → ∀ d e, d = setPlace s.dev n .spilled →
      e = { d with
                   c := { d.c with lru := d.c.lru.filter (· != n) },
                   lm := if spillLanding s.dev = true then { d.lm with poison := d.lm.poison.filter (fun w =>
                     !(spillAddr s.dev n ≤ w * 64 && w * 64 < spillAddr s.dev n + 256)) } else d.lm } →
      exec (.connSpillDone n) s =
        .next (s.follow (retryWaiters (retryFills (if parkedOf s.dev n = [] then e else startFill e n))))) ∧
    (c.state = csQUARANTINE → ∀ d, d = dropPlace s.dev n →
      exec (.connQuarantineEnd n) s =
        .next (s.follow (quotaSettle (retryWaiters (retryFills { d with c := { d.c with conns := drop d.c.conns n } }))))) ∧
    (∀ p, c.hold = some (.busy p) → exec (.busyHoldEnd n) s =
      .next (s.only (updConn s.dev n (fun _ => { goBack { c with hold := none } p with forceAck := true, forceTo := c.txPsn })))) ∧
    (∀ x r, c.hold = some (.backoff false) → c.txOut = x :: r → exec (.resetBackoffEnd n) s =
      .next (s.only (updConn s.dev n (fun _ => { c with resend := [x.psn], forceAck := true, forceTo := c.txPsn })))) ∧
    (c.txOut ≠ [] → c.state = csREADY → c.hold = none → c.roce = false → cachedConn s.dev n = true →
      c.retryCnt < rget s.dev Fld.RD_TIMER_RETRY_LIMIT →
      exec (.retransmissionTimerExpiry n) s = .next (s.follow (updConn (count s.dev Fld.RD_TIMEOUTS (homeTile s.dev n)) n
        (fun _ => { goBack { c with hold := none } c.txUna with forceAck := true, forceTo := c.txPsn, retryCnt := c.retryCnt + 1, backAt := some (c.txUna, s.dev.el) })))) ∧
    (c.unacked ≠ 0 → exec (.ackDelayExpiry n) s = .next (s.only (sendAck s.dev n))) ∧
    (cachedConn s.dev n = true → holdsState s.dev n = true → exec (.pacerPeriod n) s =
      .next (s.only (updConn s.dev n (fun _ => { c with pacer := onPeriod s.dev c (accrue s.dev c) }))))

/-- R179, R190, R192: what PACKET_SEND puts on the wire. -/
def Obligations.PacketsLeaveInPsnOrder : Prop :=
  ∀ (s : State) (n : Nat) (c : Conn), c = connOf s.dev n → maySend s.dev n = true →
    (∀ psn r, c.resend = psn :: r → exec (.packetSend n) s = .next (s.follow (sendAgain s.cells s.dev n psn))) ∧
    (∀ p data, c.resend = [] → c.enc = false → planConn c = some p → planHeld c p = false →
      packetData s.cells s.dev p.msg p.off (if p.msg.op = 0x13 then 0 else p.n) = .ok data →
      ∃ (c1 : Conn) (ackreq : Bool), c1.txPsn = psnAdd c.txPsn p.npsn ∧ c1.txUna = c.txUna ∧
        (∃ x : TxPkt, x.psn = c.txPsn ∧ x.npsn = p.npsn ∧ x.org = p.msg.org ∧ c1.txOut = c.txOut ++ [x]) ∧
        exec (.packetSend n) s = .next (s.follow (
          let d := launch (updConn s.dev n (fun _ => c1)) n p.msg c.txPsn p.first p.last ackreq false (if p.msg.op = 0x13 then p.off else 0) (p.off + p.n) data none
          if c.roce then d else pairCount d (pairIndex c.peerEp c.lane) true)))

/-- R121 to R123, R131, R132, R137, R139: what the translation opcodes do once started. -/
def Obligations.TranslationOpcodesTakeEffect : Prop :=
  ∀ (s : State) (k slot : Nat) (q : Sq) (e : Entry) (asid : Nat), asid = e.object % 2 ^ 20 →
    (startedEntry s.dev 0x40 k slot = some (q, e) →
      (mayUse s.dev q.func asid = true → (ctxOf s.dev asid).mode ≠ 1 → exec (.opPrefetch k slot) s =
        .next (s.follow (pfGo (updEntry s.dev k slot (fun e => { e with phase := pfSeek })) k slot))) ∧
      (mayUse s.dev q.func asid = false →
        exec (.opPrefetch k slot) s = .next (s.follow (endEntry s.dev k slot ST_XLATE_PERM)))) ∧
    (startedEntry s.dev 0x41 k slot = some (q, e) → mayUse s.dev q.func asid = true →
      (∀ d, e.action2 < 3 → (ctxOf s.dev asid).advice.length < 64 → d = updCtx s.dev asid
          (fun c => { c with advice := ⟨e.rangeVa, e.rangePages, e.action2, e.oparg0⟩ :: c.advice }) → exec (.opAdvise k slot) s =
        .next (s.follow (endEntry (if e.action2 = 2 then adviceWalks d asid e.rangeVa e.rangePages else d) k slot ST_OK))) ∧
      (e.action2 = 3 → exec (.opAdvise k slot) s =
        .next (s.follow (endEntry (updCtx s.dev asid (fun c => { c with
          advice := c.advice.filter (fun a => !rangesMeet (a.va, a.pages * 4096) e.range) })) k slot ST_OK)))) ∧
    (startedEntry s.dev 0x42 k slot = some (q, e) → e.invKind < 2 → ∀ d, d = updEntry s.dev k slot (fun e => { e with phase := 1 }) →
      (mayUse s.dev q.func asid = true → exec (.opInvalidate k slot) s =
        .next (s.follow (invSteps (startInv d (.entry k slot) e.invKind asid (if e.invKind = 0 then e.rangeVa else 0)
          (if e.invKind = 0 then e.rangePages else 2 ^ 52) q.func (flag (e.slotAt 0) 27) (flag (e.slotAt 0) 28))))) ∧
      (mayUse s.dev q.func asid = false →
        exec (.opInvalidate k slot) s = .next (s.follow (endEntry s.dev k slot ST_XLATE_PERM)))) ∧
    (startedEntry s.dev 0x43 k slot = some (q, e) →
      (∀ w, e.action2 = 0 → winSetCheck s.dev q e = none → quotaAllows s.dev q.func rWIN 1 = true →
        e.object < winTableSize s.dev → e.object ≠ 0xFFFFFF → (winOf s.dev e.object).v = false → (winOf s.dev e.object).quar = false →
        w = winMade q e (winOf s.dev e.object) →
        exec (.opWindowSet k slot) s =
          .next (s.follow (endEntry (setWin s.dev e.object w) k slot ST_OK 0 0 (e.object + w.rkey * 2 ^ 32)))) ∧
      (∀ w old, old = winOf s.dev e.object → winNamed s.dev q e.object = true →
        ((e.action2 = 1 ∧ winSetCheck s.dev q e = none ∧ w = winMade q e old) ∨
          (e.action2 = 2 ∧ w = { old with v := false, quar := true, quarEnd := quarEndOf s.dev })) →
        exec (.opWindowSet k slot) s =
          .next (s.follow (invSteps (startInv
            (updEntry (setWin s.dev e.object w) k slot (fun x => { x with phase := 1, result := e.object + w.rkey * 2 ^ 32 }))
            (.entry k slot) 0 old.asid old.base old.pages q.func false false (some e.object))))))

/-- R117, R123, R124, R127 to R129, R132, R133: the events of translation. -/
def Obligations.InvalidationsAndWalksEnd : Prop :=
  (∀ (s : State) (id k slot : Nat) (r : ReadData) (i : Inv) (e : Entry) (d : Ix9), look s.dev.x.invs id = some i →
    i.draining = false → i.acks = 0 → i.kind < 2 → i.by_ = .entry k slot →
    i.forPrefetch (invMark { s.dev with x := { s.dev.x with invs := drop s.dev.x.invs id } } i) = false →
    d = invPaused (invMark { s.dev with x := { s.dev.x with invs := drop s.dev.x.invs id } } i) i →
    entryAt d k slot = some e → e.op = 0x42 →
    exec (.invalidationDone id r) s = .next (s.follow (endEntry d k slot ST_OK 0 0 (i.withdrawn % 2 ^ 16)))) ∧
  (∀ (s : State) (id : Nat) (i : Inv) (old : List (Nat × Nat)) (d : Ix9), look s.dev.x.invs id = some i → i.draining = true →
    old = (runningOld s.dev i.asid i.va i.pages i.xgen).filter (fun x => !halted s.dev x.1 x.2) →
    d = old.foldl (fun d x => withdraw id d x.1 x.2) s.dev → runsOld d i.asid i.va i.pages i.xgen = [] →
    exec (.invDrainLimitExpiry id) s = .next (s.follow (invSteps d))) ∧
  (∀ (s : State) (isl asid page : Nat) (reads : List (Nat × ReadData)) (w : XReq), w = { isle := isl, asid := asid, page := page, run := true } →
    s.dev.x.walks.find? (fun w => w.isFor isl asid page && w.run) = some w →
    (∀ l br, walk s.cells s.dev isl asid page reads = .leaf l br → l.va ≤ page → page < l.va + l.size →
      exec (.walkDone isl asid page reads) s = .next (s.follow (runWalks (retryXlate (cacheLeaf { s.dev with x := { s.dev.x with
        walks := s.dev.x.walks.filter (fun x => !(x.isle == isl && x.asid == asid && !x.again && decide (l.va ≤ x.page) && decide (x.page < l.va + l.size))) } }
        isl l br) isl l.asid) isl))) ∧
    (∀ f, walk s.cells s.dev isl asid page reads = .fault f →
      exec (.walkDone isl asid page reads) s = .next (s.follow (runWalks
        (xlateFailed { s.dev with x := { s.dev.x with walks := removeFirst s.dev.x.walks w } } isl asid page f) isl)))) ∧
  (∀ (s : State) (isl asid page addr size : Nat) (rd w ns : Bool) (q : XReq), q = { isle := isl, asid := asid, page := page, run := true } →
    s.dev.x.ats.find? (·.isFor isl asid page) = some q → (rd || w) = true → 4096 ≤ size →
    ∀ d, d = { s.dev with x := { s.dev.x with ats := removeFirst s.dev.x.ats q } } →
    exec (.atsTranslationCompletion isl asid page (.ok addr size rd w ns)) s =
      .next (s.follow (retryXlate (cacheLeaf d isl
        { asid := asid, va := page / size * size, size := size, r := rd, w := w, at_ := rd && w,
          phys := ⟨.host, addr / size * size, (ctxOf s.dev asid).owner, ns, true⟩, gen := 0, xgen := (ctxOf s.dev asid).xgen } []) isl asid))) ∧
  (∀ (s : State) (id pasid va pages : Nat), (s.dev.x.ctx.all (fun x => !(x.2.v && x.2.pasid == pasid))) = true →
    exec (.atsInvalidateRequest id pasid va pages) s = .next (s.follow (emit s.dev (.atsInvDone pasid)))) ∧
  (∀ (s : State) (id pasid va pages a : Nat), ((s.dev.x.ctx.filter (fun x => x.2.v && x.2.pasid == pasid)).map (·.1)) = [a] →
    exec (.atsInvalidateRequest id pasid va pages) s =
      .next (s.follow (invSteps (askInv s.dev ⟨.ats id pasid, 0, a, va, pages, (ctxOf s.dev a).owner⟩)))) ∧
  (∀ (s : State) (isl asid page : Nat), (isl, asid, page) ∈ s.dev.x.pri →
    ∀ d, d = { s.dev with x := { s.dev.x with
      pri := removeFirst s.dev.x.pri (isl, asid, page)
      leaves := s.dev.x.leaves.map (fun (i, ls) =>
        (i, if i = isl then ls.filter (fun l => !(l.asid == asid && l.va ≤ page && page < l.va + l.size)) else ls)) } } →
    exec (.pageRequestGroupResponse isl asid page true) s =
      .next (s.follow (emit { d with x := { d.x with ats := d.x.ats ++ [{ isle := isl, asid := asid, page := page, run := true }] } } (.ats (ctxOf d asid).pasid page))) ∧
    exec (.pageRequestGroupResponse isl asid page false) s = .next (s.follow (xlateFailed d isl asid page (noWalk 0x07 page))) ∧
    exec (.priTimeout isl asid page) s = .next (s.follow (xlateFailed d isl asid page (noWalk 0x07 page)))) ∧
  (∀ (s : State) (d : Ix9), wrote s.dev 0 Fld.XLATE_CTRL_LOCK 0 = true → rflag s.dev Fld.XLATE_CTRL_LOCK = false →
    d = { rset s.dev Fld.XLATE_CTRL_LOCK 0 1 with x := { s.dev.x with wins := [] } } → winTableSize d ≠ 0 →
    ∀ p : Phys, p = ⟨if rflag d Fld.XLATE_WIN_BASE_LOC then .landing else .host, rget d Fld.XLATE_WIN_BASE_ADDR * 4096, 0, false, false⟩ →
    exec .xlateLock s =
      .next (s.store (needDest (memWrite d p (List.replicate (32 * winTableSize d) 0)).1 (pathOf d p) .winInit))) ∧
  (∀ s : State, rflag s.dev Fld.XLATE_CTRL_LOCK = true → tokWaits s.dev .winInit = false →
    exec .windowTableInitDone s = .next (s.follow { s.dev with x := { s.dev.x with winReady := true } })) ∧
  (∀ (s : State) (n : Nat) (w : Win), w = winOf s.dev n → w.quar = true →
    exec (.windowQuarantineEnd n) s =
      .next (s.follow (quotaSettle (setWin s.dev n { rkey := w.rkey, begun := w.begun, drained := w.drained }))))

/-- R202, R203: which packet a port sends next. -/
def Obligations.PortsPickTheirNextPacket : Prop :=
  ∀ (s : State) (p : Nat) (b : Ix9), portUp s.dev p = true → rflag s.dev Fld.ETH_LS_STATUS_RETRAINING p = false → b = pickStart s.dev p →
    (preemptive s.dev p = false → (portOf s.dev p).pre.inFrame = none →
      (∀ i k o, laneReady b p 0 = some (i, k, o) → wireOf b p k.len * 10 ^ 6 ≤ l0Tokens b p →
        exec (.portPick p) s = .next (s.store (mcDrain (transmit (updPort b p
          (fun x => { x with l0 := some (l0Tokens b p - wireOf b p k.len * 10 ^ 6, b.el) })) p 0 i k o)))) ∧
      (∀ c l m i k o, laneReady b p 0 = none → m < 7 → (laneReady b p (m + 1)).isSome = true →
        drr 600 b p .all = (c, some l) → laneReady c p l = some (i, k, o) →
        exec (.portPick p) s = .next (s.store (mcDrain (transmit c p l i k o))))) ∧
    (preemptive s.dev p = true →
      (∀ c l i k o, runPick b p .express = (c, some (l, i, k, o)) →
        exec (.portPick p) s = .next (s.store (mcDrain (transmit (cutFrame c p) p l i k o)))) ∧
      (∀ c, runPick b p .express = (c, none) →
        ((portOf c p).pre.inFrame.isSome = true → (portOf c p).gate.hold = false →
          exec (.portPick p) s = .next (s.store (mcDrain (runFrame c p)))) ∧
        ((portOf c p).pre.inFrame.isSome = true → (portOf c p).gate.hold = true →
          exec (.portPick p) s = .next (s.store (mcDrain (cutFrame c p)))) ∧
        (∀ e l i k o, (portOf c p).pre.inFrame = none → runPick c p .preemptible = (e, some (l, i, k, o)) →
          exec (.portPick p) s = .next (s.store (mcDrain (transmit e p l i k o))))))

/-- R215, R218, R219: gate lists. -/
def Obligations.GateListsRunInTheirCycle : Prop :=
  ∀ (s : State) (p : Nat), portExists s.dev p = true →
    (wrote s.dev 0 Fld.GATE_CTRL_EN p = true →
      exec (.gateEnable p) s = .next (s.only (rset s.dev Fld.GATE_CTRL_EN p 1)) ∧
      exec (.gateDisable p) s = .next (s.only (updGate (rset (rset (rset (rset s.dev Fld.GATE_CTRL_EN p 0)
        Fld.GATE_STATUS_LIST_ACTIVE p 0) Fld.GATE_STATUS_HOLD p 0) Fld.GATE_STATUS_SWAP_PENDING p 0) p (fun _ => {})))) ∧
    (∀ t, wrote s.dev 0 Fld.GATE_CTRL_SWAP_REQ p = true → rflag s.dev Fld.GATE_STATUS_SWAP_PENDING p = false →
      (rflag s.dev Fld.GATE_STATUS_LIST_ACTIVE p = true →
        t = boundaryFrom (rget s.dev Fld.GATE_ACT_BASE p) (rget s.dev Fld.GATE_ACT_CYCLE p)
          (max (rget s.dev Fld.GATE_PEND_BASE p) (s.dev.now + 2000))) →
      (rflag s.dev Fld.GATE_STATUS_LIST_ACTIVE p = false →
        t = boundaryFrom (rget s.dev Fld.GATE_PEND_BASE p) (rget s.dev Fld.GATE_PEND_CYCLE p) (s.dev.now + 2000)) →
      exec (.swapReq p) s = .next (s.only (rset (rset s.dev Fld.GATE_STATUS_SWAP_PENDING p 1) Fld.GATE_SWAP_TIME p t))) ∧
    (∀ t a b, rflag s.dev Fld.GATE_STATUS_SWAP_PENDING p = true → t = rget s.dev Fld.GATE_SWAP_TIME p →
      a = rset (rset s.dev Fld.GATE_STATUS_ACTIVE p (1 - gateActive s.dev p)) Fld.GATE_STATUS_LIST_ACTIVE p
        (rget s.dev Fld.GATE_CTRL_EN p) → rget s.dev Fld.GATE_CTRL_EN p < 2 →
      b = rset (rset (rset a Fld.GATE_ACT_BASE p t) Fld.GATE_ACT_CYCLE p (rget a Fld.GATE_PEND_CYCLE p)) Fld.GATE_ACT_LEN p
        (rget a Fld.GATE_PEND_LEN p) →
      (rflag s.dev Fld.GATE_CTRL_EN p = true →
        exec (.gateSwap p) s = .next (s.only (gateFirst (updGate (rset b Fld.GATE_STATUS_SWAP_PENDING p 0) p
          (fun g => { g with realign := false })) p t))) ∧
      (rflag s.dev Fld.GATE_CTRL_EN p = false →
        exec (.gateSwap p) s = .next (s.only (rset b Fld.GATE_STATUS_SWAP_PENDING p 0)))) ∧
    (∀ d, gated s.dev p = true → d = updGate s.dev p (fun g => { g with realign := false }) →
      (∀ x i gs n r, (gateOf s.dev p).realign = false →
        (gateCycle s.dev p).dropWhile (fun e => e.1 != (gateOf s.dev p).entry) = x :: (i, gs, n) :: r →
        exec (.gateEntryBegin p) s = .next (s.only (gateBegin d p i gs n (gateOf s.dev p).endAt))) ∧
      (∀ i gs n r, gateCycle s.dev p = (i, gs, n) :: r → ((gateOf s.dev p).realign = true ∨
          ((gateCycle s.dev p).dropWhile (fun e => e.1 != (gateOf s.dev p).entry)).length < 2) →
        exec (.gateEntryBegin p) s = .next (s.only (gateBegin d p i gs n (gateOf s.dev p).endAt)))) ∧
    (∀ t, exec (.ptpTimeStep t) s = .next (s.only ((List.range 16).foldl (fun d q => if portExists d q && gated d q
      then count (updGate d q (fun g => { g with
             realign := true,
             endAt := boundaryAt (rget d Fld.GATE_ACT_BASE q) (rget d Fld.GATE_ACT_CYCLE q) (t + 1) })) Fld.GATE_REALIGN q
      else d) { s.dev with now := t })))

/-- R218 step 2, R219: the boundary taken is the first one. -/
def Obligations.SwapBoundaryIsTheFirstOfItsGrid : Prop :=
  ∀ base cycle t : Nat, 0 < cycle →
    (t ≤ boundaryFrom base cycle t ∧ (∃ k, boundaryFrom base cycle t = base + k * cycle) ∧
      ∀ k, t ≤ base + k * cycle → boundaryFrom base cycle t ≤ base + k * cycle) ∧
    (base ≤ t → boundaryAt base cycle t = boundaryFrom base cycle t) ∧
    (t < base → t ≤ boundaryAt base cycle t ∧ (∃ k, boundaryAt base cycle t + k * cycle = base) ∧
      ∀ k, t + k * cycle ≤ base → boundaryAt base cycle t ≤ base - k * cycle)

/-- R227, R229 to R233: the link layer of a native port. -/
def Obligations.NativeLinksComeUpAndKeepOrder : Prop :=
  ∀ (s : State) (p w : Nat) (l : Link), l = linkOf s.dev p →
    (∀ d, isNative s.dev p = true → portExists s.dev p = true → l.stage = .training →
      d = updLink s.dev p (fun l => { l with stage := .init }) →
      exec (.linkTrainingDone p) s = .next (s.only (emit d (.linkWord p (initWord d p))))) ∧
    (l.stage = .init → exec (.initTimer p) s = .next (s.only (emit s.dev (.linkWord p (initWord s.dev p))))) ∧
    (∀ share d, wordOk w 5 = true → l.stage = .init →
      d = rset s.dev Fld.LINK_STATUS_PEER_EP p (bits w 56 40) → share = rget d Fld.LINK_CRED_SHARE p →
      exec (.initReceived p w) s = .next (s.store (openCredits (rset (rset (updLink d p (fun l =>
        { l with stage := .up, peerGen := some (bits w 39 32), share := share,
                 given := (List.range 8).map (fun i => (i, shareCredits d p share i - heldCredits l i)) }))
        Fld.LINK_STATUS_UP p 1) Fld.LINK_STATUS_TRAINING p 0) p))) ∧
    (wordOk w 2 = true → l.stage = .up → exec (.creditReceived p w) s = .next (s.only (resendGo (updLink s.dev p (fun l =>
      { l with granted := (List.range 4).foldl (fun t i => put t (4 * bit w 59 + i) (num t (4 * bit w 59 + i) +
        (bits w (19 + 12 * i) (8 + 12 * i) + 4096 - num t (4 * bit w 59 + i) % 4096) % 4096)) l.granted })) p))) ∧
    (rflag s.dev Fld.LINK_STATUS_UP p = true → exec (.creditTimer p) s = .next (s.only (sendCredits s.dev p))) ∧
    (∀ rest, wordOk w 3 = true → (replayHas l (bits w 51 40) = true ∨ bits w 51 40 = l.txSeq) →
      rest = l.replay.dropWhile (fun r => r.1 != bits w 51 40) →
      exec (.lackReceived p w) s = .next (s.only (updLink s.dev p
        (fun _ => { l with replay := rest, retries := if rest.length < l.replay.length then (0, 0) else l.retries })))) ∧
    (l.sinceLack ≠ 0 → exec (.lackTimer p) s = .next (s.only (emit (updLink s.dev p (fun l => { l with sinceLack := 0 })) (.linkWord p (lackWord l.rxSeq))))) ∧
    (∀ again, wordOk w 4 = true → replayHas l (bits w 51 40) = true → l.retries = (0, 0) → 1 ≤ rget s.dev Fld.LINK_CFG_RETRY_MAX p →
      again = l.replay.dropWhile (fun r => r.1 != bits w 51 40) →
      exec (.lnakReceived p w) s = .next (s.store (resendGo
        (updLink s.dev p (fun l => { l with retries := (bits w 51 40, 1), resend := again.map (·.1) })) p))) ∧
    (∀ k seq n, (portOf s.dev p).link.resend = [seq] → (portOf s.dev p).link.replay.find? (fun e => e.1 == seq) = some (seq, k) →
      n = creditsOf k.payLen → n ≤ linkCredit s.dev p k.lane → resendGo s.dev p = updPort (emit (count (updPort s.dev p
        (fun x => { x with link := { x.link with used := bump x.link.used k.lane n } })) Fld.LINK_REPLAYS p) (.tx p (.native k) seq)) p
        (fun x => { x with link := { x.link with resend := [] } })) ∧
    (∀ k, rflag s.dev Fld.LINK_STATUS_UP p = false → exec (.linkPacketReceived p w k) s =
      .next (s.only (rxPulse (count s.dev Fld.LINK_DOWN_DISCARDS p) p k.wireLen))) ∧
    (isNative s.dev p = true → portExists s.dev p = true →
      exec (.linkWordTimeout p) s = .next (s.store (linkDown s.dev p))) ∧
    (isNative s.dev p = true → portExists s.dev p = true →
      exec (.pcsBlockLockLoss p) s = .next (s.store (linkDown s.dev p))) ∧
    (isNative s.dev p = false → portExists s.dev p = true → rflag s.dev Fld.ETH_STATUS_UP p = true →
      exec (.pcsBlockLockLoss p) s = .next (s.store (ethFall s.dev p))) ∧
    (∀ b r, wrote s.dev 0 Fld.LINK_CFG_NATIVE p = true → portExists s.dev p = true → isNative s.dev p = !b →
      r = rget s.dev Fld.LINK_CFG_RETRY_MAX p → 1 ≤ r → r < 256 →
      exec (.linkCfgNativeWrite p b) s = .next (s.store (linkDown (rset (rset (rset (rset s.dev Fld.LINK_CFG_RETRY_MAX p r)
        Fld.LINK_CFG_NATIVE p (b2n b)) Fld.ETH_STATUS_UP p 0) Fld.ETH_STATUS_AN_DONE p 0) p))) ∧
    (wordOk w 5 = false → exec (.initReceived p w) s = .next (s.store (count s.dev Fld.LINK_CRC_ERR p))) ∧
    (wordOk w 2 = false → exec (.creditReceived p w) s = .next (s.only (count s.dev Fld.LINK_CRC_ERR p))) ∧
    (wordOk w 3 = false → exec (.lackReceived p w) s = .next (s.only (count s.dev Fld.LINK_CRC_ERR p))) ∧
    (wordOk w 4 = false → exec (.lnakReceived p w) s = .next (s.store (count s.dev Fld.LINK_CRC_ERR p)))

/-- R228, R231, R232: the packet a native link takes. -/
def Obligations.IntactPacketsWithTheExpectedSequenceAreTaken : Prop :=
  ∀ (s : State) (p w : Nat) (k k' : Packet) (l : Link) (d : Ix9), l = linkOf s.dev p → rflag s.dev Fld.LINK_STATUS_UP p = true →
    k' = { k with hops := bits w 59 56, hopdone := bit w 55 = 1, birth := bits w 39 24, srcConn := bits w 23 0 } →
    bits w 63 60 = 1 → crc3 w = bits w 54 52 → k'.crc = k'.trailer → bits w 51 40 = l.rxSeq → l.sinceLack < 31 →
    packetWell k' = true →
    d = updLink s.dev p (fun l => { l with rxSeq := (l.rxSeq + 1) % 4096, lnak := none, sinceLack := l.sinceLack + 1 }) →
    meterAt d (8192 + 8 * p + k'.lane) = none →
    exec (.linkPacketReceived p w k) s =
      .next (s.only (rxPulse (updLink d p (fun l => { l with rx := l.rx ++ [k'] })) p k.wireLen))

/-- R241's algorithm: which port a packet leaves by. -/
def Obligations.RoutesFollowTheirPortSets : Prop :=
  ∀ (d : Ix9) (k : Packet) (set : Nat), set < 2 ^ 16 →
    set = (if !(k.hopdone || fabGroup d == k.intm / 256) then groupPorts d k.epoch (k.intm / 256)
           else if fabGroup d != k.dst / 256 then groupPorts d k.epoch (k.dst / 256) else memberPorts d k.epoch (k.dst % 256)) →
    (route d k = .local_ ↔ k.dst = fabEp d) ∧
    (∀ p hd, route d k = .port p hd → flag set p = true ∧ p < 16 ∧ hd = (k.hopdone || fabGroup d == k.intm / 256)) ∧
    (k.dst ≠ fabEp d → set ≠ 0 → ∃ p hd, route d k = .port p hd) ∧ (k.dst ≠ fabEp d → set = 0 → route d k = .none_)

/-- R241, R242, R247, R251: routing of received packets, and the steps of an epoch change. -/
def Obligations.FabricRoutesAndChangesEpoch : Prop :=
  ∀ (s : State) (flipped : Ix9 → Ix9), flipped = (fun d =>
      let e := rset (rset (rset d Fld.FAB_EPOCH_CUR 0 (1 - rget d Fld.FAB_EPOCH_CUR)) Fld.FAB_EPOCH_COMMITTED 0 0) Fld.FAB_EPOCH_SETTLING 0 1
      { e with net := { e.net with
          flipArmed := false
          pairs := if rflag d Fld.FAB_CTRL_FWD_EN = true then e.net.pairs
            else e.net.pairs.map (fun x => (x.1, { x.2 with
                epoch := (1 - rget d Fld.FAB_EPOCH_CUR) % 2, count := 0,
                drawn := x.2.drawn && x.2.epoch == (1 - rget d Fld.FAB_EPOCH_CUR) % 2 })) } }) →
    (∀ p lane i k, findAt (linkOf s.dev p).rx (fun k => k.lane == lane) = some (i, k) →
      ∀ out, out = (fun d => freeCredits (updLink d p (fun l => { l with rx := l.rx.eraseIdx i })) p k) →
      (rflag s.dev Fld.FAB_CTRL_FWD_EN = false →
        exec (.nativePacketRoute p lane) s = .next (s.follow (out (count s.dev Fld.FAB_TRANSIT_DISCARDS)))) ∧
      (rflag s.dev Fld.FAB_CTRL_FWD_EN = true → epochRouted s.dev k.epoch = true →
        (∀ q hd, k.mc = false → route s.dev k = .port q hd →
          (k.hops < 14 → ageMs s.dev k < 500 → exec (.nativePacketRoute p lane) s =
            .next (s.follow (out (toPort s.dev q { k with hopdone := hd, hops := k.hops + 1 } none)))) ∧
          (14 ≤ k.hops → exec (.nativePacketRoute p lane) s = .next (s.follow (out (count s.dev Fld.FAB_HOP_DISCARDS)))) ∧
          (k.hops < 14 → 500 ≤ ageMs s.dev k →
            exec (.nativePacketRoute p lane) s = .next (s.follow (out (count s.dev Fld.FAB_EXPIRED))))) ∧
        (k.mc = false → route s.dev k = .local_ →
          exec (.nativePacketRoute p lane) s = .next (s.follow (out (deliverLocal s.dev k)))) ∧
        (k.mc = false → route s.dev k = .none_ →
          exec (.nativePacketRoute p lane) s = .next (s.follow (out (count s.dev Fld.FAB_NO_ROUTE)))) ∧
        (∀ d, k.mc = true → multicast s.dev (some p) none k = (d, false) →
          exec (.nativePacketRoute p lane) s = .next (s.follow (out d))) ∧
        (∀ d, k.mc = true → multicast s.dev (some p) none k = (d, true) →
          findAt (linkOf d p).rx (fun k => k.lane == lane && !k.mc) = none →
          exec (.nativePacketRoute p lane) s = .next (s.follow d)))) ∧
    (∀ i, exec (.pairCountTimeout i) s = .next (s.only { s.dev with net :=
      { s.dev.net with pairs := upd s.dev.net.pairs i (fun e => { e with count := 0 }) } })) ∧
    (wrote s.dev 0 Fld.FAB_EPOCH_COMMIT 0 = true → rflag s.dev Fld.FAB_EPOCH_SETTLING = false → exec .fabEpochCommit s =
      .next (s.only { rset s.dev Fld.FAB_EPOCH_COMMITTED 0 1 with net := { s.dev.net with late := [] } })) ∧
    (wrote s.dev 0 Fld.FAB_EPOCH_FLIP 0 = true → rflag s.dev Fld.FAB_EPOCH_COMMITTED = true →
      (rget s.dev Fld.FAB_FLIP_AT ≤ s.dev.now → exec .fabEpochFlip s = .next (s.only (flipped s.dev))) ∧
      (s.dev.now < rget s.dev Fld.FAB_FLIP_AT → exec .fabEpochFlip s =
        .next (s.only { s.dev with net := { s.dev.net with flipArmed := true } }))) ∧
    (s.dev.net.flipArmed = true → rflag s.dev Fld.FAB_EPOCH_COMMITTED = true →
      exec .flipTime s = .next (s.only (flipped s.dev))) ∧
    (rflag s.dev Fld.FAB_EPOCH_SETTLING = true → exec .fabEpochForceExpiry s = .next (s.only { s.dev with net :=
      { s.dev.net with pairs := s.dev.net.pairs.map (fun (i, e) => (i, if e.epoch = rget s.dev Fld.FAB_EPOCH_CUR then e
        else { e with epoch := rget s.dev Fld.FAB_EPOCH_CUR, drawn := false })) } })) ∧
    exec .fabEpochSettleExpiry s = .next (s.only (rset s.dev Fld.FAB_EPOCH_SETTLING 0 0)) ∧
    (∀ v, wrote s.dev 0 Fld.FAB_EPOCH_CUR 0 = true →
      (rflag s.dev Fld.FAB_CTRL_FWD_EN = false → exec (.fabEpochCurWrite v) s =
        .next (s.only { rset s.dev Fld.FAB_EPOCH_CUR 0 v with
          net := { s.dev.net with pairs := s.dev.net.pairs.map (fun x => (x.1, { x.2 with epoch := v % 2, count := 0, drawn := x.2.drawn && x.2.epoch == v % 2 })) } })) ∧
      (rflag s.dev Fld.FAB_CTRL_FWD_EN = true → exec (.fabEpochCurWrite v) s = .next s))

/-- R257: the receive checks in their order. -/
def Obligations.FramesPassTheChecksInOrder : Prop :=
  ∀ (s : State) (p : Nat) (l b : List Byte), isNative s.dev p = false → portUp s.dev p = true →
    rflag s.dev Fld.PWR_STATUS_STANDBY = false → b = l.take (l.length - 4) →
    exec (.ethFrameReceived p (.frame true l)) s = .next (s.store (rxPulse (count s.dev Fld.ETH_RX_CODE_ERR p) p l.length)) ∧
    (l.length < 64 →
      exec (.ethFrameReceived p (.frame false l)) s = .next (s.store (rxPulse (count s.dev Fld.ETH_RX_RUNT p) p l.length))) ∧
    (64 ≤ l.length → rget s.dev Fld.ETH_CFG_MAX_FRAME p < l.length →
      exec (.ethFrameReceived p (.frame false l)) s = .next (s.store (rxPulse (count s.dev Fld.ETH_RX_OVERSIZE p) p l.length))) ∧
    (64 ≤ l.length → l.length ≤ rget s.dev Fld.ETH_CFG_MAX_FRAME p → fcs b ≠ l.drop (l.length - 4) →
      exec (.ethFrameReceived p (.frame false l)) s = .next (s.store (rxPulse (count s.dev Fld.ETH_RX_FCS_ERR p) p l.length))) ∧
    (∀ v ip, 64 ≤ l.length → l.length ≤ rget s.dev Fld.ETH_CFG_MAX_FRAME p → fcs b = l.drop (l.length - 4) →
      rflag s.dev Fld.ETH_MACSEC_CFG_EN p = false → v = ethView b → excClass v = none → v.dst = rget s.dev Fld.ETH_MAC p →
      (v.etype = 0x0800 ∨ v.etype = 0x86DD) → ipView v.etype v.rest = some ip → localIp s.dev p ip = true → ip.proto = 17 →
      fieldBE ip.pay 2 2 = 4791 → fieldBE (ip.pay.drop 8) 1 1 % 16 = 0 →
      (fieldBE (ip.pay.drop 8) 0 1 < 0x20 ∨ fieldBE (ip.pay.drop 8) 0 1 = 0x81) →
      icrc ip.ipv6 ip.hdr (ip.pay.take 8) ((ip.pay.drop 8).take 12) (((ip.pay.drop 8).drop 12).take ((ip.pay.drop 8).length - 16)) =
        (ip.pay.drop 8).drop ((ip.pay.drop 8).length - 4) →
      exec (.ethFrameReceived p (.frame false l)) s = .next (s.store (rxPulse (acceptFrame s.dev p l.length v ip) p l.length)) ∧
      (∀ lane r, lane = rxLane s.dev p (fieldBE (ip.pay.drop 8) 0 1) v ip → r = rocePktOf s.dev p lane l.length ip →
        meterAt s.dev (8192 + 8 * p + lane) = none → rxColour v = .green →
        num (portOf s.dev p).rxFill lane + l.length ≤ shareBytes s.dev p lane → ∀ d,
        d = updPort (count (count s.dev Fld.ETH_RX_FRAMES p) Fld.ETH_RX_BYTES p l.length) p
          (fun x => { x with rxFill := bump x.rxFill lane l.length }) →
        exec (.ethFrameReceived p (.frame false l)) s =
          .next (s.store (rxPulse (pfcCheck (arrive d (homeTile d r.destQp) lane (.roce r)) p lane) p l.length)))) ∧
    (∀ v c, 64 ≤ l.length → l.length ≤ rget s.dev Fld.ETH_CFG_MAX_FRAME p → fcs b = l.drop (l.length - 4) →
      rflag s.dev Fld.ETH_MACSEC_CFG_EN p = false → v = ethView b → v.etype ≠ 0x8808 → excClass v = some c →
      flag (rget s.dev Fld.ETH_EXC_CFG p) c = true → (v.dst = rget s.dev Fld.ETH_MAC p ∨ flag (fieldBE b 0 1) 0 = true) →
      meterAt s.dev (8192 + 8 * p + excLane s.dev p v) = none → rxColour v = .green → ∀ d,
      d = count (count s.dev Fld.ETH_RX_FRAMES p) Fld.ETH_RX_BYTES p l.length →
      exec (.ethFrameReceived p (.frame false l)) s = .next (s.store (rxPulse
        (excDeliver d p c b ((s.dev.now : Int) + rsigned s.dev Fld.ETH_TS_ADJ_RX p 16).toNat) p l.length))) ∧
    exec (.ethFrameReceived p .badFragments) s = .next (s.store (rxPulse (count s.dev Fld.ETH_RX_ASSY_ERR p) p 0)) ∧
    exec (.ethFrameReceived p .verify) s = .next (s.store (rxPulse (emit s.dev (.verify p true)) p 0))

/-- R255, R268, R269: port events that follow a timer or a peer. -/
def Obligations.PausesAndPreemptionFollowTheirTimers : Prop :=
  ∀ (s : State) (p : Nat),
    (isNative s.dev p = false → portExists s.dev p = true → rget s.dev Fld.ETH_LS_STATUS_LANES p ≠ 0 →
      exec (.ethLinkUp p) s = .next (s.only (preemptFollow (rset (rset s.dev Fld.ETH_STATUS_UP p 1) Fld.ETH_STATUS_AN_DONE p 1) p))) ∧
    (∀ g v, wrote s.dev 0 Fld.ETH_GRP_CFG_MODE g = true → lanesFitted s.dev.code g ≠ 0 →
      ∀ ports d e, ports = (List.range 8).map (8 * g + ·) →
      d = ports.foldl (fun d p => if portExists d p then (if isNative d p then linkFall d p else ethFall d p) else d) s.dev →
      e = { rset (rset d Fld.ETH_GRP_CFG_MODE g v) Fld.ETH_SPARE_STATUS_BUSY g 0 with
            net := { d.net with spare := put d.net.spare g {} } } →
      exec (.ethGrpModeWrite g v) s =
        .next (s.store (ports.foldl (fun d p => if portExists d p && isNative d p then bringUp d p else d) e))) ∧
    (∀ prios quanta, (∀ lane < 8, (List.range 8).filter (fun c => flag prios c && pcpLane s.dev p c == lane) = [] ∨
        flag (rget s.dev Fld.ETH_PFC_EN p) lane = false) →
      exec (.pfcFrameReceived p prios quanta) s = .next (s.only (count s.dev Fld.ETH_RX_PFC p))) ∧
    (∀ prios quanta d lane n, d = count s.dev Fld.ETH_RX_PFC p → lane < 8 → flag (rget d Fld.ETH_PFC_EN p) lane = true →
      (∃ c < 8, flag prios c = true) → (∀ c < 8, flag prios c = true → pcpLane d p c = lane) →
      n = ((((List.range 8).filter (flag prios)).map (fun c => (quanta[c]?).getD 0)).foldl max 0) →
      (n ≠ 0 → exec (.pfcFrameReceived p prios quanta) s = .next (s.only (updPort d p
        (fun x => { x with paused := put x.paused lane (d.el + ceilDiv (n * 512 * 1000) (portRate d p)) })))) ∧
      (n = 0 → exec (.pfcFrameReceived p prios quanta) s =
        .next (s.only (updPort d p (fun x => { x with paused := drop x.paused lane }))))) ∧
    (∀ prios quanta, exec (.pfcFrameReceived p prios quanta) s = .next (s.only (pfcReceived s.dev p prios quanta))) ∧
    (∀ lane, exec (.pfcPauseExpiry p lane) s = .next (s.only (updPort s.dev p (fun x => { x with paused := drop x.paused lane })))) ∧
    (∀ lane, lane ∈ (portOf s.dev p).pausing → pfcReady s.dev p = true →
      (num (portOf s.dev p).rxFill lane + 32768 ≤ pfcLevel s.dev p lane → exec (.pfcRepeatTimer p lane) s =
        .next (s.only (updPort (sendPfc s.dev p lane 0) p (fun x => { x with pausing := x.pausing.filter (· != lane) })))) ∧
      (pfcLevel s.dev p lane < num (portOf s.dev p).rxFill lane + 32768 →
        exec (.pfcRepeatTimer p lane) s = .next (s.only (sendPfc s.dev p lane 0xFFFF)))) ∧
    (rget s.dev Fld.ETH_PREEMPT_STATUS_VERIFY p = 1 →
      ((portOf s.dev p).pre.attempts < 3 → exec (.preemptVerifyTimer p) s = .next (s.only (emit (updPort s.dev p
        (fun x => { x with pre := { x.pre with attempts := x.pre.attempts + 1 } })) (.verify p false)))) ∧
      (3 ≤ (portOf s.dev p).pre.attempts →
        exec (.preemptVerifyTimer p) s = .next (s.only (rset s.dev Fld.ETH_PREEMPT_STATUS_VERIFY p 3))))

/-- R272 to R274, R279: sparing, shedding and timestamps. -/
def Obligations.LanesAreSparedAndShed : Prop :=
  ∀ (s : State) (p g lane : Nat),
    (lane < 8 → laneInUse s.dev g lane = true → rflag s.dev Fld.ETH_SPARE_CFG_AUTO g = true → spareOf s.dev g = {} →
      rflag s.dev Fld.ETH_SPARE_MAP_USED g = false → rflag s.dev Fld.ETH_LS_STATUS_RETRAINING (lanePort s.dev g lane) = false →
      exec (.laneLockLoss g lane) s =
        .next (s.store (rset (updSpare s.dev g (fun x => { x with busy := some lane })) Fld.ETH_SPARE_STATUS_BUSY g 1))) ∧
    (∀ d, wrote s.dev 0 Fld.ETH_SPARE_CTRL_REQ g = true → d = rset s.dev Fld.ETH_SPARE_CTRL_LANE g lane →
      portExists d (lanePort d g (lane % 8)) = true → spareOf s.dev g = {} → rflag d Fld.ETH_SPARE_MAP_USED g = false →
      rflag d Fld.ETH_LS_STATUS_RETRAINING (lanePort d g (lane % 8)) = false →
      exec (.ethSpareReq g lane) s =
        .next (s.store (rset (updSpare d g (fun x => { x with busy := some (lane % 8) })) Fld.ETH_SPARE_STATUS_BUSY g 1))) ∧
    ((spareOf s.dev g).busy = some lane → ∀ d, d = rset (rset (rset s.dev Fld.ETH_SPARE_MAP_FAILED g lane) Fld.ETH_SPARE_MAP_USED g 1)
        Fld.ETH_SPARE_STATUS_BUSY g 0 →
      exec (.spareAdaptDone g) s =
        .next (s.store (portEvent (updSpare d g (fun x =>
          { x with busy := none, overs := drop (drop x.overs (2 * lane)) (2 * lane + 1) })) (lanePort d g lane) 2 lane))) ∧
    (∀ corr unc d, d = count (count s.dev Fld.ETH_LANE_CORR (g * 16 + lane) corr) Fld.ETH_LANE_UNCORR (g * 16 + lane) unc →
      (8 ≤ lane → exec (.fecWindowEnd g [(lane, corr, unc)]) s = .next (s.store d)) ∧
      (lane < 8 → laneInUse d g lane = true → rflag d Fld.ETH_SPARE_CFG_AUTO g = false →
        corr ≤ rget d Fld.ETH_SPARE_CFG_THRESH g → unc = 0 → exec (.fecWindowEnd g [(lane, corr, unc)]) s =
          .next (s.store (updSpare d g (fun x => { x with overs := put (put x.overs (2 * lane) 0) (2 * lane + 1) 0 })))) ∧
      (lane < 8 → laneInUse d g lane = true → rflag d Fld.ETH_SPARE_CFG_AUTO g = false →
        rget d Fld.ETH_SPARE_CFG_THRESH g < corr → unc = 0 → exec (.fecWindowEnd g [(lane, corr, unc)]) s =
          .next (s.store (updSpare d g (fun x =>
            { x with overs := put (put x.overs (2 * lane) (num (spareOf d g).overs (2 * lane) + 1)) (2 * lane + 1) 0 }))))) ∧
    (∀ tx rx, s.dev.code < 2 → rflag s.dev Fld.ETH_LS_EN p = true → isNative s.dev p = false → portUp s.dev p = true →
      rflag s.dev Fld.ETH_LS_STATUS_RETRAINING p = false → portLanes s.dev p = laneWidth s.dev (p / 8) →
      max tx rx * 16 < rget s.dev Fld.ETH_LS_THRESH p * portRate s.dev p →
      (rget s.dev Fld.ETH_LS_DWELL p * 10 ≤ (portOf s.dev p).shedLow + 1 → 1 < portLanes s.dev p →
        minLanes s.dev p ≤ portLanes s.dev p / 2 →
        exec (.laneShedWindow p tx rx) s = .next (s.only (lsRetrain s.dev p (portLanes s.dev p / 2)))) ∧
      ((portOf s.dev p).shedLow + 1 < rget s.dev Fld.ETH_LS_DWELL p * 10 → exec (.laneShedWindow p tx rx) s =
        .next (s.only (updPort s.dev p (fun x => { x with shedLow := (portOf s.dev p).shedLow + 1 }))))) ∧
    (∀ n d, (portOf s.dev p).lsTarget = some n → d = rset (rset s.dev Fld.ETH_LS_STATUS_RETRAINING p 0) Fld.ETH_LS_STATUS_LANES p n →
      ∀ e, e = (List.range 8).foldl (fun d lane => shedQueue d p lane)
        (portEvent (updPort d p (fun x => { x with lsTarget := none, shedLow := 0 })) p 4 n) → (spareOf e (p / 8)).wait = none →
      exec (.lsRetrainDone p) s = .next (s.store e)) ∧
    (∀ a b c sec x r, wrote s.dev 0 Fld.ETH_TS_SEC p = true → (portOf s.dev p).tsFifo = (a, b, c, sec, x) :: r →
      exec (.ethTsPop p) s = .next (s.only (emit (updPort s.dev p (fun q => { q with tsFifo := r })) (.value (sec % 2 ^ 48)))))

/-- R287, R291: the eight Heat opcodes start. -/
def Obligations.HeatEntriesEnterTheEngine : Prop :=
  ∀ (s : State) (k slot : Nat) (q : Sq) (e : Entry) (gn : Nat) (g : Group) (seq next op : Nat) (b d : Ix9), startedEntry s.dev op k slot = some (q, e) → gn = e.object % 4096 → look s.dev.h.groups gn = some g → g.owner = q.func → g.tile = q.tile →
    startSeq g e = (seq, next) →
    b = updGroup (updEntry s.dev k slot (fun e => { e with phase := 1 })) gn (fun g => { g with nextSeq := next }) →
    d = heatsRun s.cells (replayEarly s.cells (enterHeat b (heatKey gn g.ep.epoch seq) (heatOf b g gn seq k e)) gn) →
    (op = 0x20 → exec (.opAllReduce k slot) s = .next (s.follow d)) ∧
    (op = 0x21 → exec (.opReduceScatter k slot) s = .next (s.follow d)) ∧
    (op = 0x22 → exec (.opAllGather k slot) s = .next (s.follow d)) ∧
    (op = 0x23 → exec (.opReduce k slot) s = .next (s.follow d)) ∧
    (op = 0x24 → exec (.opBroadcast k slot) s = .next (s.follow d)) ∧
    (op = 0x25 → exec (.opAllToAll k slot) s = .next (s.follow d)) ∧
    (op = 0x26 → exec (.opAllToAllv k slot) s = .next (s.follow d)) ∧
    (op = 0x27 → exec (.opGroupBarrier k slot) s = .next (s.follow d)) ∧
    (∀ (c : Ix9) key h, look c.h.groups h.group = some g → look g.recorded h.seq = none → tableDown c g = false →
      heatAt (enterHeat c key h) key = some { h with xfers := planOf h } ∧
      look (enterHeat c key h).h.groups h.group = some { g with lastStarted := some h.seq })

/-- R282 to R286: OP_GROUP_SET. -/
def Obligations.GroupsAreCreatedAdvancedAndDestroyed : Prop :=
  ∀ (s : State) (k slot : Nat) (q : Sq) (e : Entry) (r : ReadData) (gn : Nat) (old : Option Group), startedEntry s.dev 0x28 k slot = some (q, e) → gn = e.object % 4096 → old = look s.dev.h.groups gn →
    (∀ g, e.opflags % 4 = 2 → old = some g → g.owner = q.func → g.dying = none →
      exec (.opGroupSet k slot r) s = .next (s.follow (destroyWaits
        (updGroup (updEntry s.dev k slot (fun e => { e with phase := 1 })) gn (fun g => { g with dying := some (k, slot) }))))) ∧
    (∀ b place, readSegs s.cells s.dev ((e.bufs.head?.map (·.segs)).getD []) r = .ok b →
      place = (if stacksOf s.dev.code = 0 then (e.bufs.head?.map (·.segs)).getD [] else []) → groupCheck s.dev q (e.opflags % 4) old (groupEpOf e b) = none →
      (e.opflags % 4 = 0 → quotaAllows s.dev q.func rHEAT 1 = true →
        exec (.opGroupSet k slot r) s = .next (s.follow (endEntry { s.dev with
          h := { s.dev.h with groups := put s.dev.h.groups gn { owner := q.func, tile := q.tile, ep := groupEpOf e b, place := place } } }
          k slot ST_OK 0 b.length))) ∧
      (e.opflags % 4 = 1 →
        exec (.opGroupSet k slot r) s = .next (s.follow (endEntry (updGroup s.dev gn (fun o => { o with
          ep := groupEpOf e b, place := place, mcLast := none, nextSeq := 0, lastStarted := none, recorded := [], early := o.early.filter (fun c => c.epoch == (groupEpOf e b).epoch) }))
          k slot ST_OK 0 b.length))))

/-- R296 to R304: the control messages of a Heat. -/
def Obligations.ControlMessagesActOnTheirHeat : Prop :=
  ∀ (s : State) (k : Packet) (kind : Nat) (d : Ix9) (tile : Nat) (c : Ctrl) (key : Nat) (h : Heat), openCtrl s.dev k = (d, some (tile, c)) → c.kind = kind →
    islandReady s.dev (iCOLL tile) = true → ctrlHeat d tile c = some (key, h) →
    (kind = 1 → h.aborted = none → (∀ x ∈ h.xfers, x.mc = true → x.lap ≠ c.lap) → c.a = h.hash → h.op ≠ 0x26 →
      ∀ i x, findAt h.xfers (fun x => x.send && x.lap == c.lap && x.peer == c.sender) = some (i, x) →
      exec (.heatCreditReceived k) s = .next (s.follow (heatsRun s.cells
        (updHeat d key (fun h => { h with xfers := h.xfers.set i { x with cred := x.cred ++ [c.b % 1024] } }))))) ∧
    (∀ x ∈ h.xfers, kind = 1 → h.aborted = none → c.a = h.hash → x.mc = true → x.lap = c.lap →
      exec (.heatCreditReceived k) s = .next (s.follow (heatsRun s.cells (mcCredit
        (updHeat d key (fun h => { h with mcFreed := (c.sender, c.b % 1024) :: h.mcFreed })) key (c.b % 1024))))) ∧
    (kind = 1 → h.aborted = none → c.a ≠ h.hash → h.op ≠ 0x30 → exec (.heatCreditReceived k) s =
      .next (s.follow (heatsRun s.cells (heatOrigin d key ST_HEAT_ABORTED 0x05 c.sender)))) ∧
    (kind = 2 → h.finished = false → h.aborted = none → h.sentUp = false →
      exec (.heatAbortReceived k) s = .next (s.follow (heatsRun s.cells
        (heatAbort (count d Fld.COLL_ABORTS_RCVD h.tile) key ⟨c.status, c.cause, c.origin, c.lap, c.a % 65536, none, false⟩ (some c.sender))))) ∧
    (kind = 3 → c.sender ∉ h.ups →
      exec (.finishUpReceived k) s = .next (s.follow (heatsRun s.cells (updHeat d key (fun h => noteArrived d.now { h with ups := insertNat h.ups c.sender } 0xFFFE c.sender))))) ∧
    (kind = 4 → h.decision = none → h.fast = false → c.status = 0 → h.sentUp = true → h.finished = false →
      exec (.releaseReceived k) s = .next (s.follow (heatsRun s.cells (heatComplete
        (sendRelease (updHeat d key (fun h => noteArrived d.now { h with decision := some (0, 0) } 0xFFFF c.sender)) h 0 0 (h.tree0.children h.ep.bib)) key ST_OK 0)))) ∧
    (∀ st cs, kind = 5 → heatAt d key = some h → h.decision = some (st, cs) →
      exec (.queryReceived k) s = .next (s.follow (heatsRun s.cells (sendRelease d h st cs [c.sender])))) ∧
    (∀ x, kind = 6 → h.xfers.find? (fun x => x.mc && !x.send) = some x → x.done = true ∨ has x.chunks c.a = true →
      exec (.markReceived k) s = .next (s.follow (heatsRun s.cells (mcCredit
        (updHeat d key (fun h => { h with mcMark := put h.mcMark (c.a % 8) (c.a, c.b) })) key (c.a % 8) true)))) ∧
    (∀ x e, kind = 6 → h.xfers.find? (fun x => x.mc && !x.send) = some x → x.done = false → has x.chunks c.a = false →
      e = updHeat d key (fun h => { h with mcMark := put h.mcMark (c.a % 8) (c.a, c.b) }) →
      (c.b ≤ num h.mcGot (c.a % 8) → exec (.markReceived k) s = .next (s.follow (heatsRun s.cells (mcTake s.cells e key c.a c.b .own)))) ∧
      (num h.mcGot (c.a % 8) < c.b → exec (.markReceived k) s =
        .next (s.follow (heatsRun s.cells (ctrlTo e h.ep x.peer { kind := 7, seq := h.seq, lap := x.lap, a := c.a }))))) ∧
    (∀ i x p, kind = 7 → findAt h.xfers (fun x => x.mc && x.send) = some (i, x) → h.ep.peer c.sender = some p → c.a < x.n → x.n ≤ c.a + 8 →
      ∀ b e, b = sub (xData h x) (c.a * chunkBytes d h x) ((c.a + 1) * chunkBytes d h x) →
      e = updHeat (count { d with h := { d.h with nextLocal := d.h.nextLocal + 1 } } Fld.COLL_MC_REPAIRS tile) key
        (fun h => { h with inflight := h.inflight + 1 }) →
      ∀ msg : TxMsg, msg = { org := .heat key ((i + 1) * 2 ^ 40 + d.h.nextLocal), op := 0x11, inl := some b, window := p.win, rkey := p.rkey, offset := c.a % 8 * chunkSize e, total := b.length } →
      exec (.repairReceived k) s = .next (s.follow (heatsRun s.cells (postMsg e p.conn msg))))

/-- R298 to R304: the timers of a Heat. -/
def Obligations.HeatTimersRepeatAndEnd : Prop :=
  ∀ (s : State) (gn ep seq key : Nat) (h : Heat), key = heatKey gn ep seq → heatAt s.dev key = some h →
    (∀ a, h.aborted = some a → h.repeats ≠ 0 → exec (.abortRepeatTimer gn ep seq) s =
      .next (s.follow (heatForget (sendAborts (updHeat s.dev key (fun h => { h with repeats := h.repeats - 1 })) h a h.repeatTo) key))) ∧
    (∀ q p, h.queries = some (q + 1) → h.tree0.parent h.ep.bib = some p → ∀ msg : Ctrl, msg = { kind := 5, seq := h.seq, lap := 0xFFFF } →
      exec (.queryRepeatTimer gn ep seq) s =
        .next (s.follow ((insertNat [0] p).foldl (fun d b => ctrlTo d h.ep b msg) (updHeat s.dev key (fun h => { h with queries := some q }))))) ∧
    (h.queries = some 0 → exec (.queryRepeatTimer gn ep seq) s = .next (s.follow (heatComplete
      (updHeat s.dev key (fun h => { h with aborted := some ⟨ST_HEAT_ABORTED, 0x09, h.ep.bib, 0xFFFF, 0, none, false⟩ })) key ST_HEAT_ABORTED 0x09))) ∧
    (h.finished = true → exec (.decisionHoldExpiry gn ep seq) s =
      .next (s.follow (heatForget (updHeat s.dev key (fun h => { h with decision := none, repeats := 0 })) key))) ∧
    (∀ slot i x mcg, h.xfers.find? (fun x => x.mc && x.send) = some x → h.ep.dataMc = some mcg → x.n ≠ 0 → h.aborted = none →
      (∃ c ∈ h.rooted.children h.ep.bib, (c, slot) ∉ h.mcFreed) → ((List.range x.n).filter (fun i => i % 8 == slot)).getLast? = some i →
      exec (.mcRepairTimer gn ep seq slot) s =
        .next (s.follow (sendMark s.dev h mcg x.lap i (min (chunkBytes s.dev h x) (xBytes h x - i * chunkBytes s.dev h x))))) ∧
    (h.finished = false → h.aborted = none → has h.windowEnd 0xFFFF = true → h.sentUp = true → h.decision = none →
      exec (.lapWindowExpiry gn ep seq 0xFFFF) s = .next (s.follow (startQuery s.dev key h))) ∧
    (∀ b, h.finished = false → h.aborted = none → has h.windowEnd 0xFFFE = true → h.sentUp = false → h.visible = true →
      (h.tree0.children h.ep.bib).find? (fun b => !h.ups.contains b) = some b →
      exec (.lapWindowExpiry gn ep seq 0xFFFE) s = .next (s.follow (heatOrigin s.dev key ST_HEAT_ABORTED 0x01 b))) ∧
    (∀ lap x, h.finished = false → h.aborted = none → has h.windowEnd lap = true → lap < 0xFFFE → h.xfers.find? (fun x => !x.send && !x.done && x.lap == lap) = some x →
      exec (.lapWindowExpiry gn ep seq lap) s = .next (s.follow (heatOrigin s.dev key ST_HEAT_ABORTED 0x01 x.peer)))

/-- R339 to R344: sequence objects and attention requests. -/
def Obligations.AttentionEntriesEnterTheEngine : Prop :=
  ∀ (s : State) (k slot : Nat) (q : Sq) (e : Entry) (op : Nat), startedEntry s.dev op k slot = some (q, e) →
    (∀ r b x old, op = 0x32 → old = look s.dev.h.seqs (e.object % 65536) → readSegs s.cells s.dev ((e.bufs.head?.map (·.segs)).getD []) r = .ok b →
      x = seqOf q b → 1 ≤ x.cap → x.cap ≤ 16384 → seqCheck s.dev q old x = none →
      (e.opflags % 4 = 0 → old = none → quotaAllows s.dev q.func rSEQ 1 = true → exec (.opAttBlockTable k slot r) s =
        .next (s.follow (endEntry { s.dev with h := { s.dev.h with seqs := put s.dev.h.seqs (e.object % 65536) { x with dying := none } } }
          k slot ST_OK 0 64))) ∧
      (∀ o, e.opflags % 4 = 1 → old = some o → o.owner = q.func → o.tile = q.tile → exec (.opAttBlockTable k slot r) s =
        .next (s.follow (endEntry { s.dev with h := { s.dev.h with seqs := put s.dev.h.seqs (e.object % 65536) { x with dying := o.dying } } }
          k slot ST_OK 0 64)))) ∧
    (∀ r o d, op = 0x32 → e.opflags % 4 = 2 → look s.dev.h.seqs (e.object % 65536) = some o → o.owner = q.func → o.tile = q.tile →
      d = updEntry s.dev k slot (fun e => { e with phase := 1 }) → exec (.opAttBlockTable k slot r) s =
        .next (s.follow (destroyWaits { d with
          h := { d.h with seqs := upd s.dev.h.seqs (e.object % 65536) (fun o => { o with dying := some (k, slot) }) } }))) ∧
    (∀ o a h d, look s.dev.h.seqs (e.object % 65536) = some o → o.owner = q.func → o.tile = q.tile → maraReady s.dev = true →
      a = attOf e o.tokens → d = updEntry s.dev k slot (fun e => { e with phase := 1 }) →
      h = Heat.ofAtt o a k e →
      (attGrouped e o = false → ∀ t, t = heatsRun s.cells { d with h := { d.h with nextLocal := d.h.nextLocal + 1, heats := put d.h.heats (localBase + d.h.nextLocal) h } } →
        (op = 0x30 → exec (.opAttDecode k slot) s = .next (s.follow t)) ∧
        (op = 0x31 → exec (.opAttPrefill k slot) s = .next (s.follow t))) ∧
      (∀ gn g seq next, attGrouped e o = true → gn = o.group.getD 0 → look d.h.groups gn = some g → startSeq g e = (seq, next) → op = 0x30 →
        exec (.opAttDecode k slot) s = .next (s.follow (heatsRun s.cells (replayEarly s.cells (enterHeat
          (updGroup d gn (fun g => { g with nextSeq := next })) (heatKey gn g.ep.epoch seq)
          { h with group := gn, ep := g.ep, seq := seq, root := g.ep.bib }) gn)))) ∧
      (∀ gn g seq next c x, attGrouped e o = true → gn = o.group.getD 0 → look d.h.groups gn = some g → startSeq g e = (seq, next) → op = 0x31 →
        c = updGroup d gn (fun g => { g with nextSeq := next }) → batonStream s.cells c o a g.ep.bib = .inr x →
        exec (.opAttPrefill k slot) s = .next (s.follow (heatsRun s.cells (replayEarly s.cells (enterHeat c (heatKey gn g.ep.epoch seq)
          { h with group := gn, ep := g.ep, seq := seq, root := g.ep.bib, res := x }) gn)))))

/-- R337, R350, R355: the passes of a request and the opening of a scatter Heat. -/
def Obligations.AttentionIslandsAndScatterHolders : Prop :=
  (∀ (s : State) (key island : Nat) (h : Heat) (a : Att) (o : SeqObj) (qb : List Byte) (origin : Nat) (p : Pass) (d : Ix9), heatAt s.dev key = some h → h.att = some a →
    look s.dev.h.seqs a.seq = some o → attQueries h = some qb → shardAt h a = some (origin, none) → localBase ≤ key → h.finished = false →
    h.aborted = none → h.written = false → a.done.contains island = false → island < tilesOf s.dev.code → a.shards = [] →
    look a.islands island = none →
    islandPass o a a.tokens o.first (shardRow s.cells s.dev o a.layer) (queryRows o a qb) (islandRows a.tokens island)
      { recs := List.replicate (attRows o a) (freshRow o.dim) } = .inr p →
    (∀ d0, d0 = (if p.blocks = 0 then s.dev else count s.dev Fld.MARA_BLOCKS island p.blocks) →
      d = if p.skipped = 0 then d0 else count d0 Fld.MARA_SKIPPED island p.skipped) →
    ∀ isl, isl = put a.islands island (p.recs.flatMap id) →
    ((∃ t < tilesOf s.dev.code, t ≠ island ∧ a.done.contains t = false) →
      exec (.maraIslandDone key island) s = .next (s.follow (attsRun s.cells
        (updHeat d key (fun h => { h with att := some { a with islands := isl, done := island :: a.done } }))))) ∧
    ((∀ t < tilesOf s.dev.code, t = island ∨ a.done.contains t = true) →
      exec (.maraIslandDone key island) s = .next (s.follow (attsRun s.cells (attWrite
        (updHeat d key (fun h => { h with att := some { a with islands := isl, done := [], shards := a.shards ++ [origin] } })) key
        (mergeIslands ((List.range (tilesOf s.dev.code)).map (fun i => chunksOf (lseD o.dim + 2) (lookD isl i)))))))))  ∧
  (∀ (s : State) (gn seq peer : Nat) (b : List Byte) (g : Group) (sn : Nat) (o : SeqObj), look s.dev.h.groups gn = some g →
    has s.dev.h.heats (heatKey gn g.ep.epoch seq) = false → notStarted g { kind := 0, epoch := g.ep.epoch, seq := seq } = true →
    present s.dev uMARATHON = true → s.dev.h.seqs.find? (fun (_, x) => x.group == some gn && x.tag == fieldLE b 0 4) = some (sn, o) →
    o.dim = fieldLE b 5 1 → o.heads = fieldLE b 6 1 + 1 → fieldLE b 4 1 < o.layers → fieldLE b 12 3 + (fieldLE b 8 2 % 4096 + 1) ≤ 16777216 →
    ∀ a h len, a = Att.ofHeader b sn o.tokens → len = 32 + attRows o a * lseD o.dim * blockSize a.qFmt →
      h = (Heat.ofHeader g gn seq b (Att.ofHeader b)).serves o a →
      exec (.scatterHeaderReceived gn seq peer b) s = .next (s.follow (heatsRun s.cells (replayEarly s.cells
        (updHeat (enterHeat { s.dev with h := { s.dev.h with groups := upd s.dev.h.groups gn (fun g => { g with nextSeq := (seq + 1) % 65536 }) } }
            (heatKey gn g.ep.epoch seq) h) (heatKey gn g.ep.epoch seq)
          (fun h => { h with xfers := h.xfers.map (fun x => if x.space != .query then x
            else if !x.send && x.peer == peer then { x with hi := len, n := 1, chunks := [(0, b)] } else { x with hi := len }) })) gn))))

/-- R366, R373 to R375, R379: what landing memory does by itself and when asked to. -/
def Obligations.LandingMemoryIsScrubbedAndRepaired : Prop :=
  ∀ (s : State) (stack ch bank row pin : Nat),
    (∀ ecc n, n = unitCount s.dev * (unitBytes / 64) →
      (s.dev.lm.scrub + 1 < n → exec (.patrolScrubTick ecc) s =
        .next (s.store (updLm (eccRead s.dev true (s.dev.lm.scrub * 64) ecc) (fun l => { l with scrub := s.dev.lm.scrub + 1 })))) ∧
      (n ≠ 0 → s.dev.lm.scrub + 1 = n → exec (.patrolScrubTick ecc) s =
        .next (s.store ((List.range (lmStacks (eccRead s.dev true (s.dev.lm.scrub * 64) ecc))).foldl (fun d k => count d Fld.LM_SCRUB_PASSES k)
          (updLm (eccRead s.dev true (s.dev.lm.scrub * 64) ecc) (fun l => { l with scrub := 0, rowErr := [] })))))) ∧
    (stack < lmStacks s.dev → wrote s.dev 0 Fld.LM_REPAIR_CTRL_ROW_REQ stack = true → ch = rget s.dev Fld.LM_REPAIR_CTRL_CHANNEL stack →
      bank = rget s.dev Fld.LM_REPAIR_CTRL_BANK stack → row = rget s.dev Fld.LM_REPAIR_ROW stack →
      has s.dev.lm.sparing (rowKey stack ch bank row) = false → rowKey stack ch bank row ∉ s.dev.lm.remapped →
      num s.dev.lm.rowSpares (bankKey stack ch bank) < 8 → exec (.rowReq stack) s =
        .next (s.store (spareBusy (updLm s.dev (fun l => { l with
          rowSpares := bump l.rowSpares (bankKey stack ch bank) 1, sparing := put l.sparing (rowKey stack ch bank row) 2 })) stack))) ∧
    (look s.dev.lm.sparing (rowKey stack ch bank row) = some 2 → exec (.rowSpareCopyDone stack ch bank row) s =
      .next (s.store (updLm s.dev (fun l => { l with
        sparing := put l.sparing (rowKey stack ch bank row) 4, remapped := insertNat l.remapped (rowKey stack ch bank row) })))) ∧
    (look s.dev.lm.sparing (rowKey stack ch bank row) = some 4 → exec (.postPackageRepairDone stack ch (some (bank, row))) s =
      .next (s.store (lmRecord (count (spareBusy (updLm s.dev (fun l => { l with sparing := drop l.sparing (rowKey stack ch bank row) })) stack)
        Fld.LM_ROWS_SPARED stack) 5 true 0 stack ch bank row 0))) ∧
    (stack < lmStacks s.dev → wrote s.dev 0 Fld.LM_REPAIR_CTRL_PIN_REQ stack = true → ch = rget s.dev Fld.LM_REPAIR_CTRL_CHANNEL stack →
      has s.dev.lm.steered (chanKey stack ch) = false → has s.dev.lm.steering (chanKey stack ch) = false → exec (.pinReq stack) s =
        .next (s.store (spareBusy (updLm s.dev (fun l => { l with
          steering := put l.steering (chanKey stack ch) (rget s.dev Fld.LM_REPAIR_CTRL_PIN stack, 2) })) stack))) ∧
    ((∀ x ∈ s.dev.lm.pinErr, x.2 < rget s.dev Fld.LM_REPAIR_PIN_THRESH) →
      exec .pinThreshWindow s = .next (s.store (updLm s.dev (fun l => { l with pinErr := [] })))) ∧
    (∀ x d, s.dev.lm.pinErr.filter (fun x => decide (rget s.dev Fld.LM_REPAIR_PIN_THRESH ≤ x.2)) = [x] →
      stack = x.1 / 256 / 16 → ch = x.1 / 256 % 16 → pin = x.1 % 256 → has s.dev.lm.steered (chanKey stack ch) = false →
      has s.dev.lm.steering (chanKey stack ch) = false → d = updLm s.dev (fun l => { l with pinErr := [] }) →
      exec .pinThreshWindow s = .next (s.store (spareBusy (updLm d (fun l => { l with
        steering := put l.steering (chanKey stack ch) (pin, 2) })) stack))) ∧
    (stack < lmStacks s.dev → wrote s.dev 0 Fld.LM_REPAIR_CTRL_PIN_REQ stack = true → ch = rget s.dev Fld.LM_REPAIR_CTRL_CHANNEL stack →
      has s.dev.lm.steered (chanKey stack ch) = true →
      exec (.pinReq stack) s = .next (s.store (lmEvent (rset s.dev Fld.LM_SPARE_STATUS_PIN_EXHAUSTED stack 1) stack 4 ch))) ∧
    (look s.dev.lm.steering (chanKey stack ch) = some (pin, 2) → exec (.pinSteerCopyDone stack ch) s =
      .next (s.store (updLm s.dev (fun l => { l with
        steering := put l.steering (chanKey stack ch) (pin, 4), steered := put l.steered (chanKey stack ch) (pin + 1) })))) ∧
    (∀ d, look s.dev.lm.steering (chanKey stack ch) = some (pin, 4) →
      d = spareBusy (updLm s.dev (fun l => { l with steering := drop l.steering (chanKey stack ch) })) stack →
      exec (.postPackageRepairDone stack ch none) s = .next (s.store (lmEvent (lmRecord
        (rset d Fld.LM_SPARE_STATUS_PINS stack (setBits (rget d Fld.LM_SPARE_STATUS_PINS stack) ch ch 1)) 4 true pin stack ch 0 0 0) stack 4 ch))) ∧
    (∀ u x, look s.dev.lm.zeroing u = some x → exec (.lmZeroDone false u) s =
      .next (s.follow (quotaSettle (lmZero { s.dev with lm := { s.dev.lm with zeroing := drop s.dev.lm.zeroing u } } (u * unitBytes) unitBytes)))) ∧
    (∀ b, exec (.lmZeroDone true b) s =
      .next (s.follow { s.dev with lm := { s.dev.lm with blocks := s.dev.lm.blocks.filter (· != b) } }))

/-- R387 to R394: the engines' entries and descriptors. -/
def Obligations.StrideEntriesAndDescriptorsRun : Prop :=
  (∀ (s : State) (k slot op c : Nat) (q : Sq) (e : Entry) (d : Ix9), startedEntry s.dev op k slot = some (q, e) → chanOfEntry s.dev k slot = some c →
    d = updEntry (updChan s.dev c (fun ch => { ch with begun := true })) k slot (fun e => { e with phase := 1 }) →
    (op = 0x01 → exec (.opCopy k slot) s = .next (s.follow (strideRun d c))) ∧
    (op = 0x02 → exec (.opFill k slot) s = .next (s.follow (strideRun d c))) ∧
    (∀ f ch r n, op = 0x02 → strideFuel d c = f + 1 → look (strideStart d c).stride c = some ch → chanState (strideStart d c) c = chRUN →
      ch.msg = none → ch.begun = true → movingRun ch = some r → pieceRoom r = some n → r.desc.op = 1 →
      (∀ g b, sideNext (strideStart d c) c ch r true = (b, .seg g) → exec (.opFill k slot) s =
        .next (s.follow (strideGo f (strideWrite b c r g (fillBytes r.desc.src r.pos (min n g.len))) c)))) ∧
    (∀ ch r n g t, op = 0x01 → look (strideStart d c).stride c = some ch → chanState (strideStart d c) c = chRUN →
      ch.msg = none → ch.begun = true → movingRun ch = some r → pieceRoom r = some n → r.desc.op = 0 →
      sideNext (strideStart d c) c ch r false = (strideStart d c, .seg g) → sideNext (strideStart d c) c ch r true = (strideStart d c, .seg t) →
      (∀ n w key, g.phys.target ≠ .remote n w key) → strideFuel d c ≠ 0 →
      exec (.opCopy k slot) s = .next (s.follow (strideStart d c))) ∧
    (∀ a, op = 0x03 → flag e.opflags 0 = false → a = e.operandAt 1 →
      (a % 64 = 0 → exec (.opChainStart k slot) s =
        .next (s.follow (updChan (rset d Fld.STRIDE_CH_DESC c a) c (fun ch => { ch with next := some a })))) ∧
      (a % 64 ≠ 0 → exec (.opChainStart k slot) s =
        .next (s.follow (updChan (rset d Fld.STRIDE_CH_DESC c a) c (fun ch => { ch with
          next := none, fin := some (some (ST_BAD_ENTRY, 0x04, a)) })))))) ∧
  (∀ (s : State) (c : Nat) (ch : Chan) (a : Nat) (rd : ReadData) (g : Seg) (b : List Byte) (d e : Ix9) (r : DescRun), look s.dev.stride c = some ch →
    chanState s.dev c = chRUN → ch.msg = none → ch.fin = none → ch.runs.length < 2 → (∀ r ∈ ch.runs, r.ended = true) →
    ch.next = some a → chanXlate s.dev ch c a 0 a false = (d, .seg g) → (∀ n w key, g.phys.target ≠ .remote n w key) →
    memRead s.cells d g.phys 48 rd = .ok b → (descOf b).v = true → descMalformed (descOf b) = false → look d.stride c = some ch →
    r = { k := ch.nextK, addr := some a, desc := descOf b, bad := none } →
    e = updChan (rset d Fld.STRIDE_CH_DESC c a) c (fun ch => { ch with runs := ch.runs ++ [r], nextK := ch.nextK + 1, next := none }) →
    ((descOf b).last = true → exec (.descriptorReadReturn c rd) s =
      .next (s.follow (strideRun (updChan e c (fun ch => { ch with fin := some none })) c))) ∧
    ((descOf b).last = false → (descOf b).next % 64 = 0 → exec (.descriptorReadReturn c rd) s =
      .next (s.follow (strideRun (updChan e c (fun ch => { ch with next := some (descOf b).next })) c)))) ∧
  (∀ (s : State) (c : Nat) (ch : Chan) (r : DescRun) (rest : List DescRun) (a : Nat) (g : Seg) (d e : Ix9), look s.dev.stride c = some ch → ch.runs = r :: rest →
    r.addr = some a → r.ended = true → r.acks = 0 → r.back = none → ch.msg = none → chanState s.dev c ≠ chPAUSED →
    chanXlate s.dev ch c a r.desc.tag (a + 0x30) true = (d, .seg g) → (∀ n w key, g.phys.target ≠ .remote n w key) →
    memWrite d g.phys r.wb = (e, false) →
    exec (.descriptorEnd c) s =
      .next (s.follow (needDest (updRun e c r.k (fun r => { r with back := some true })) (pathOf e g.phys) (.descBack c r.k))))

/-- R398 to R402: pacing and control of a channel. -/
def Obligations.StrideChannelsArePacedAndControlled : Prop :=
  ∀ (s : State) (c : Nat),
    (∀ line, line < 0x3F → c < 128 → rget s.dev Fld.STRIDE_CH_CFG_REQ_LINE c = line →
      (rget s.dev Fld.STRIDE_CH_REQS c < 65535 → rget (linePulse s.dev line) Fld.STRIDE_CH_REQS c = rget s.dev Fld.STRIDE_CH_REQS c + 1) ∧
      (65535 ≤ rget s.dev Fld.STRIDE_CH_REQS c → rget (linePulse s.dev line) Fld.STRIDE_CH_STATUS_REQ_OVF c = 1)) ∧
    (∀ line, lineExists s.dev line = true → exec (.requestLinePulse line) s = .next (s.only (linePulse s.dev line))) ∧
    (∀ pin up, pin < 16 → flag (rget s.dev Fld.STRIDE_DREQ_POL) pin ≠ up → exec (.dreqEdge pin up) s = .next (s.only (linePulse s.dev pin))) ∧
    exec .ppsInEdge s = .next (s.only (linePulse { s.dev with ppsAt := some s.dev.now } 32)) ∧
    exec .timeSecondBoundary s = .next (s.only (linePulse (emit (emit s.dev (.pin .ppsOut true)) (.pin .ppsOut false)) 33)) ∧
    (∀ ch r b, look s.dev.stride c = some ch → chanState s.dev c = chRUN → rget s.dev Fld.STRIDE_CH_REQS c ≠ 0 → movingRun ch = some r →
      r.desc.waitReq = true → r.burst = none → b = rget s.dev Fld.STRIDE_CH_CFG_BURST_LOG2 c → 8 ≤ b → b ≤ 24 →
      exec (.strideBurstStart c) s = .next (s.follow (strideRun
        (updRun (rset s.dev Fld.STRIDE_CH_REQS c (rget s.dev Fld.STRIDE_CH_REQS c - 1)) c r.k
          (fun r => { r with burst := some (min (2 ^ b) (r.total - r.pos)) })) c))) ∧
    (∀ f setup, regReach s.dev f = true → c < 128 → (if setup = true then f = 0 else rget s.dev Fld.STRIDE_CH_CFG_OWNER c = f) → level40 s.dev = false →
      (chanState s.dev c = chRUN → exec (.stridePause f c setup) s = .next (s.follow (setChan s.dev c chPAUSING))) ∧
      (chanState s.dev c = chPAUSED → exec (.strideResume f c setup) s = .next (s.follow (strideRun (setChan s.dev c chRUN) c))) ∧
      (chanState s.dev c = chRUN → rflag s.dev Fld.STRIDE_CH_CFG_IX4_STOP c = true →
        exec (.strideStop f c setup) s = .next (s.follow (chainEnd (setChan s.dev c chSTOPPING) c))) ∧
      (∀ ch d, chanState s.dev c = chPAUSED → look s.dev.stride c = some ch → ch.chain = true → (∀ r ∈ ch.runs, r.resv = false) →
        d = updChan s.dev c (fun ch => { ch with runs := ch.runs.map (fun r => { r with resv := false }) }) →
        exec (.strideStop f c setup) s =
          .next (s.follow (chanFinish d c ST_STOPPED 0x03 (ch.bytes % 2 ^ 32) (rget s.dev Fld.STRIDE_CH_DESC c)))) ∧
      (chanState s.dev c = chPAUSING →
        exec (.strideStop f c setup) s = .next (s.follow (rset s.dev Fld.STRIDE_CH_STATUS_STOP_PENDING c 1)))) ∧
    (∀ f setup, regReach s.dev f = true → c < 128 → (if setup = true then f = 0 else rget s.dev Fld.STRIDE_CH_CFG_OWNER c = f) → level40 s.dev = true →
      exec (.stridePause f c setup) s = .next (s.follow (strideStop s.dev c))) ∧
    (∀ ch, look s.dev.stride c = some ch → chanState s.dev c = chPAUSING → ch.msg = none → (∀ r ∈ ch.runs, r.ended = false) →
      rflag (setChan s.dev c chPAUSED) Fld.STRIDE_CH_STATUS_STOP_PENDING c = false →
      exec (.pausingDone c) s = .next (s.follow (setChan s.dev c chPAUSED)))

/-- R408, R421 to R423: the key operations. -/
def Obligations.KeysAreBoundRotatedAndRetired : Prop :=
  ∀ (s : State) (k slot : Nat) (q : Sq) (e : Entry) (r : ReadData),
    (startedEntry s.dev 0x50 k slot = some (q, e) →
      (∀ b x, keyKind e = 0 → readBuf s.cells s.dev k slot 0 e r = (s.dev, some b) → has s.dev.ciph.slots e.object = false →
        s.dev.ciph.drk = some x →
        (∀ key, openBlob x b = some key → exec (.opKeyBind k slot r) s = .next (s.follow (endEntry (showSlots
          (updCiph s.dev (fun c => { c with slots := put c.slots e.object (key, e.oparg1 % 2 ^ 10) }))) k slot ST_OK))) ∧
        (openBlob x b = none → exec (.opKeyBind k slot r) s = .next (s.follow (endEntry s.dev k slot ST_KEY_UNAVAILABLE 0x10)))) ∧
      (keyKind e = 1 → keyConnOk s.dev q e.object = true → (connOf s.dev e.object).state = csINIT → (connOf s.dev e.object).enc = true →
        exec (.opKeyBind k slot r) s = .next (s.follow (endEntry (updConn s.dev e.object (fun c =>
          { c.setEpoch 0 with peerIncarn := some e.oparg0, txc := (0, 0), rxEpoch := (0, 0), epAcked := false })) k slot ST_OK))) ∧
      (∀ b p tx ch an f sa, 2 ≤ keyKind e → readBuf s.cells s.dev k slot 0 e r = (s.dev, some b) → saOf e = (p, tx, ch, an) →
        f = (fun i n => leNat ((b.drop i).take n)) →
        sa = Sa.mk tx ch an (f 0 32) (f 0x20 12) (f 0x2C 4) (if tx then rget s.dev Fld.ETH_MAC p * 2 ^ 16 + (p + 1) else f 0x30 8) (f 0x38 8) (f 0x38 8) →
        exec (.opKeyBind k slot r) s = .next (s.follow (endEntry (updPort s.dev p (fun x => { x with
          sas := x.sas.filter (fun o => !(o.tx == tx && o.an == an && (tx || o.ch == ch))) ++ [sa] })) k slot ST_OK)))) ∧
    (startedEntry s.dev 0x51 k slot = some (q, e) →
      (keyKind e = 0 → keyConnOk s.dev q e.object = true → (connOf s.dev e.object).epAcked = true →
        exec (.opKeyRotate k slot) s = .next (s.follow (endEntry (updConn s.dev e.object (fun c =>
          { c.setEpoch ((c.keyEpoch + 1) % 256) with txc := (0, 0), epAcked := false })) k slot ST_OK))) ∧
      (keyKind e ≠ 0 → exec (.opKeyRotate k slot) s =
        .next (s.follow (endEntry (updPort s.dev (saOf e).1 (fun p => { p with txAn := (saOf e).2.2.2 })) k slot ST_OK)))) ∧
    (startedEntry s.dev 0x52 k slot = some (q, e) →
      (keyKind e = 0 → slotUsers s.dev e.object = [] → exec (.opKeyRetire k slot) s =
        .next (s.follow (endEntry (showSlots (updCiph s.dev (fun c => { c with
          slots := drop c.slots e.object, fetching := c.fetching.filter (fun f => (connOf s.dev f.2.conn).tenant != e.object),
          keys := c.keys.map (fun (t, l) => (t, l.filter (fun x => (connOf s.dev x.1.conn).tenant != e.object))) }))) k slot ST_OK))) ∧
      (∀ d, keyKind e = 0 → flag e.opflags 2 = true →
        d = (slotUsers s.dev e.object).foldl (fun d n => if (connOf d n).state = csERROR then dropRx d n else enterError d n 5 none true) s.dev →
        exec (.opKeyRetire k slot) s = .next (s.follow (endEntry (showSlots (updCiph d (fun c => { c with
          slots := drop c.slots e.object, fetching := c.fetching.filter (fun f => (connOf d f.2.conn).tenant != e.object),
          keys := c.keys.map (fun (t, l) => (t, l.filter (fun x => (connOf d x.1.conn).tenant != e.object))) }))) k slot ST_OK))) ∧
      (∀ p tx ch an, keyKind e ≠ 0 → saOf e = (p, tx, ch, an) → (tx = true → an ≠ (portOf s.dev p).txAn) → exec (.opKeyRetire k slot) s =
        .next (s.follow (endEntry (updPort s.dev p (fun x => { x with
          sas := x.sas.filter (fun o => !(o.tx == tx && o.an == an && (tx || o.ch == ch))) })) k slot ST_OK))))

/-- R407 to R411, R418, R425, R426: the Vault. -/
def Obligations.VaultFetchesSealsAndTestsItself : Prop :=
  ∀ (s : State),
    (∀ chan d drk key, fwRequest s.dev chan 0x01 = true → 32 ≤ chan → key = (List.range 8).foldl (fun a i => a + mboxWord s.dev chan (2 + i) * 2 ^ (32 * i)) 0 →
      d = (List.range 8).foldl (fun d i => rset d Fld.MBOX_DATA (chan * 16 + 2 + i) 0) s.dev → d.ciph.drk = some drk → vaultReady d = true →
      exec (.sealCommand chan) s = .next (s.store (fwReply d chan (0 :: words32 (sealBlob drk (mboxWord s.dev chan 1) key))))) ∧
    (∀ tile conn dir epoch send root d k, k = KeyId.mk conn dir epoch send → (tile, k) ∈ s.dev.ciph.fetching →
      d = updCiph s.dev (fun c => { c with fetching := c.fetching.filter (· != (tile, k)) }) →
      rootKey d (connOf d conn) = some root → vaultReady d = true →
      ∀ v, v = kdf root labelWkey (workContext conn (connOf d conn) k) →
      exec (.vaultKeyFetchDone tile conn dir epoch send) s = .next (s.follow (flushAnswers (runParked
        (updCiph (count d Fld.VAULT_DERIVES) (fun c => { c with
          keys := updD c.keys tile (fun l => ((k, v) :: l.filter (fun e => e.1 != k)).take 16384) })) conn) conn))) ∧
    (∀ n, (connOf s.dev n).tagFails.1 ≠ 0 → exec (.tagFailCountExpiry n) s = .next (s.only (tagClear s.dev n))) ∧
    (rflag s.dev Fld.VAULT_STATUS_ES_OK = true → exec .drbgReseed s = .next (s.only (count s.dev Fld.VAULT_RESEEDS))) ∧
    exec .healthTestFail s = .next (s.follow (errorAt (count (rset (rset s.dev Fld.VAULT_STATUS_ES_OK 0 0) Fld.VAULT_STATUS_DRBG_OK 0 0)
      Fld.VAULT_ES_FAILS) { unit := uCIPHER, code := 0x09 } none)) ∧
    (rflag s.dev Fld.VAULT_STATUS_ES_OK = false → islandReady s.dev 0 = true → exec (.vaultRetest true) s =
      .next (s.follow (count (rset (rset s.dev Fld.VAULT_STATUS_ES_OK 0 1) Fld.VAULT_STATUS_DRBG_OK 0 1) Fld.VAULT_RESEEDS)))

/-- R434, R435, R438, R442 to R445: quotas and function reset. -/
def Obligations.QuotasAndFunctionResets : Prop :=
  ∀ s : State,
  (∀ (k slot : Nat) (q : Sq) (e : Entry),
    (startedEntry s.dev 0x65 k slot = some (q, e) →
      (∀ d, quotaCheck s.dev q e = none → d = quotaApply s.dev e.qsFunc e.qsRes e.qsSub (e.operandAt 1) →
        (e.qsRes ≠ rWEIGHT → exec (.opQuotaSet k slot) s = .next (s.follow (quotaSettle
          (endEntry d k slot ST_OK 0 0 (quotaLimit d e.qsFunc e.qsRes + quotaUse d e.qsFunc e.qsRes * 2 ^ 32))))) ∧
        (e.qsRes = rWEIGHT → exec (.opQuotaSet k slot) s = .next (s.follow (quotaSettle (endEntry d k slot ST_OK 0 0 0))))) ∧
      (∀ st c r, quotaCheck s.dev q e = some (st, c, r) →
        exec (.opQuotaSet k slot) s = .next (s.follow (endEntry s.dev k slot st c 0 r)))) ∧
    (startedEntry s.dev 0x66 k slot = some (q, e) → q.admin = true → q.func = 0 → funcExists (e.object % 2 ^ 10) = true →
      ∀ d, writeSegs s.dev e.segs (quotaRecords s.dev (e.object % 2 ^ 10)) = (d, false) →
        exec (.opQuotaGet k slot) s =
          .next (s.follow (issuedEntry (e.segs.foldl (fun d g => entryAck d k slot g.phys) d) k slot ST_OK 0 256)))) ∧
  (∀ (f : Nat),
    (∀ d e, funcExists f = true → (funcOf d f).resetting = false → e = funcAborts (updFunc d f (fun fn => { fn with resetting := true })) f →
      ∀ g, g = ((e.stride.filter (fun x => x.2.func == f)).map (·.1)).foldl chanQuiet e →
      funcResetBegin d f = funcAcks (g.q.sqs.foldl
        (fun d x => if x.2.func = f then (x.2.entries.filter (fun e => e.stage = .started)).foldl (fun d e => entryQuiet d x.1 e.slot) d else d) g) f) ∧
    (wrote s.dev 0 Fld.FUNC_RESET_GO 0 = true → rflag s.dev Fld.FUNC_RESET_STATUS_BUSY = false → funcExists f = true →
      exec (.funcResetGo f) s =
        .next (s.follow (funcResetBegin (rset (rset s.dev Fld.FUNC_RESET_ID 0 f) Fld.FUNC_RESET_STATUS_BUSY 0 1) f))) ∧
    (hostRunning s.dev = true → f ≠ fIF0 → exec (.pcieFlr f) s = .next (s.follow ((vfsOf f ++ [f]).foldl funcResetBegin s.dev))) ∧
    (hostRunning s.dev = true → f ∈ s.dev.io.vfEnable → exec (.vfEnableClear f) s = .next (s.follow ((vfsOf f).foldl funcResetBegin
      { s.dev with io := { s.dev.io with vfEnable := s.dev.io.vfEnable.filter (· != f) } }))) ∧
    ((funcOf s.dev f).resetting = true → funcWrites s.dev f = true → exec (.funcResetDone f) s = .next (s.follow s.dev)) ∧
    (∀ d, (funcOf s.dev f).resetting = true → funcWrites s.dev f = false →
      d = updFunc (funcZero (funcDiscard s.dev f) f) f (fun fn => { fn with resetting := false }) →
      (rget d Fld.FUNC_RESET_ID = f → exec (.funcResetDone f) s =
        .next (s.follow (lowerings (runAllParked (rset d Fld.FUNC_RESET_STATUS_BUSY 0 0))))) ∧
      (rget d Fld.FUNC_RESET_ID ≠ f → exec (.funcResetDone f) s = .next (s.follow (lowerings (runAllParked d))))))

/-- R459, R460, R462: the mailbox. -/
def Obligations.MailboxRequestsRunTheirCourse : Prop :=
  ∀ (s : State) (f c : Nat) (d : Ix9), mboxReach s.dev f c = true → d = mboxClaim s.dev f c →
    (mboxIsTarget d f c = false → mboxOwner d c = f → mboxBusy d c = false →
      (∀ w v, w < 16 → exec (.mboxClaim f c w v) s = .next (s.store (rset d Fld.MBOX_DATA (c * 16 + w) v))) ∧
      (∀ target irq, target < 4 → exec (.mboxGo f c target irq) s =
        .next (s.store (mboxStart (rset (rset d Fld.MBOX_CTRL_IRQ c (b2n irq)) Fld.MBOX_CTRL_TARGET c target) c))) ∧
      (∀ irq e, e = rset (rset d Fld.MBOX_CTRL_IRQ c (b2n irq)) Fld.MBOX_CTRL_TARGET c 0 → mboxTarget e c = 0 → mboxReady e 0 = true →
        rflag (rset e Fld.MBOX_STATUS_BUSY c 1) Fld.FW_STATUS_ACTIVATING = false →
        exec (.mboxGo f c 0 irq) s = .next (s.store (rset e Fld.MBOX_STATUS_BUSY c 1))) ∧
      (∀ irq e, c < 32 → e = rset (rset d Fld.MBOX_CTRL_IRQ c (b2n irq)) Fld.MBOX_CTRL_TARGET c 1 → mboxTarget e c = 1 → mboxReady e 1 = true →
        exec (.mboxGo f c 1 irq) s = .next (s.store (mboxEvent (rset e Fld.MBOX_STATUS_BUSY c 1) fIF0 c 2))) ∧
      (∀ irq e, e = rset (rset d Fld.MBOX_CTRL_IRQ c (b2n irq)) Fld.MBOX_CTRL_TARGET c 0 → mboxTarget e c = 0 → mboxReady e 0 = false →
        exec (.mboxGo f c 0 irq) s = .next (s.store (mboxNotify (mboxClear
          (rset (rset e Fld.MBOX_STATUS_BUSY c 0) Fld.MBOX_STATUS_DOMAIN_DOWN c 1) c) c 4))) ∧
      exec (.mboxRelease f c) s =
        .next (s.store (mboxFree (rset (rset d Fld.MBOX_CTRL_IRQ c 0) Fld.MBOX_CTRL_TARGET c 0) c))) ∧
    (mboxIsTarget s.dev f c = true → exec (.mboxRespond (some f) c) s =
      .next (s.store (mboxNotify (rset (rset s.dev Fld.MBOX_STATUS_BUSY c 0) Fld.MBOX_STATUS_DONE c 1) c 1))) ∧
    (fwAsked s.dev c = true → fwKnown (mboxWord s.dev c 0) = false →
      exec (.mboxRespond none c) s = .next (s.store (fwReply s.dev c [0xFFFFFFFE]))) ∧
    (c < 64 → mboxBusy s.dev c = true → exec (.mboxTimeout c) s =
      .next (s.store (mboxNotify (mboxClear (rset (rset s.dev Fld.MBOX_STATUS_BUSY c 0) Fld.MBOX_STATUS_TIMEOUT c 1) c) c 8)))

/-- R463, R464, R494, R495: the firmware's commands. -/
def Obligations.FirmwareAnswersItsCommands : Prop :=
  ∀ (s : State) (c : Nat),
    (fwRequest s.dev c 0x02 = true → exec (.version c) s = .next (s.store (fwReply s.dev c (0 :: versionWords s.dev)))) ∧
    (∀ w u t, fwRequest s.dev c 0x100 = true → 32 ≤ c → s.dev.rcv.log[mboxWord s.dev c 1]? = some (w, u, t) →
      exec (.logRead c) s = .next (s.store (fwReply s.dev c ([0, rget s.dev Fld.LOG_COUNT] ++
        ((List.range 8).map (fun i => bits w (32 * i + 31) (32 * i)) ++ [u % 32 + t % 2 ^ 24 * 2 ^ 8]))))) ∧
    (∀ r b img p, fwRequest s.dev c 0x110 = true → 32 ≤ c → mboxWord s.dev c 4 ≤ 2 ^ 23 →
      p = Phys.mk (if flag (mboxWord s.dev c 1) 0 then .landing else .host) (mboxWord s.dev c 2 + mboxWord s.dev c 3 * 2 ^ 32) 0 false false →
      memRead s.cells s.dev p (mboxWord s.dev c 4) r = .ok b →
      img = FwImage.mk (leNat ((b.drop 8).take 4)) (leNat ((b.drop 12).take 4)) (leNat ((b.drop 0x10).take 4) % 8) (Config.hash b) →
      (imageOk s.dev 1 b = false → exec (.fwStage c r) s = .next (s.follow (fwReply s.dev c [1]))) ∧
      (imageOk s.dev 1 b = true → hasLevel (leNat ((b.drop 0x10).take 4)) (rget s.dev Fld.BEHAV_LEVEL_CURRENT) = false →
        exec (.fwStage c r) s = .next (s.follow (fwReply s.dev c [2]))) ∧
      (imageOk s.dev 1 b = true → hasLevel (leNat ((b.drop 0x10).take 4)) (rget s.dev Fld.BEHAV_LEVEL_CURRENT) = true →
        (otherSlot s.dev = 0 → exec (.fwStage c r) s =
          .next (s.follow (fwReply (showStaged { s.dev with nvm := { s.dev.nvm with slotA := some img } }) c [0]))) ∧
        (otherSlot s.dev ≠ 0 → exec (.fwStage c r) s =
          .next (s.follow (fwReply (showStaged { s.dev with nvm := { s.dev.nvm with slotB := some img } }) c [0]))))) ∧
    (∀ d, fwRequest s.dev c 0x111 = true → 32 ≤ c → rflag s.dev Fld.FW_STATUS_STAGED = true → d = fwReply s.dev c [0] →
      exec (.fwActivate c) s =
        .next (s.follow (rset { d with boot := { d.boot with activate := some (otherSlot d) } } Fld.FW_STATUS_ACTIVATING 0 1))) ∧
    (∀ n, fwRequest s.dev c 0x112 = true → 32 ≤ c → n = rget s.dev Fld.FW_STATUS_RUNNING → exec (.fwCommit c) s =
      .next (s.store (fwReply (rset { s.dev with nvm := { s.dev.nvm with
        boot := n, svn := max s.dev.nvm.svn (((slotImage s.dev n).map (·.svn)).getD 0) } } Fld.FW_STATUS_BOOT 0 n) c [0]))) ∧
    (∀ b asid p, fwRequest s.dev c 0x10 = true → c < 32 → mboxOwner s.dev c = fIF0 → flag (mboxWord s.dev c 1) 0 = false →
      asid = mboxWord s.dev c 2 → s.dev.nvm.asids.1 ≤ asid → asid < s.dev.nvm.asids.1 + s.dev.nvm.asids.2 →
      lmRead s.cells s.dev fIF0 (mboxWord s.dev c 3 + mboxWord s.dev c 4 * 2 ^ 32) 32 = .ok b → bits (leNat b) 25 16 = fIF0 →
      p = Phys.mk (if rget s.dev Fld.XLATE_ASID_BASE_LOC = 1 then .landing else .host) (rget s.dev Fld.XLATE_ASID_BASE_ADDR * 4096 + 32 * asid) 0 false false →
      exec (.if0Ctx c) s = .next (s.follow (invSteps (askInv (memWrite s.dev p b).1 ⟨.fw c, 2, asid, 0, 2 ^ 52, fIF0⟩))))

/-- R457, R480, R495, R496: the management island. -/
def Obligations.ManagementIslandActivatesAndRestarts : Prop :=
  ∀ (s : State),
    (∀ n, s.dev.boot.activate = some n → rflag s.dev Fld.FW_STATUS_ACTIVATING = true → exec .fwActivationDone s =
      .next (s.follow (bootLine (showStaged (rset (rset { s.dev with boot := { s.dev.boot with activate := none } }
        Fld.FW_STATUS_RUNNING 0 n) Fld.FW_STATUS_ACTIVATING 0 0)) 4))) ∧
    (∀ d, rflag s.dev Fld.FW_STATUS_ACTIVATING = true → d = errorAt (rset (rset { s.dev with boot := { s.dev.boot with activate := none } }
        Fld.FW_STATUS_ACTIVATING 0 0) Fld.FW_STATUS_ROLLED_BACK 0 1) { unit := uMGMT, code := 0x0B } none →
      exec .fwActivationRollback s = .next (s.follow d) ∧ exec .lockstepMismatch s = .next (s.follow d)) ∧
    (islandReady s.dev 0 = true → rflag s.dev Fld.FW_STATUS_ACTIVATING = false →
      exec .lockstepMismatch s = .next (s.follow (mgmtRestart s.dev 0x04))) ∧
    (islandReady s.dev 0 = true → exec .mgmtWatchdog s = .next (s.follow (mgmtRestart s.dev 0x02))) ∧
    (islandReady s.dev 0 = true → ∀ code, (mgmtRestart s.dev code).ciph.slots = [] ∧ islandReady (mgmtRestart s.dev code) 0 = false ∧
      (mgmtRestart s.dev code).boot.mgmtEvent = some code) ∧
    (∀ code d, s.dev.boot.mgmtEvent = some code → d = { s.dev with
        ready := insertNat s.dev.ready 0, boot := { s.dev.boot with mgmtEvent := none } } →
      exec .mgmtReloadDone s = .next (s.follow (bootLine (pf0Event
        (showStaged (rset d Fld.FW_STATUS_RUNNING 0 (rget d Fld.FW_STATUS_BOOT))) EV_DEVICE uMGMT code) 0)))

/-- R450 to R456: service cores. -/
def Obligations.ServiceHartsRunAndTransmit : Prop :=
  ∀ (s : State),
    (∀ v, wrote s.dev 0 Fld.SVC_CTRL_RESTART 0 = true → unitReady s.dev uSVC = true →
      (v % 2 ^ tilesOf s.dev.code ≠ svcAll s.dev → exec (.svcRestart v) s =
        .next (s.follow (((List.range (tilesOf s.dev.code)).filter (flag v)).foldl (fun d n => askReset d { level := 3, tile := n, engine := 6 }) s.dev))) ∧
      (∀ d, v % 2 ^ tilesOf s.dev.code = svcAll s.dev →
        d = rset (rset s.dev Fld.SVC_STATUS_RUNNING 0 0) Fld.SVC_STATUS_IMAGE_OK 0 0 → exec (.svcRestart v) s =
        .next (s.follow (funcResetBegin { d with
          ready := d.ready.filter (fun i => !((List.range 4).map iSVC).contains i), boot := { d.boot with svcWait := true } } fIF0)))) ∧
    (∀ image blob d p lvl, s.dev.boot.svcWait = true → 2 ≤ s.dev.boot.stage → (funcOf s.dev fIF0).resetting = false →
      (stacksOf s.dev.code = 0 ∨ unitReady s.dev (uHBM 0) = true) → d = { s.dev with boot := { s.dev.boot with svcWait := false } } →
      p = (image.drop 0x200).take (leNat ((image.drop 0x14).take 4)) → lvl = leNat ((image.drop 0x10).take 4) →
      p.length + blob.length ≤ svcSpace d → leNat ((image.drop 0x18).take 4) + blob.length ≤ svcSpace d →
      ∀ e, e = svcWrite (svcWrite d 0 p) (leNat ((image.drop 0x18).take 4)) blob →
      ∀ g, g = rset (rset e Fld.SVC_STATUS_IMAGE_OK 0 1) Fld.SVC_STATUS_RUNNING 0 ((liveTiles e).foldl (fun a n => a + 255 * 2 ^ (8 * n)) 0) →
      (imageOk d 2 image = true → hasLevel lvl (rget d Fld.BEHAV_LEVEL_CURRENT) = true →
        exec (.serviceImageReadDone image blob) s = .next (s.follow { g with
          ready := ((liveTiles e).map iSVC).foldl insertNat g.ready, boot := { g.boot with svcImage := Config.hash image } })) ∧
      (imageOk d 2 image = false ∨ hasLevel lvl (rget d Fld.BEHAV_LEVEL_CURRENT) = false →
        exec (.serviceImageReadDone image blob) s =
          .next (s.follow (errorAt (rset d Fld.SVC_STATUS_IMAGE_OK 0 0) { unit := uSVC, code := 0x07 } none)))) ∧
    (∀ hart off n r, hartRuns s.dev hart = true →
      (∀ p b, hartPlace s.dev off n = some p → memRead s.cells s.dev p n r = .ok b →
        exec (.hartLandingAccess hart off n none r) s = .next (s.follow (emit s.dev (.hart false b)))) ∧
      (∀ p b d, hartPlace s.dev off b.length = some p → memWrite s.dev p b = (d, false) →
        exec (.hartLandingAccess hart off n (some b) r) s = .next (s.follow (emit d (.hart false [])))) ∧
      (hartPlace s.dev off n = none →
        exec (.hartLandingAccess hart off n none r) s = .next (s.follow (emit s.dev (.hart true []))))) ∧
    (∀ v, (funcOf s.dev fIF0).resetting = false → exec (.excTxProdWrite v) s =
      .next (s.follow (excTxTake s.cells (excTxSize s.dev / 64 + 1) (rset s.dev Fld.EXC_TX_PROD 0 v)))) ∧
    (∀ n d at_ w len, at_ = d.io.excTaken → excTxHead s.cells d at_ = some w → len = excTxLen d at_ w →
      len ≤ (rget d Fld.EXC_TX_PROD + 2 ^ 32 - at_) % 2 ^ 32 → 0 < (rget d Fld.EXC_TX_PROD + 2 ^ 32 - at_) % 2 ^ 32 →
      excTxTake s.cells (n + 1) d = excTxTake s.cells n (excTxSend s.cells { d with
        io := { d.io with excTaken := (at_ + len) % 2 ^ 32 }
        net := { d.net with txTimes := drop d.net.txTimes (at_ % excTxSize d) } } at_ w)) ∧
    (∀ n d, rget d Fld.EXC_TX_PROD = d.io.excTaken → d.io.excTaken < 2 ^ 32 → excTxTake s.cells n d = d) ∧
    (∀ at_ off w d next e, at_ = rget s.dev Fld.EXC_TX_CONS → off = at_ % excTxSize s.dev → at_ ≠ s.dev.io.excTaken → excTxWaits s.dev off = false →
      excTxHead s.cells s.dev at_ = some w → flag w 31 = false →
      (∀ x, x = (match look s.dev.net.txTimes off with
          | some t => leBytes 8 (setBit w 29 true) ++ (leBytes 8 (t % 10 ^ 9) ++ leBytes 8 (t / 10 ^ 9 % 2 ^ 48))
          | none => leBytes 8 (setBit w 30 true)) →
        d = (lmWrite s.dev fIF0 (rget s.dev Fld.EXC_TX_BASE * 4096 + off) x).1) →
      next = (at_ + excTxLen d at_ w) % 2 ^ 32 → e = rset { d with net := { d.net with txTimes := drop d.net.txTimes off } } Fld.EXC_TX_CONS 0 next →
      (next ≠ rget e Fld.EXC_TX_PROD → exec .excTxRecordDone s = .next (s.follow e)) ∧
      (next = rget e Fld.EXC_TX_PROD → exec .excTxRecordDone s = .next (s.follow (msixSend e fIF0 (rget e Fld.EXC_TX_CFG_VECTOR)))))

/-- R465 to R468: the monitor. -/
def Obligations.MonitorCommandsAnswer : Prop :=
  ∀ (s : State), sbListens s.dev = true →
    exec .sbHelp s = .next (s.only (sbAnswer (emit s.dev (.uart (Config.text 64))) [])) ∧
    exec .sbVer s = .next (s.only (sbAnswer s.dev (versionWords s.dev ++ [s.dev.code, s.dev.nvm.serial]))) ∧
    (∀ off n, 1 ≤ n → n ≤ 256 → (∀ i < n, sbAddr s.dev (off + 4 * i) = none) →
      exec (.sbRd off n) s = .next (s.only (sbAnswer s.dev ((List.range n).map (fun i => (regGet s.dev 0 false (off + 4 * i) 4 false).2))))) ∧
    exec .sbMap s = .next (s.only (sbAnswer s.dev [unitsOf s.dev.code, readyMap s.dev, fieldValue s.dev 0 Fld.ISLAND_READY 0])) ∧
    (∀ u, u < 25 → present s.dev u = true → exec (.sbErr (some u)) s =
      .next (s.only (sbAnswer s.dev [rget s.dev Fld.ERR_FIRST u, rget s.dev Fld.ERR_NEXT u, rget s.dev Fld.ERR_COUNT u]))) ∧
    exec (.sbErr none) s = .next (s.only (sbAnswer s.dev (((List.range 25).filter (present s.dev)).flatMap
      (fun u => [rget s.dev Fld.ERR_FIRST u, rget s.dev Fld.ERR_NEXT u, rget s.dev Fld.ERR_COUNT u])))) ∧
    (∀ b, b < 2 → exec (.sbCnt b) s = .next (s.only (sbAnswer s.dev
      ([rget s.dev (photoFld b Fld.PHOTO_STATUS_VALID0 Fld.PHOTO_STATUS_VALID1), rget s.dev (photoFld b Fld.PHOTO_LATE0 Fld.PHOTO_LATE1)]
        ++ (bankOf s.dev b).copy.flatMap (fun (k, v) => [k, v]))))) ∧
    (∀ n, exec (.sbLog n) s = .next (s.only (sbAnswer s.dev ((s.dev.rcv.log.take (n.getD 16)).flatMap (fun (w, u, t) => [w, u, t]))))) ∧
    (∀ t, t < 4 → islandReady s.dev (iSVC t) = true → exec (.sbCon t) s =
      .next (s.only (sbAnswer s.dev (((look s.dev.mon.console t).getD []).map (·.toNat))))) ∧
    (∀ rate ∈ [115200, 230400, 460800, 921600, 1000000, 1500000, 2000000, 3000000], exec (.sbBaud rate) s =
      .next (s.only { sbAnswer s.dev [] with mon := { (sbAnswer s.dev []).mon with baud := rate } })) ∧
    exec .sbLock s = .next (s.only (sbAnswer { s.dev with mon := { s.dev.mon with unlocked := false } } [])) ∧
    (s.dev.nvm.debug = true ∨ s.dev.mon.unlocked = true →
      (∀ off v, v < 2 ^ 32 → sbAddr s.dev off = none → exec (.sbWr off v) s = .next (s.follow (sbAnswer (regPut s.cells s.dev 0 false off 4 v) []))) ∧
      (∀ b t, b < 2 → t < 2 ^ 64 → exec (.sbPhoto b false t) s =
        .next (s.only (sbAnswer (photoArm (rset s.dev (photoFld b Fld.PHOTO_T0 Fld.PHOTO_T1) 0 t) b) []))) ∧
      (∀ b t, b < 2 → s.dev.now + 1000 * t < 2 ^ 64 → exec (.sbPhoto b true t) s =
        .next (s.only (sbAnswer (photoArm (rset s.dev (photoFld b Fld.PHOTO_T0 Fld.PHOTO_T1) 0 (s.dev.now + 1000 * t)) b) []))) ∧
      (∀ g, funcExists g = true → rflag s.dev Fld.FUNC_RESET_STATUS_BUSY = false → exec (.sbReset (.func g)) s =
        .next (s.follow (sbAnswer (funcResetGo s.dev g) []))) ∧
      (∀ t e, t < tilesOf s.dev.code → t < 4 → e < 7 → exec (.sbReset (.engine t e)) s = .next (s.follow (sbAnswer (engResetGo s.dev t e) []))) ∧
      exec (.sbReset .warm) s = .next (s.follow (askReset (sbAnswer s.dev []) { level := 5, last := 2 })) ∧
      exec (.sbReset .cold) s = .next (s.follow (askReset (sbAnswer s.dev []) { level := 6, last := 1 })) ∧
      (∀ k q, sqAt s.dev k = some q → exec (.sbReset (.queue k)) s = .next (s.follow (sbAnswer (queueResetGo s.dev k) []))) ∧
      (∀ t, t < tilesOf s.dev.code → t < 4 → exec (.sbReset (.tile t)) s = .next (s.follow (sbAnswer (engResetGo s.dev t 7) [])))) ∧
    (s.dev.nvm.debug = false → s.dev.mon.unlocked = false →
      (∀ off v, exec (.sbWr off v) s = .next (s.follow (sbErr s.dev 0x03))) ∧
      (∀ b a t, exec (.sbPhoto b a t) s = .next (s.only (sbErr s.dev 0x03))) ∧
      (∀ what, exec (.sbReset what) s = .next (s.follow (sbErr s.dev 0x03)))) ∧
    (s.dev.mon.lockout = false →
      (∀ d, d = (draw s.dev).2 → exec (.sbUnlock none) s = .next (s.only (sbAnswer
        { d with mon := { d.mon with nonce := some ((draw s.dev).1 % 2 ^ 128) } } [(draw s.dev).1 % 2 ^ 128]))) ∧
      (∀ token minutes n, token.length = 96 → 1 ≤ minutes → minutes ≤ 1440 → s.dev.mon.nonce = some n →
        (Config.verify s.dev.nvm.unlockKey (unlockText s.dev n minutes) token = true → exec (.sbUnlock (some (token, minutes))) s =
          .next (s.only (sbAnswer { s.dev with mon := { s.dev.mon with nonce := none, unlocked := true, rejects := 0 } } []))) ∧
        (Config.verify s.dev.nvm.unlockKey (unlockText s.dev n minutes) token = false → exec (.sbUnlock (some (token, minutes))) s =
          .next (s.only (sbErr { s.dev with mon := { s.dev.mon with nonce := none, rejects := if s.dev.mon.rejects + 1 = 3 then 0 else s.dev.mon.rejects + 1, lockout := s.dev.mon.rejects + 1 = 3 } } 0x05))))) ∧
    exec .unlockExpiry s = .next (s.only { s.dev with mon := { s.dev.mon with unlocked := false } }) ∧
    exec .unlockLockoutEnd s = .next (s.only { s.dev with mon := { s.dev.mon with lockout := false } })

/-- R474 to R485: errors and requests for resets. -/
def Obligations.ErrorsAndResetRequestsAreTaken : Prop :=
  ∀ (s : State) (t e : Nat),
    (t < tilesOf s.dev.code → e < 6 → pendingWork s.dev (.engine t e) = true → exec (.progressWindowExpiry (.engine t e)) s =
      .next (s.follow (errorAt (count s.dev Fld.HANG_COUNT t) { unit := uTILE t, code := 0x02, level := 3, engine := e, island := engineIsland t e }
        (some { level := 3, tile := t, engine := e, hang := true })))) ∧
    (∀ k q, sqAt s.dev k = some q → pendingWork s.dev (.queue k) = true → exec (.progressWindowExpiry (.queue k)) s =
      .next (s.follow (errorAt (count s.dev Fld.HANG_COUNT q.tile)
        { unit := uTILE q.tile, code := 0x02, level := 1, func := q.func, sq := some (sqIdOf k), island := iXPORT q.tile }
        (some { level := 1, tile := q.tile, target := k, hang := true })))) ∧
    (∀ i, (fittedIslands s.dev.code).contains i = true → pendingWork s.dev (.island i) = true → exec (.progressWindowExpiry (.island i)) s =
      .next (s.follow (errorAt (count s.dev Fld.HANG_OTHER) { unit := islandUnit s.dev i, code := 0x02, level := 5, island := i }
        (some { level := 5, hang := true })))) ∧
    (∀ i ram, (fittedIslands s.dev.code).contains i = true →
      (12 ≤ i → i < 32 → e < 7 → exec (.uncorrectableRamError i e ram) s = .next (s.follow (errorAt s.dev
        { unit := uTILE ((i - 12) / 5), code := 0x01, level := 3, engine := e, island := i, detail := ram }
        (some { level := 3, tile := (i - 12) / 5, engine := e })))) ∧
      (12 ≤ i → i < 32 → 7 ≤ e → exec (.uncorrectableRamError i e ram) s = .next (s.follow (errorAt s.dev
        { unit := uTILE ((i - 12) / 5), code := 0x01, level := 4, engine := e, island := i, detail := ram }
        (some { level := 4, tile := (i - 12) / 5, engine := e })))) ∧
      (i < 12 → exec (.uncorrectableRamError i e ram) s = .next (s.follow (errorAt s.dev
        { unit := islandUnit s.dev i, code := 0x01, level := 5, island := i, detail := ram } (some { level := 5 }))))) ∧
    (∀ i, exec (.d2dLinkError i) s = .next (s.follow (errorAt s.dev { unit := islandUnit s.dev i, code := 0x05, level := 5, island := i } (some { level := 5 })))) ∧
    (wrote s.dev 0 Fld.ENG_RESET_GO 0 = true → exec (.engResetGo t e) s = .next (s.follow (askReset
      (rset (rset s.dev Fld.ENG_RESET_TILE 0 t) Fld.ENG_RESET_ENGINE 0 e)
      { level := if e % 8 = 7 then 4 else 3, tile := t % 4, engine := e % 8 }))) ∧
    (∀ k d, wrote s.dev 0 Fld.QUEUE_RESET_GO 0 = true → d = rset s.dev Fld.QUEUE_RESET_SQ_ID 0 k → exec (.queueResetGo k) s =
      .next (s.follow (askReset d { level := 1, tile := ((sqAt d (k % 65536)).map (·.tile)).getD 0, target := k % 65536 }))) ∧
    (wrote s.dev 0 Fld.RESET_CTRL_WARM 0 = true →
      exec (.resetCtrlWarm 0xC0DE) s = .next (s.follow (askReset s.dev { level := 5, last := 2 })) ∧
      (∀ key, key ≠ 0xC0DE → exec (.resetCtrlWarm key) s = .next (s.follow s.dev))) ∧
    (wrote s.dev 0 Fld.RESET_CTRL_COLD 0 = true →
      exec (.resetCtrlCold 0xC0DE) s = .next (s.follow (askReset s.dev { level := 6, last := 1 })) ∧
      (∀ key, key ≠ 0xC0DE → exec (.resetCtrlCold key) s = .next (s.follow s.dev))) ∧
    (∀ k r, s.dev.rcv.resets.find? (fun r => r.due.level == 1 && r.due.target == k) = some r →
      ((∀ x ∈ r.left, stillRuns s.dev x = false) → exec (.resetDone 1 t e k) s =
        .next (s.follow { s.dev with rcv := { s.dev.rcv with resets := s.dev.rcv.resets.filter (fun o => o != r) } })) ∧
      exec (.resetBoundExpiry 1 t e k) s = .next (s.follow (escalate
        { s.dev with rcv := { s.dev.rcv with resets := s.dev.rcv.resets.filter (fun o => o != r) } } 0x06 r.due.code r.due)))

/-- R487 to R499: what happens to the device from outside, and evacuation. -/
def Obligations.HostLossPhotoFinishAndEvacuation : Prop :=
  ∀ (s : State) (low : Ix9), low = { s.dev with boot := { s.dev.boot with perstLow := true } } →
    (onlyCold low = false → rflag low Fld.RESET_CFG_PERST_WARM = true → exec .perstNAssert s = .next (s.follow (warmReset low 3 true))) ∧
    (onlyCold low = false → rflag low Fld.RESET_CFG_PERST_WARM = false → islandReady low 7 = true →
      exec .perstNAssert s = .next (s.follow (hostLoss low true))) ∧
    (s.dev.boot.hold = true → exec .perstNDeassert s =
      .next (s.follow { s.dev with boot := { s.dev.boot with perstLow := false, hold := false, stage := 1 } })) ∧
    (islandReady s.dev 7 = true → rflag s.dev Fld.PCIE_LINK_STATUS_DL_UP 0 = true →
      exec .hostDlDown s = .next (s.follow (hostLoss s.dev true)) ∧ exec .hostHotReset s = .next (s.follow (hostLoss s.dev true))) ∧
    (∀ d e fs, e = errorAt s.dev { unit := uHOST, code := 0x08, level := 2, island := 7 } none → rflag e Fld.PCIE_LINK_STATUS_DL_UP 0 = true →
      d = count (rset e Fld.PCIE_LINK_STATUS_DL_UP 0 0) Fld.PCIE_LINK_DOWNS 0 → fs = (usedFuncs d).filter (· != fIF0) →
      hostLoss s.dev true = hostUp ((fs.filter isVf ++ fs.filter (fun f => !isVf f)).foldl funcResetBegin d) false) ∧
    (∀ d up, rflag d Fld.HOST_STATUS_HOST_UP ≠ up →
      hostUp d up = msixSend (rset d Fld.HOST_STATUS_HOST_UP 0 (b2n up)) fIF0 (rget d Fld.HOST_STATUS_VECTOR)) ∧
    (wrote s.dev 0 Fld.HOST_HB 0 = true → exec .hostHb s = .next (s.only { s.dev with rcv := { s.dev.rcv with hbAt := s.dev.el } })) ∧
    (rget s.dev Fld.HOSTLL_CFG_HB_WINDOW ≠ 0 → islandReady s.dev 7 = true → rflag s.dev Fld.HOST_STATUS_HOST_UP = true →
      exec .hbWindowExpiry s = .next (s.follow (hostLoss s.dev false))) ∧
    (∀ speed width flit d, d = pathLost s.dev .host → islandReady d 7 = true → d.boot.perstLow = false →
      exec (.hostLinkReturn speed width flit) s = .next (s.follow (hostUp (rset (rset (rset (rset d Fld.PCIE_LINK_STATUS_DL_UP 0 1)
        Fld.PCIE_LINK_STATUS_SPEED 0 speed) Fld.PCIE_LINK_STATUS_WIDTH 0 width) Fld.PCIE_LINK_STATUS_FLIT 0 (b2n flit)) true))) ∧
    (∀ b, b < 2 →
      (∀ mask us d, wrote s.dev 0 (photoFld b Fld.PHOTO_CTRL_ARM0 Fld.PHOTO_CTRL_ARM1) 0 = true →
        mask = rget s.dev (photoFld b Fld.PHOTO_MASK0 Fld.PHOTO_MASK1) → us = (List.range 25).filter (fun u => flag mask u && present s.dev u) →
        d = setBank s.dev b { armed := true, units := us, copy := [] } →
        exec (.photoArm b) s = .next (s.only (photoValid (rset (rset (rset d (photoFld b Fld.PHOTO_STATUS_ARMED0 Fld.PHOTO_STATUS_ARMED1) 0 1)
          (photoFld b Fld.PHOTO_STATUS_VALID0 Fld.PHOTO_STATUS_VALID1) 0 0) (photoFld b Fld.PHOTO_LATE0 Fld.PHOTO_LATE1) 0 0) b))) ∧
      (∀ u, (bankOf s.dev b).armed = true → (bankOf s.dev b).units = [u] → unitReady s.dev u = true →
        exec (.photoTime b []) s = .next (s.only (photoValid (photoCopy s.dev b u) b))) ∧
      (∀ late, (bankOf s.dev b).armed = true → exec (.photoTime b late) s = .next (s.only (photoValid ((bankOf s.dev b).units.foldl (fun d u =>
          if late.contains u then d else if unitReady d u then photoCopy d b u
          else setBank (setLate d b u) b { bankOf (setLate d b u) b with units := (bankOf (setLate d b u) b).units.filter (· != u) }) s.dev) b))) ∧
      (∀ u, (bankOf s.dev b).armed = true → u ∈ (bankOf s.dev b).units → exec (.photoLateCopy b u) s =
        .next (s.only (photoValid (rset (setLate (photoCopy s.dev b u) b u) (photoFld b Fld.PHOTO_LATE_TIME0 Fld.PHOTO_LATE_TIME1) u
          ((setLate (photoCopy s.dev b u) b u).now % 2 ^ 64)) b)))) ∧
    (∀ src dst d, wrote s.dev 0 Fld.EVAC_CTRL_GO 0 = true → src < 4 → dst < 4 → d = rset (rset s.dev Fld.EVAC_CTRL_SRC 0 src) Fld.EVAC_CTRL_DST 0 dst →
      (∀ c, evacCause (rset d Fld.EVAC_CTRL_MODE 0 0) src dst false = some c → exec (.evacGoEvacuate src dst) s =
        .next (s.follow (rset (rset (rset d Fld.EVAC_CTRL_MODE 0 0) Fld.EVAC_STATUS_ERR 0 1) Fld.EVAC_STATUS_CAUSE 0 c))) ∧
      (evacCause (rset d Fld.EVAC_CTRL_MODE 0 0) src dst false = none → exec (.evacGoEvacuate src dst) s =
        .next (s.follow (evacSettle (setEvac (rset (rset d Fld.EVAC_CTRL_MODE 0 0) Fld.EVAC_STATUS_BUSY 0 1) (some { src := src, dst := dst, back := false }))))) ∧
      (∀ c, evacCause (rset d Fld.EVAC_CTRL_MODE 0 1) src dst true = some c → exec (.evacGoReturn src dst) s =
        .next (s.follow (rset (rset (rset d Fld.EVAC_CTRL_MODE 0 1) Fld.EVAC_STATUS_ERR 0 1) Fld.EVAC_STATUS_CAUSE 0 c))) ∧
      (∀ e, evacCause (rset d Fld.EVAC_CTRL_MODE 0 1) src dst true = none → e = rset (rset d Fld.EVAC_CTRL_MODE 0 1) Fld.EVAC_STATUS_BUSY 0 1 →
        exec (.evacGoReturn src dst) s = .next (s.follow (engineReset (setEvac { e with off := e.off.filter (fun i => !(tileIslands src).contains i) }
          (some { src := dst, dst := src, back := true })) { level := 4, tile := src, engine := 7 })))) ∧
    (∀ v d1 d2 d3 left, s.dev.rcv.evac = some v → v.back = false → v.drained = false →
      d1 = (s.dev.h.heats.filter (fun (k, h) => k < localBase && h.tile == v.src && !h.finished)).foldl
        (fun d (k, h) => heatOrigin d k ST_HEAT_ABORTED 0x0A h.ep.bib) s.dev →
      d2 = (dropHeats d1 (fun k h => localBase ≤ k && h.tile == v.src && !h.finished) ST_ENGINE_RESET 0x14).1 →
      d3 = (clearStride d2 v.src ST_ENGINE_RESET 0x12).1 →
      left = (d3.q.sqs.filter (fun (_, q) => q.tile == v.src)).flatMap (fun (k, q) => (startedOf q).map (fun e => (k, e))) →
      exec .evacDrainExpiry s = .next (s.follow (evacSettle ((left.filter (fun e => (heatOfEntry d3 e.1 e.2).isNone)).foldl
        (fun d (k, e) => haltEntry d k e ST_ENGINE_RESET 0x11) d3)))) ∧
    (∀ v b rest mine pins d e g, s.dev.rcv.evac = some v → v.moving = some b → v.blocks = b :: rest →
      mine = (s.dev.c.place.filter (fun x => x.1 / 65536 == b && x.2 != .pinned)).map (·.1) →
      pins = (s.dev.c.place.filter (fun x => x.1 / 65536 == b && x.2 == .pinned)).map (·.1) →
      d = mine.foldl (fun d n => setPlace d n .spilled) ((mine ++ pins).foldl writeSpill s.dev) →
      e = pins.foldl (fun d n => emit (count d Fld.CONN_MISSES v.dst) (.fill n (spillLanding d) (spillAddr d n)))
        (rset (rset d Fld.CONN_STEER_HOME b v.dst) Fld.CONN_STEER_MOVING b 0) →
      g = { e with c := { e.c with parked := e.c.parked.map (fun p => if p.conn / 65536 == b then { p with tile := v.dst } else p) } } →
      exec .evacBlockMoved s = .next (s.follow (retryWaiters (retryFills
        (evacNext ((mine.filter (fun n => !(parkedOf g n).isEmpty)).foldl startFill g) { v with blocks := rest, moving := none })))))

/-- R510, R520 to R523, R556: bring-up. -/
def Obligations.ResetsAndBringUpGoTheirSteps : Prop :=
  ∀ (s : State),
    (∀ ep halves, s.dev.boot.pwrOk = false → s.dev.boot.standby = 0 → exec (.pwrOkAssert ep halves) s =
      .next (s.follow ((List.range 4).foldl (fun d n => rset (rset d Fld.ACC_PORT_STATUS_EP n (bit ep n)) Fld.ACC_PORT_STATUS_BIF n (bit halves n))
        { s.dev with boot := { s.dev.boot with pwrOk := true, stage := 1, strapEp := ep % 16, strapBif := halves % 16 } }))) ∧
    (s.dev.boot.pwrOk = true → s.dev.boot.standby = 0 → exec .pwrOkDeassert s =
      .next (s.follow (coldReset { s.dev with boot := { s.dev.boot with pwrOk := false } } (rget s.dev Fld.RESET_STATUS_LAST)))) ∧
    (∀ d last, (coldReset d last).ready = [] ∧ (coldReset d last).q.sqs = [] ∧ (coldReset d last).c.conns = [] ∧
      (coldReset d last).nvm = d.nvm ∧ rget (coldReset d last) Fld.RESET_STATUS_LAST = last % 2 ^ Fld.RESET_STATUS_LAST.width) ∧
    (s.dev.boot.standby = 3 →
      (∀ ep halves, s.dev.boot.pwrOk = false → exec (.pwrOkAssert ep halves) s = .next (s.follow { s.dev with boot := { s.dev.boot with pwrOk := true } })) ∧
      (s.dev.boot.pwrOk = true → exec .pwrOkDeassert s = .next (s.follow { s.dev with boot := { s.dev.boot with pwrOk := false } }))) ∧
    (∀ b d e, b = s.dev.nvm.boot % 2 → s.dev.boot.stage = 1 → s.dev.boot.hold = false → onlyCold s.dev = false → s.dev.boot.scan = false →
      slotBoots s.dev b = true →
      d = { s.dev with ready := insertNat s.dev.ready 0, boot := { s.dev.boot with stage := 2, svcWait := true, mgmtEvent := none } } →
      e = rset (rset (rset d Fld.FW_STATUS_RUNNING 0 b) Fld.FW_STATUS_BOOT 0 b) Fld.FW_STATUS_ACTIVATING 0 0 →
      exec .firmwareVerified s = .next (s.follow (bootLine (boardConfig (showStaged e)) 1))) ∧
    (∀ u isl, isl = (unitIslands s.dev.code u).filter (fun i => !s.dev.off.contains i) → s.dev.boot.stage = 2 → onlyCold s.dev = false →
      s.dev.boot.standby = 0 → s.dev.boot.scan = false → present s.dev u = true → u ≠ uMGMT → u ≠ uSVC → u ∉ s.dev.boot.failed →
      (∃ i ∈ isl, islandReady s.dev i = false) → s.dev.rcv.resets = [] →
      (u ≠ uCIPHER → exec (.unitReady u true) s = .next (s.follow { s.dev with ready := isl.foldl insertNat s.dev.ready })) ∧
      (∀ d, u = uCIPHER → d = { s.dev with ready := isl.foldl insertNat s.dev.ready } → exec (.unitReady u true) s =
        .next (s.follow (rset (rset d Fld.VAULT_STATUS_ES_OK 0 1) Fld.VAULT_STATUS_DRBG_OK 0 1))) ∧
      exec (.unitReady u false) s = .next (s.follow (errorAt { s.dev with
        boot := { s.dev.boot with failed := insertNat s.dev.boot.failed u } } { unit := u, code := 0x01, island := isl.headD 0 } none))) ∧
    (∀ f r, islandReady s.dev 7 = false → exec (.configurationRequest f r) s = .next (s.follow (emit s.dev .configRetry))) ∧
    (∀ f, islandReady s.dev 7 = true → s.dev.boot.perstLow = false → funcExists f = true → f ≠ fIF0 →
      (∀ on, exec (.configurationRequest f (.atsEnable on)) s =
        .next (s.follow (emit (updFunc s.dev f (fun fn => { fn with atsEnable := on })) (.completion 0 true)))) ∧
      exec (.configurationRequest f .other) s = .next (s.follow (emit s.dev (.completion 0 true))) ∧
      (∀ en mask, (funcOf (updFunc s.dev f (fun fn => { fn with msixEnable := en, msixMask := mask })) f).pba = [] →
        exec (.configurationRequest f (.msix en mask)) s =
          .next (s.follow (emit (updFunc s.dev f (fun fn => { fn with msixEnable := en, msixMask := mask })) (.completion 0 true)))) ∧
      (f ≤ 3 → exec (.configurationRequest f (.vfEnable true)) s =
        .next (s.follow (emit { s.dev with io := { s.dev.io with vfEnable := insertNat s.dev.io.vfEnable f } } (.completion 0 true)))) ∧
      (∀ d, f ≤ 3 → f ∈ s.dev.io.vfEnable → d = vfEnableClear s.dev f → exec (.configurationRequest f (.vfEnable false)) s =
        .next (s.follow (emit { d with io := { d.io with vfEnable := d.io.vfEnable.filter (· != f) } } (.completion 0 true)))) ∧
      (∀ x, exec (.configurationRequest f (.read x)) s =
        .next (s.follow (emit (cfgValue s.dev f x).2 (.config 0 false 0 (cfgValue s.dev f x).1))))) ∧
    (∀ f r, islandReady s.dev 7 = true → s.dev.boot.perstLow = false → funcExists f = false ∨ f = fIF0 →
      exec (.configurationRequest f r) s = .next (s.follow (emit s.dev (.completion 0 false)))) ∧
    (∀ v, regReach s.dev 0 = true → islandReady s.dev 0 = true → rflag s.dev Fld.BEHAV_LEVEL_BUSY = false → rflag s.dev Fld.FW_STATUS_ACTIVATING = false →
      hasLevel (((slotImage s.dev (rget s.dev Fld.FW_STATUS_RUNNING)).map (·.levels)).getD 0) v = true →
      exec (.behavLevelNextWrite 0 v) s = .next (s.only (rset (rset s.dev Fld.BEHAV_LEVEL_NEXT 0 v) Fld.BEHAV_LEVEL_BUSY 0 1))) ∧
    (rflag s.dev Fld.BEHAV_LEVEL_BUSY = true → exec .behavLevelStoreDone s =
      .next (s.only (rset { s.dev with nvm := { s.dev.nvm with behav := rget s.dev Fld.BEHAV_LEVEL_NEXT } } Fld.BEHAV_LEVEL_BUSY 0 0)))

/-- R509 to R527: clocks, power and standby. -/
def Obligations.ClocksHeatAndStandbyTakeEffect : Prop :=
  ∀ (s : State),
    (∀ lost, lost = setBit (rget s.dev Fld.CLK_STATUS_LOST) 0 true → flag (rget s.dev Fld.CLK_STATUS_LOST) 0 = false →
      ∀ d, d = rset s.dev Fld.CLK_STATUS_LOST 0 lost → exec (.clockLost 0) s =
        .next (s.follow (pf0Event (rset d Fld.CLK_LOST_STICKY 0 (setBit (rget s.dev Fld.CLK_LOST_STICKY) 0 true)) EV_DEVICE uMGMT (lost * 2 ^ 16)))) ∧
    (∀ c lost d e, (c = 1 ∨ c = 2) → lost = setBit (rget s.dev Fld.CLK_STATUS_LOST) c true → flag (rget s.dev Fld.CLK_STATUS_LOST) c = false →
      d = rset s.dev Fld.CLK_STATUS_LOST 0 lost →
      e = pf0Event (rset d Fld.CLK_LOST_STICKY 0 (setBit (rget s.dev Fld.CLK_LOST_STICKY) c true)) EV_DEVICE uMGMT (lost * 2 ^ 16) →
      exec (.clockLost c) s = .next (s.follow (((List.range 8).map (8 * (c - 1) + ·)).foldl (fun d p =>
        if portExists d p = false then d else if isNative d p = true then linkFall d p
        else if rflag d Fld.ETH_STATUS_UP p = true then ethFall d p else d) e))) ∧
    (∀ lost d e, lost = setBit (rget s.dev Fld.CLK_STATUS_LOST) 3 true → flag (rget s.dev Fld.CLK_STATUS_LOST) 3 = false →
      d = rset s.dev Fld.CLK_STATUS_LOST 0 lost →
      e = hostDlDown (pf0Event (rset d Fld.CLK_LOST_STICKY 0 (setBit (rget s.dev Fld.CLK_LOST_STICKY) 3 true)) EV_DEVICE uMGMT (lost * 2 ^ 16)) →
      exec (.clockLost 3) s = .next (s.follow
        ([(0, 0), (0, 1), (1, 0), (1, 1), (2, 0), (2, 1), (3, 0), (3, 1)].foldl (fun d x => accelLoss d x.1 x.2) e))) ∧
    (∀ c, (c = 1 ∨ c = 2) → flag (rget s.dev Fld.CLK_STATUS_LOST) c = true → exec (.clockRestored c) s =
      .next (s.only (((List.range 8).map (8 * (c - 1) + ·)).foldl (fun d p => if portExists d p && isNative d p then bringUp d p else d)
        (rset s.dev Fld.CLK_STATUS_LOST 0 (setBit (rget s.dev Fld.CLK_STATUS_LOST) c false))))) ∧
    (∀ c, (c = 0 ∨ c = 3 ∨ c = 4) → flag (rget s.dev Fld.CLK_STATUS_LOST) c = true → exec (.clockRestored c) s =
      .next (s.only (rset s.dev Fld.CLK_STATUS_LOST 0 (setBit (rget s.dev Fld.CLK_STATUS_LOST) c false)))) ∧
    (∀ avg d, d = rset s.dev Fld.PWR_MEAS 0 (min avg 65535) →
      (rflag d Fld.PWR_CAP_EN = false → exec (.capTick avg) s = .next (s.only d)) ∧
      (rflag d Fld.PWR_CAP_EN = true → capLimit d * 10 < avg →
        ([0, 1, 2, 3].map (capOrder d)).find? (fun c => classAnywhere d c && clockFloor c < capClock d c) = none →
        ∀ e, e = rset d Fld.PWR_STATUS_CAP_FLOOR 0 1 → exec (.capTick avg) s = .next (s.only (rset e Fld.PWR_STATUS_CAPPING 0
          (b2n ([0, 1, 2, 3].any (fun c => classAnywhere e c && capClock e c < clockMax e c)))))) ∧
      (∀ c e g, rflag d Fld.PWR_CAP_EN = true → e = rset d Fld.PWR_STATUS_CAP_FLOOR 0 0 → avg + rget e Fld.PWR_CAP_HYST * 10 < capLimit d * 10 →
        ([3, 2, 1, 0].map (capOrder d)).find? (fun c => classAnywhere d c && capClock d c < clockMax d c) = some c →
        g = setGrants e (fun p => { p with cap := put p.cap c (capClock e c + 1) }) →
        exec (.capTick avg) s = .next (s.only (rset g Fld.PWR_STATUS_CAPPING 0
          (b2n ([0, 1, 2, 3].any (fun c => classAnywhere g c && capClock g c < clockMax g c)))))) ∧
      (∀ c e, rflag d Fld.PWR_CAP_EN = true → capLimit d * 10 < avg →
        ([0, 1, 2, 3].map (capOrder d)).find? (fun c => classAnywhere d c && clockFloor c < capClock d c) = some c →
        e = count (setGrants d (fun p => { p with cap := put p.cap c (capClock d c - 1) })) Fld.PWR_CAP_STEPS →
        exec (.capTick avg) s = .next (s.only (rset e Fld.PWR_STATUS_CAPPING 0
          (b2n ([0, 1, 2, 3].any (fun c => classAnywhere e c && capClock e c < clockMax e c))))))) ∧
    (∀ temps d e, (∀ i < 8, (rget s.dev Fld.THERM_CFG_THROTTLE : Int) * 16 - 48 ≤ signed 16 ((temps[i]?).getD 0) ∧
        signed 16 ((temps[i]?).getD 0) < (rget s.dev Fld.THERM_CFG_THROTTLE : Int) * 16) →
      d = (List.range 8).foldl (fun d i => rset d Fld.THERM_TEMP i ((temps[i]?).getD 0 % 2 ^ 16)) s.dev →
      e = rset d Fld.THERM_MAX 0 (unsigned 16 ((List.range 8).foldl (fun a i => max a (signed 16 ((temps[i]?).getD 0))) (signed 16 (rget d Fld.THERM_MAX)))) →
      exec (.thermalStep temps) s = .next (s.only (setGrants e id))) ∧
    (∀ temps d e c, tilesOf s.dev.code = 1 →
      d = (List.range 8).foldl (fun d i => rset d Fld.THERM_TEMP i ((temps[i]?).getD 0 % 2 ^ 16)) s.dev →
      e = rset d Fld.THERM_MAX 0 (unsigned 16 ((List.range 8).foldl (fun a i => max a (signed 16 ((temps[i]?).getD 0))) (signed 16 (rget d Fld.THERM_MAX)))) →
      tilesOf e.code = 1 → ((∃ i ∈ [2, 0, 1, 6, 7], (rget e Fld.THERM_CFG_THROTTLE : Int) * 16 ≤ signed 16 ((temps[i]?).getD 0)) →
        ([0, 1, 2, 3].map (capOrder e)).find? (fun c => classFitted e 0 c && clockFloor c < grantClock e 0 c) = some c →
        exec (.thermalStep temps) s = .next (s.only (setGrants e (fun p => { p with therm := put p.therm c (grantClock e 0 c - 1) })))) ∧
      ((∀ i ∈ [2, 0, 1, 6, 7], signed 16 ((temps[i]?).getD 0) < (rget e Fld.THERM_CFG_THROTTLE : Int) * 16 - 48) →
        ([3, 2, 1, 0].map (capOrder e)).find? (fun c => classFitted e 0 c && thermClock e 0 c < clockMax e c) = some c →
        exec (.thermalStep temps) s = .next (s.only (setGrants e (fun p => { p with therm := put p.therm c (thermClock e 0 c + 1) }))))) ∧
    (∀ n, exec (.regulatorStatus n) s = .next (s.only { s.dev with pw := { s.dev.pw with rising := s.dev.pw.rising.filter (fun x => x.1 / 4 != n) } })) ∧
    (∀ v, islandReady s.dev 0 = true → s.dev.io.i3c.isSome = true → exec (.pwrCapMctpWrite v) s =
      .next (s.only (rset (rset s.dev Fld.PWR_CAP_LIMIT 0 (bits v 9 0)) Fld.PWR_CAP_EN 0 (bit v 16)))) ∧
    (∀ reading d w, rflag s.dev Fld.PWR_STATUS_TRIPPED = false → s.dev.boot.pwrOk = true → s.dev.boot.standby = 0 →
      (rget s.dev Fld.THERM_CFG_TRIP : Int) * 16 ≤ signed 16 reading → d = count (draw s.dev).2 Fld.LOG_COUNT →
      w = ErrRec.word { unit := uMGMT, code := (draw s.dev).1 % 256 } d.now → ∀ e,
      e = accPins (loseIslands { d with rcv := { d.rcv with log := ((w, uMGMT, d.rcv.logSeq) :: d.rcv.log).take 1024, logSeq := d.rcv.logSeq + 1 } } mgmtField) →
      exec (.thermalTrip reading) s =
        .next (s.follow (emit { rset e Fld.PWR_STATUS_TRIPPED 0 1 with pins := { e.pins with thermN := false } } (.pin .thermtripN false)))) ∧
    (∀ fs, wrote s.dev 0 Fld.PWR_CTRL_STANDBY 0 = true → islandReady s.dev 0 = true → s.dev.boot.standby = 0 → present s.dev uWAKE = true →
      wakeEnabled s.dev = true → isNative s.dev 0 = false → flag (rget s.dev Fld.CLK_STATUS_LOST) 4 = false → fs = usedFuncs s.dev →
      exec (.pwrCtrlStandby 0x57BD) s = .next (s.follow ((fs.filter isVf ++ fs.filter (fun f => !isVf f)).foldl funcResetBegin
        { s.dev with boot := { s.dev.boot with standby := 1, wake := none } }))) ∧
    (s.dev.boot.standby = 1 → (∀ x ∈ s.dev.funcs, x.2.resetting = false) → ∀ d e,
      d = rset (rset (loseIslands s.dev (fun f i => mgmtField f i || wakeField f i)) Fld.ETH_STATUS_UP 0 1) Fld.ETH_LS_STATUS_LANES 0 1 →
      e = rset { d with boot := { d.boot with standby := 3 } } Fld.PWR_STATUS_STANDBY 0 1 →
      (accPins (emit { e with pins := { e.pins with stbyN := false } } (.pin .pwrStbyN false))).boot.wake = none →
      exec .standbyEntryDone s = .next (s.follow (accPins (emit { e with pins := { e.pins with stbyN := false } } (.pin .pwrStbyN false))))) ∧
    (∀ ev d, s.dev.boot.standby = 3 → s.dev.boot.wake = none → wakeCauses s.dev ev ≠ 0 →
      d = rset s.dev Fld.ETH_WAKE_STATUS 0 (rget s.dev Fld.ETH_WAKE_STATUS ||| wakeCauses s.dev ev) →
      exec (.wakeMatch ev) s = .next (s.follow (wakeStart { d with boot := { d.boot with wake := some (wakeCauses s.dev ev) } }))) ∧
    (∀ d e f, s.dev.boot.standby = 3 → s.dev.boot.wake.isSome = true → s.dev.boot.pwrOk = true →
      d = (List.range 4).foldl (fun d n => rset (rset d Fld.ACC_PORT_STATUS_EP n (bit d.boot.strapEp n)) Fld.ACC_PORT_STATUS_BIF n (bit d.boot.strapBif n))
        (rrestore s.dev (fun f i => !(mgmtField f i || f.id == Fld.ETH_WAKE_STATUS.id))) →
      e = rset (rset d Fld.PWR_STATUS_STANDBY 0 0) Fld.PWR_STATUS_WOKE 0 1 →
      f = { svcMemConfig e with
            ready := e.ready.filter (· < 2), boot := { e.boot with standby := 0, wake := none, stage := 2, svcWait := true, warm := false } } →
      exec .wakeRestore s = .next (s.follow (emit { f with pins := { f.pins with wakeN := true } } (.pin .wakeN true))))

/-- R38 to R46, R540, R541: acknowledgements. -/
def Obligations.AcknowledgementsEndOrFail : Prop :=
  ∀ (s : State) (p : Path),
    (∀ dm r d e, takeReq s.dev p dm = (some r, d) → e = count d (if dm then Fld.PCIE_ACK_DMWR else Fld.PCIE_ACK_READBACK) (pathKey p) →
      (dm = true → exec (.dmwrCompletion p) s = .next (s.follow (ackRoom (r.covers.foldl ackDone e) p))) ∧
      (dm = false → exec (.readbackCompletion p) s = .next (s.follow (ackRoom (r.covers.foldl ackDone e) p))) ∧
      (∀ why, dm = false ∨ why ≠ .ur → exec (.ackRequestFailure p dm why) s =
        .next (s.follow (ackRoom (r.covers.foldl (fun d t => ackFailed d p (some why) t) d) p))) ∧
      (dm = true → exec (.ackRequestFailure p true .ur) s =
        .next (s.follow (ackRoom (r.covers.foldl (fun d t => ackFailed d p (some .ur) t) (useCleared d p false)) p)))) ∧
    (∀ r n d, (pathSt s.dev p).reqs.find? (·.dmwr) = some r → d = count s.dev Fld.PCIE_MRS (pathKey p) →
      n = { r with dmwr := decide (r.retries + 1 < 4), retries := r.retries + 1 } → ∀ e,
      e = updPath d p (fun x => { x with reqs := x.reqs.map (fun y => if y = r then n else y) }) →
      (r.retries < 3 → exec (.dmwrRetryStatus p) s = .next (s.follow (emit e (.dmwr p r.w)))) ∧
      (3 ≤ r.retries → exec (.dmwrRetryStatus p) s =
        .next (s.follow (emit e (.readBack p (pathSt e p).last.lastWord (pathSt e p).last.translated))))) ∧
    (p ≠ .landing → ∀ d, d = count s.dev Fld.PCIE_CPL_TIMEOUTS (pathKey p) →
      (∀ q r rest, (pathSt d p).reqs = r :: rest → exec (.completionTimeout p (.path q)) s = .next (s.follow (ackRoom
        (r.covers.foldl (fun d t => ackFailed d p (some .timeout) t) (updPath d p (fun x => { x with reqs := removeFirst x.reqs r }))) p))) ∧
      (∀ q, exec (.completionTimeout p (.read q)) s = .next (s.follow (sourceRead s.cells d q (.fail .timeout)))) ∧
      exec (.completionTimeout p .other) s = .next (s.follow d)) ∧
    (∀ t rest, pathUp s.dev .landing = true → (pathSt s.dev .landing).port = t :: rest → exec .controllerAcceptance s =
      .next (s.follow (ackDone (updPath s.dev .landing (fun x => { x with port := rest })) t))) ∧
    (∀ t rest, p ≠ .landing → pathUp s.dev p = true → (pathSt s.dev p).port = t :: rest → exec (.portAcknowledgement p) s =
      .next (s.follow (ackDone (updPath s.dev p (fun x => { x with port := rest })) t))) ∧
    (∀ x d, p ≠ .landing → x = pathSt s.dev p → x.waiting ≠ [] → x.reqs.length < 16 →
      d = updPath s.dev p (fun y => { y with waiting := [], funcs := [], reqs := x.reqs ++ [⟨x.waiting, false, 0, x.last, x.funcs⟩] }) →
      exec (.ackHoldExpiry p) s = .next (s.only (sendAckReq d p false))) ∧
    (pathUp s.dev p = false → ∀ st d, st = pathSt s.dev p → d = { s.dev with paths := drop s.dev.paths (pathKey p) } →
      exec (.domainDownResponse (.path p)) s = .next (s.follow
        ((st.port ++ st.reqs.flatMap (·.covers) ++ st.waiting ++ st.writing).foldl (fun d t => ackFailed d p none t) d))) ∧
    (∀ q ecc r d, d = ecc.foldl (fun d e => eccRead d false e.1 e.2) s.dev →
      (∀ n org a b off, q = .message n org a b off → exec (.sourceReadCompletion q ecc r) s =
        .next (s.follow (sourceForMsg d n (originOf org a b) off r))) ∧
      (∀ w slot, q = .stage w slot → exec (.sourceReadCompletion q ecc r) s = .next (s.follow (stageRead s.cells d w slot r))) ∧
      (∀ key, q = .heat key → exec (.sourceReadCompletion q ecc r) s = .next (s.follow (heatSource s.cells d key r))) ∧
      (∀ c, q = .stride c → exec (.sourceReadCompletion q ecc r) s = .next (s.follow (strideRead s.cells d c r))) ∧
      (∀ k slot, q = .prefetch k slot → exec (.sourceReadCompletion q ecc r) s = .next (s.follow (pfRead s.cells d k slot r))) ∧
      (∀ n psn b, q = .peer n psn → r = .ok b → cachedConn (readBack s.cells d n psn r) n = true →
        exec (.sourceReadCompletion q ecc r) s = .next (s.follow (runParked (readBack s.cells d n psn r) n)))) ∧
    (∀ q, exec (.domainDownResponse (.read q)) s = .next (s.follow (sourceRead s.cells s.dev q .domainDown)))

/-- R532 to R550: the accelerator ports. -/
def Obligations.AcceleratorPortsFollowTheirLinks : Prop :=
  ∀ (s : State) (n sub i : Nat), accExists s.dev n sub = true → i = subKey n sub →
    (∀ speed width flit d, islandReady s.dev (8 + n) = true → i ∉ s.dev.io.dpc → rflag s.dev Fld.PCIE_LINK_STATUS_DL_UP i = false →
      d = rset (rset (rset (rset s.dev Fld.PCIE_LINK_STATUS_DL_UP i 1) Fld.PCIE_LINK_STATUS_SPEED i speed) Fld.PCIE_LINK_STATUS_WIDTH i width)
        Fld.PCIE_LINK_STATUS_FLIT i (b2n flit) →
      (isRoot d n = false → exec (.accelLinkUp n sub speed width flit) s = .next (s.follow d)) ∧
      (isRoot d n = true → exec (.accelLinkUp n sub speed width flit) s =
        .next (s.follow { setUse d i false false false false with io := { d.io with scanning := insertNat d.io.scanning i } }))) ∧
    (∀ a b c e, i ∈ s.dev.io.scanning → exec (.discoveryDone n sub a b c e) s = .next (s.follow
      (setUse { s.dev with io := { s.dev.io with scanning := s.dev.io.scanning.filter (· != i) } } i a b c e))) ∧
    (∀ d x e, rflag s.dev Fld.PCIE_LINK_STATUS_DL_UP i = true → d = count (rset s.dev Fld.PCIE_LINK_STATUS_DL_UP i 0) Fld.PCIE_LINK_DOWNS i →
      x = (if isRoot d n then setUse d i false false false false else d) →
      e = pathLost { x with io := { x.io with scanning := x.io.scanning.filter (· != i) } } (.accel n sub) →
      exec (.accelLinkLoss n sub) s = .next (s.follow
        (pf0Event (errorAt e { unit := uACCEL n, code := 0x0A, island := 8 + n } none) EV_PORT (uACCEL n) (sub + 5 * 2 ^ 8)))) ∧
    (isRoot s.dev n = true → accExists s.dev n 0 = true →
      (wrote s.dev 0 Fld.ACC_PORT_CTRL_RESCAN n = true → exec (.accPortRescan n) s = .next (s.follow { s.dev with
        io := { s.dev.io with scanning := (([0, 1].map (subKey n)).filter (fun i => rflag s.dev Fld.PCIE_LINK_STATUS_DL_UP i)).foldl insertNat s.dev.io.scanning } })) ∧
      (wrote s.dev 0 Fld.ACC_PORT_CTRL_DPC_RELEASE n = true → exec (.dpcRelease n) s = .next (s.follow { s.dev with
        io := { s.dev.io with dpc := s.dev.io.dpc.filter (fun i => i / 2 != n + 1) } })) ∧
      (∀ d, islandReady s.dev (8 + n) = true → d = errorAt (count s.dev Fld.PCIE_AER_MSGS i) { unit := uACCEL n, code := 0x0A, island := 8 + n } none →
        exec (.aerMessageReceived n sub) s = .next (s.follow d) ∧
        (∀ b x e, rflag s.dev Fld.PCIE_LINK_STATUS_DL_UP i = true → accExists d n sub = true → isRoot d n = true →
          rflag d Fld.PCIE_LINK_STATUS_DL_UP i = true → b = { d with io := { d.io with dpc := insertNat d.io.dpc i } } →
          x = setUse (count (rset b Fld.PCIE_LINK_STATUS_DL_UP i 0) Fld.PCIE_LINK_DOWNS i) i false false false false →
          e = pathLost { x with io := { x.io with scanning := x.io.scanning.filter (· != i) } } (.accel n sub) →
          exec (.errFatalReceived n sub) s = .next (s.follow
            (pf0Event (errorAt e { unit := uACCEL n, code := 0x0A, island := 8 + n } none) EV_PORT (uACCEL n) (sub + 5 * 2 ^ 8))))) ∧
      (wrote s.dev 0 Fld.ACC_CFG_DATA n = true →
        (∀ v, rflag s.dev Fld.PCIE_LINK_STATUS_DL_UP (subKey n (rget s.dev Fld.ACC_CFG_ADDR_SUBLINK n)) = false →
          exec (.accCfgDataAccess n none v) s = .next (s.only (emit (rset s.dev Fld.ACC_CFG_DATA n 0xFFFFFFFF) (.value 0xFFFFFFFF)))) ∧
        (∀ at_ v, rflag s.dev Fld.PCIE_LINK_STATUS_DL_UP (subKey n (rget s.dev Fld.ACC_CFG_ADDR_SUBLINK n)) = true →
          at_ = rget s.dev Fld.ACC_CFG_ADDR_REG n * 4 + rget s.dev Fld.ACC_CFG_ADDR_FN n * 2 ^ 12 + rget s.dev Fld.ACC_CFG_ADDR_DEV n * 2 ^ 15
            + rget s.dev Fld.ACC_CFG_ADDR_BUS n * 2 ^ 20 →
          exec (.accCfgDataAccess n none (some v)) s = .next (s.only (emit (rset (emit s.dev (.config (n + 1) false at_ 0))
            Fld.ACC_CFG_DATA n (v % 2 ^ 32)) (.value (v % 2 ^ 32)))) ∧
          (∀ a, exec (.accCfgDataAccess n (some v) a) s =
            .next (s.only (rset (emit s.dev (.config (n + 1) true at_ v)) Fld.ACC_CFG_DATA n v))))) ∧
      (rflag s.dev Fld.PCIE_LINK_STATUS_DL_UP i = true →
        (∀ x f v, rflag s.dev Fld.ACC_DB_EN n = true → f = rget s.dev Fld.ACC_DB_FUNC n → f ≤ 3 → x < 65536 →
          exec (.inboundDoorbellWrite n sub (rget s.dev Fld.ACC_DB_BASE n * 2 ^ 24 + 8 * x) true false v) s =
            .next (s.follow (doorbell s.dev f x true v)) ∧
          exec (.inboundDoorbellWrite n sub (rget s.dev Fld.ACC_DB_BASE n * 2 ^ 24 + 8 * x) true true v) s =
            .next (s.follow (emit (doorbell s.dev f x true v) (.completion (n + 1) true))) ∧
          (∀ k q, sqByDb s.dev f x = some (k, q) → (funcOf s.dev f).resetting = false → q.lim < v → v ≤ q.consumed + 2 ^ q.ring.log2 →
            exec (.inboundDoorbellWrite n sub (rget s.dev Fld.ACC_DB_BASE n * 2 ^ 24 + 8 * x) true false v) s =
              .next (s.follow (updSq s.dev k (fun q => { q with lim := v }))))) ∧
        (rflag s.dev Fld.ACC_DB_EN n = false →
          (∀ a w v, exec (.inboundDoorbellWrite n sub a w false v) s = .next (s.follow (count s.dev Fld.PCIE_IN_DISCARDS i))) ∧
          (∀ a w v, exec (.inboundDoorbellWrite n sub a w true v) s = .next (s.follow (emit s.dev (.completion (n + 1) false))))) ∧
        exec (.inboundRequestDiscard n sub true) s = .next (s.only (count s.dev Fld.PCIE_IN_DISCARDS i)) ∧
        exec (.inboundRequestDiscard n sub false) s = .next (s.only (emit s.dev (.completion (n + 1) false))))) ∧
    (∀ x f v, isRoot s.dev n = false → rflag s.dev Fld.PCIE_LINK_STATUS_DL_UP i = true → rflag s.dev Fld.ACC_DB_EN n = true →
      f = rget s.dev Fld.ACC_DB_FUNC n → (f ≤ 3 ∨ isVf f = true) → x < 65536 →
      exec (.inboundDoorbellWrite n sub (8 * x) true false v) s = .next (s.follow (doorbell s.dev f x true v)))

/-- R4: an absent unit's set-up block stays mapped. -/
def Obligations.AbsentUnitsReadZeroAndIgnoreWrites : Prop :=
  ∀ (s : State) (u a n v : Nat), u < 25 → present s.dev u = false → 0x2000000 + u * 0x100000 ≤ a → a < 0x2000000 + (u + 1) * 0x100000 →
    regSized a n = true →
    exec (.rcCounterRead 0 false a n) s = .next (s.only (emit s.dev (.value 0))) ∧
    exec (.registerWrite 0 false a n v) s = .next (s.follow s.dev)

/-- R12, R560: register accesses of a function. -/
def Obligations.RegistersAreReadAndWrittenByFunctions : Prop :=
  ∀ (s : State) (f a n v : Nat),
    (regReach s.dev f = false → ∀ bar2, exec (.registerWrite f bar2 a n v) s = .next (s.follow s.dev)) ∧
    (regReach s.dev f = true →
      (inDoorbells f a = true → exec (.registerWrite f false a n v) s =
        .next (s.follow (doorbell s.dev f ((a - dbBase f) / 8) (n = 8 && a % 8 = 0) v))) ∧
      (inDoorbells f a = false → regSized a n = true → msixOffset f false a = none → inStatus f a = false → photoWindow s.dev f a = none →
        ∀ hits, hits = fieldHits s.dev f a n → exec (.registerWrite f false a n v) s =
          .next (s.follow (hits.foldl (fun d (fld, i, b) => writeEffect s.cells d f fld i b a n v)
            (hits.foldl (fun d (fld, i, b) => writeField d fld i b a n v) s.dev))))) ∧
    (regReach s.dev f = true → regSized a n = true → ∀ bar2, (bar2 = true ∨ inDoorbells f a = false) →
      (∀ x, msixOffset f bar2 a = some x →
        (n ≠ 8 → exec (.registerWrite f bar2 a n v) s = .next (s.follow (msixWrite s.dev f x (v % 2 ^ 32)))) ∧
        (n = 8 → exec (.registerWrite f bar2 a n v) s =
          .next (s.follow (msixWrite (msixWrite s.dev f x (v % 2 ^ 32)) f (x + 4) (v / 2 ^ 32 % 2 ^ 32))))) ∧
      (msixOffset f bar2 a = none → inStatus f a = true ∨ (photoWindow s.dev f a).isSome = true →
        exec (.registerWrite f bar2 a n v) s = .next (s.follow s.dev))) ∧
    (regReach s.dev f = true → readsDown s.dev f a n = false → f ≠ 0 ∨ a < 0x2000000 → exec (.rcCounterRead f false a n) s =
      .next (s.only (emit (regRead s.dev f false a n).1 (.value (regRead s.dev f false a n).2)))) ∧
    (∀ fld i b, inDoorbells f a = false → inStatus f a = false → regSized a n = true → msixOffset f false a = none → photoWindow s.dev f a = none →
      fieldHits s.dev f a n = [(fld, i, b)] → fld.acc = .rc → wholly fld b a n = true →
      rget (regGet s.dev f false a n true).1 fld i = 0 ∧ (regGet s.dev f false a n true).2 = gather [(fld, i, b)] a n (fun x j => fieldValue s.dev f x j))

/-- R546 to R548, R577, R578: attestation, the test access port and I3C. -/
def Obligations.SidebandAnswers : Prop :=
  ∀ (s : State),
    (∀ mb acc req, islandReady s.dev 0 = true → spdmReach s.dev mb = true →
      (rflag s.dev Fld.FW_STATUS_ACTIVATING = false →
        exec (.spdmGetVersion mb acc req) s = .next (s.only (emit s.dev (.message 0x84 (spdmBody s.dev 0x84 req)))) ∧
        exec (.spdmGetCapabilities mb acc req) s = .next (s.only (emit s.dev (.message 0xE1 (spdmBody s.dev 0xE1 req)))) ∧
        exec (.spdmNegotiateAlgorithms mb acc req) s = .next (s.only (emit s.dev (.message 0xE3 (spdmBody s.dev 0xE3 req)))) ∧
        exec (.spdmGetDigests mb acc req) s = .next (s.only (emit s.dev (.message 0x81 (spdmBody s.dev 0x81 req)))) ∧
        exec (.spdmGetCertificate mb acc req) s = .next (s.only (emit s.dev (.message 0x82 (spdmBody s.dev 0x82 req)))) ∧
        exec (.spdmChallenge mb acc req) s = .next (s.only (emit s.dev (.message 0x83 (spdmBody s.dev 0x83 req)))) ∧
        exec (.spdmGetMeasurements mb acc req) s = .next (s.only (emit s.dev (.message 0xE0 (spdmBody s.dev 0xE0 req))))) ∧
      (mb = 8 → exec (.spdmGetMeasurements mb acc req) s = .next (s.only (emit s.dev (.message 0xE0 (spdmBody s.dev 0xE0 req))))) ∧
      (rflag s.dev Fld.FW_STATUS_ACTIVATING = true → mb ≠ 8 → exec (.spdmGetMeasurements mb true req) s =
        .next (s.only { s.dev with io := { s.dev.io with doeWait := s.dev.io.doeWait ++ [(mb, 0xE0, req)] } }))) ∧
    exec (.jtagInstructionLoad .idcode) s =
      .next (s.store (emit { s.dev with boot := { s.dev.boot with jtagIr := jtagNumber .idcode } } (.value 0x10009A6B))) ∧
    (∀ j ∈ [Jtag.extest, .extestPulse, .extestTrain, .clamp, .highz], exec (.jtagInstructionLoad j) s =
      .next (s.store (scanMode (allDown { s.dev with boot := { s.dev.boot with jtagIr := jtagNumber j } })))) ∧
    (∀ j ∈ [Jtag.bypass, .sample], exec (.jtagInstructionLoad j) s =
      .next (s.store { s.dev with boot := { s.dev.boot with jtagIr := jtagNumber j } })) ∧
    (∀ c, s.dev.mon.unlocked = false → s.dev.nvm.debug = false → exec (.jtagInstructionLoad (.other c)) s =
      .next (s.store { s.dev with boot := { s.dev.boot with jtagIr := jtagNumber .bypass } })) ∧
    (s.dev.io.i3c = none → ∀ a, a < 128 →
      exec (.dynamicAddressAssignment none a) s = .next (s.only { s.dev with io := { s.dev.io with i3c := some a } }) ∧
      exec (.dynamicAddressAssignment (some 0x4E) a) s = .next (s.only { s.dev with io := { s.dev.io with i3c := some a } }))
end

