-- ==== Sys2Proof/Laws/Memory.lean ====
section
/-!
SUPPORT. Landing memory contents: a byte read after a store, and the canonical form, which every store keeps.
-/

namespace Sys2Proof.Machine

/-- In a list in canonical form, an address before the first listed one reads 0. -/
theorem cellAt_below (m : List Host.Cell) (a : Nat) (h : ∀ c ∈ m, a < c.1) : cellAt m a = 0 := by
  induction m with
  | nil => rfl
  | cons x r ih =>
    obtain ⟨i, b⟩ := x
    have h1 : a < i := h (i, b) (by simp)
    have : ¬ i = a := by omega
    simp only [cellAt, this, if_false]
    exact ih (fun c hc => h c (by simp [hc]))

/-- A store of one byte is what its address reads. -/
theorem cellAt_put_eq (m : List Host.Cell) (a : Nat) (b : Byte) (hm : Memory.wf m) : cellAt (cellPut m a b) a = b := by
  induction m with
  | nil => simp only [cellPut]; split <;> simp_all [cellAt]
  | cons x r ih =>
    obtain ⟨i, c⟩ := x
    obtain ⟨hp, hz⟩ := hm
    rw [List.pairwise_cons] at hp
    have hr : Memory.wf r := ⟨hp.2, fun c hc => hz c (by simp [hc])⟩
    have hi : ∀ c ∈ r, i < c.1 := fun c hc => hp.1 c hc
    simp only [cellPut]
    split
    · rename_i ha
      split
      · rename_i hb
        rw [hb]
        refine cellAt_below _ _ ?_
        intro y hy
        rcases List.mem_cons.1 hy with rfl | hy
        · exact ha
        · exact Nat.lt_trans ha (hi y hy)
      · simp [cellAt]
    · split
      · rename_i hai
        subst hai
        split
        · rename_i hb
          rw [hb]
          exact cellAt_below _ _ hi
        · simp [cellAt]
      · rename_i hai
        have : ¬ i = a := fun h => hai h.symm
        simp [cellAt, this, ih hr]

/-- A store of one byte leaves every other address as it was. -/
theorem cellAt_put_ne (m : List Host.Cell) (a j : Nat) (b : Byte) (h : j ≠ a) : cellAt (cellPut m a b) j = cellAt m j := by
  have hja : ¬ a = j := fun e => h e.symm
  induction m with
  | nil => simp only [cellPut]; split <;> simp [cellAt, hja]
  | cons x r ih =>
    obtain ⟨i, c⟩ := x
    simp only [cellPut]
    split
    · split <;> simp [cellAt, hja]
    · split
      · rename_i e
        subst e
        split <;> simp [cellAt, hja]
      · simp [cellAt, ih]

/-- What a list holds after one byte is stored: the byte, or what it held. -/
theorem mem_cellPut (m : List Host.Cell) (a : Nat) (b : Byte) (c : Host.Cell) (h : c ∈ cellPut m a b) :
    (c = (a, b) ∧ b ≠ 0) ∨ c ∈ m := by
  induction m with
  | nil => simp only [cellPut] at h; split at h <;> simp_all
  | cons x r ih =>
    obtain ⟨i, d⟩ := x
    simp only [cellPut] at h
    split at h
    · split at h
      · exact .inr h
      · rename_i hb
        rcases List.mem_cons.1 h with h | h
        · exact .inl ⟨h, hb⟩
        · exact .inr h
    · split at h
      · split at h
        · exact .inr (List.mem_cons_of_mem _ h)
        · rename_i hb
          rcases List.mem_cons.1 h with h | h
          · exact .inl ⟨h, hb⟩
          · exact .inr (List.mem_cons_of_mem _ h)
      · rcases List.mem_cons.1 h with h | h
        · simp [h]
        · rcases ih h with h | h
          · exact .inl h
          · exact .inr (by simp [h])

theorem cellPut_wf (m : List Host.Cell) (a : Nat) (b : Byte) (hm : Memory.wf m) : Memory.wf (cellPut m a b) := by
  refine ⟨?_, ?_⟩
  · induction m with
    | nil => simp only [cellPut]; split <;> simp
    | cons x r ih =>
      obtain ⟨i, c⟩ := x
      obtain ⟨hp, hz⟩ := hm
      rw [List.pairwise_cons] at hp
      have hr : Memory.wf r := ⟨hp.2, fun c hc => hz c (by simp [hc])⟩
      have hi : ∀ c ∈ r, i < c.1 := fun c hc => hp.1 c hc
      simp only [cellPut]
      split
      · rename_i ha
        split
        · exact List.pairwise_cons.2 ⟨hp.1, hp.2⟩
        · refine List.pairwise_cons.2 ⟨?_, List.pairwise_cons.2 ⟨hp.1, hp.2⟩⟩
          intro y hy
          rcases List.mem_cons.1 hy with rfl | hy
          · exact ha
          · exact Nat.lt_trans ha (hi y hy)
      · split
        · rename_i e
          subst e
          split
          · exact hp.2
          · exact List.pairwise_cons.2 ⟨hp.1, hp.2⟩
        · rename_i h1 h2
          refine List.pairwise_cons.2 ⟨?_, ih hr⟩
          intro y hy
          rcases mem_cellPut _ _ _ _ hy with ⟨rfl, -⟩ | hy
          · show i < a
            omega
          · exact hi y hy
  · intro c hc
    rcases mem_cellPut _ _ _ _ hc with ⟨rfl, hb⟩ | hc
    · exact hb
    · exact hm.2 c hc

theorem storeAll_wf (w m : List Host.Cell) (hm : Memory.wf m) : Memory.wf (storeAll m w) := by
  unfold storeAll
  induction w generalizing m with
  | nil => exact hm
  | cons c r ih => exact ih _ (cellPut_wf _ _ _ hm)

theorem filter_wf (p : Host.Cell → Bool) (m : List Host.Cell) (hm : Memory.wf m) : Memory.wf (m.filter p) :=
  ⟨hm.1.filter p, fun c hc => hm.2 c (List.mem_filter.1 hc).1⟩

/-- Every memory operation of a step keeps the canonical form. -/
theorem store_wf (s : State) (d : Ix9) (hm : Memory.wf s.cells) : Memory.wf (s.store d).cells :=
  storeAll_wf _ _ (filter_wf _ _ hm)

theorem follow_wf (s : State) (d : Ix9) (hm : Memory.wf s.cells) : Memory.wf (s.follow d).cells := store_wf _ _ hm

theorem reset_wf : Memory.wf State.reset.cells := ⟨List.Pairwise.nil, fun _ h => nomatch h⟩

end Sys2Proof.Machine
end

