-- ==== Sys2Proof/Laws/State.lean ====
section
/-!
SUPPORT. What each update of one part of the block leaves alone: one lemma per field and update, so that no proof unfolds
a record update.
-/

namespace Sys2Proof.Machine

@[simp] theorem rset_code (d : Ix9) (f : Fld) (i v : Nat) : (rset d f i v).code = d.code := rfl
@[simp] theorem rset_ready (d : Ix9) (f : Fld) (i v : Nat) : (rset d f i v).ready = d.ready := rfl
@[simp] theorem rset_off (d : Ix9) (f : Fld) (i v : Nat) : (rset d f i v).off = d.off := rfl
@[simp] theorem rset_q (d : Ix9) (f : Fld) (i v : Nat) : (rset d f i v).q = d.q := rfl
@[simp] theorem rset_x (d : Ix9) (f : Fld) (i v : Nat) : (rset d f i v).x = d.x := rfl
@[simp] theorem rset_c (d : Ix9) (f : Fld) (i v : Nat) : (rset d f i v).c = d.c := rfl
@[simp] theorem rset_net (d : Ix9) (f : Fld) (i v : Nat) : (rset d f i v).net = d.net := rfl
@[simp] theorem rset_lm (d : Ix9) (f : Fld) (i v : Nat) : (rset d f i v).lm = d.lm := rfl
@[simp] theorem rset_funcs (d : Ix9) (f : Fld) (i v : Nat) : (rset d f i v).funcs = d.funcs := rfl
@[simp] theorem rset_paths (d : Ix9) (f : Fld) (i v : Nat) : (rset d f i v).paths = d.paths := rfl
@[simp] theorem rset_ciph (d : Ix9) (f : Fld) (i v : Nat) : (rset d f i v).ciph = d.ciph := rfl
@[simp] theorem rset_h (d : Ix9) (f : Fld) (i v : Nat) : (rset d f i v).h = d.h := rfl
@[simp] theorem rset_stride (d : Ix9) (f : Fld) (i v : Nat) : (rset d f i v).stride = d.stride := rfl
@[simp] theorem rset_rcv (d : Ix9) (f : Fld) (i v : Nat) : (rset d f i v).rcv = d.rcv := rfl
@[simp] theorem rset_pins (d : Ix9) (f : Fld) (i v : Nat) : (rset d f i v).pins = d.pins := rfl
@[simp] theorem rset_ppsAt (d : Ix9) (f : Fld) (i v : Nat) : (rset d f i v).ppsAt = d.ppsAt := rfl
@[simp] theorem rset_nvm (d : Ix9) (f : Fld) (i v : Nat) : (rset d f i v).nvm = d.nvm := rfl
@[simp] theorem rset_boot (d : Ix9) (f : Fld) (i v : Nat) : (rset d f i v).boot = d.boot := rfl
@[simp] theorem rset_pw (d : Ix9) (f : Fld) (i v : Nat) : (rset d f i v).pw = d.pw := rfl
@[simp] theorem rset_mon (d : Ix9) (f : Fld) (i v : Nat) : (rset d f i v).mon = d.mon := rfl
@[simp] theorem rset_io (d : Ix9) (f : Fld) (i v : Nat) : (rset d f i v).io = d.io := rfl
@[simp] theorem rset_now (d : Ix9) (f : Fld) (i v : Nat) : (rset d f i v).now = d.now := rfl
@[simp] theorem rset_el (d : Ix9) (f : Fld) (i v : Nat) : (rset d f i v).el = d.el := rfl
@[simp] theorem rset_freeCtr (d : Ix9) (f : Fld) (i v : Nat) : (rset d f i v).freeCtr = d.freeCtr := rfl
@[simp] theorem rset_wr (d : Ix9) (f : Fld) (i v : Nat) : (rset d f i v).wr = d.wr := rfl
@[simp] theorem rset_zap (d : Ix9) (f : Fld) (i v : Nat) : (rset d f i v).zap = d.zap := rfl
@[simp] theorem rset_out (d : Ix9) (f : Fld) (i v : Nat) : (rset d f i v).out = d.out := rfl
@[simp] theorem rset_sent (d : Ix9) (f : Fld) (i v : Nat) : (rset d f i v).sent = d.sent := rfl

@[simp] theorem updFunc_regs (d : Ix9) (f : Nat) (g : Func → Func) : (updFunc d f g).regs = d.regs := rfl
@[simp] theorem updFunc_code (d : Ix9) (f : Nat) (g : Func → Func) : (updFunc d f g).code = d.code := rfl
@[simp] theorem updFunc_ready (d : Ix9) (f : Nat) (g : Func → Func) : (updFunc d f g).ready = d.ready := rfl
@[simp] theorem updFunc_off (d : Ix9) (f : Nat) (g : Func → Func) : (updFunc d f g).off = d.off := rfl
@[simp] theorem updFunc_q (d : Ix9) (f : Nat) (g : Func → Func) : (updFunc d f g).q = d.q := rfl
@[simp] theorem updFunc_x (d : Ix9) (f : Nat) (g : Func → Func) : (updFunc d f g).x = d.x := rfl
@[simp] theorem updFunc_c (d : Ix9) (f : Nat) (g : Func → Func) : (updFunc d f g).c = d.c := rfl
@[simp] theorem updFunc_net (d : Ix9) (f : Nat) (g : Func → Func) : (updFunc d f g).net = d.net := rfl
@[simp] theorem updFunc_lm (d : Ix9) (f : Nat) (g : Func → Func) : (updFunc d f g).lm = d.lm := rfl
@[simp] theorem updFunc_paths (d : Ix9) (f : Nat) (g : Func → Func) : (updFunc d f g).paths = d.paths := rfl
@[simp] theorem updFunc_ciph (d : Ix9) (f : Nat) (g : Func → Func) : (updFunc d f g).ciph = d.ciph := rfl
@[simp] theorem updFunc_h (d : Ix9) (f : Nat) (g : Func → Func) : (updFunc d f g).h = d.h := rfl
@[simp] theorem updFunc_stride (d : Ix9) (f : Nat) (g : Func → Func) : (updFunc d f g).stride = d.stride := rfl
@[simp] theorem updFunc_rcv (d : Ix9) (f : Nat) (g : Func → Func) : (updFunc d f g).rcv = d.rcv := rfl
@[simp] theorem updFunc_pins (d : Ix9) (f : Nat) (g : Func → Func) : (updFunc d f g).pins = d.pins := rfl
@[simp] theorem updFunc_ppsAt (d : Ix9) (f : Nat) (g : Func → Func) : (updFunc d f g).ppsAt = d.ppsAt := rfl
@[simp] theorem updFunc_nvm (d : Ix9) (f : Nat) (g : Func → Func) : (updFunc d f g).nvm = d.nvm := rfl
@[simp] theorem updFunc_boot (d : Ix9) (f : Nat) (g : Func → Func) : (updFunc d f g).boot = d.boot := rfl
@[simp] theorem updFunc_pw (d : Ix9) (f : Nat) (g : Func → Func) : (updFunc d f g).pw = d.pw := rfl
@[simp] theorem updFunc_mon (d : Ix9) (f : Nat) (g : Func → Func) : (updFunc d f g).mon = d.mon := rfl
@[simp] theorem updFunc_io (d : Ix9) (f : Nat) (g : Func → Func) : (updFunc d f g).io = d.io := rfl
@[simp] theorem updFunc_now (d : Ix9) (f : Nat) (g : Func → Func) : (updFunc d f g).now = d.now := rfl
@[simp] theorem updFunc_el (d : Ix9) (f : Nat) (g : Func → Func) : (updFunc d f g).el = d.el := rfl
@[simp] theorem updFunc_freeCtr (d : Ix9) (f : Nat) (g : Func → Func) : (updFunc d f g).freeCtr = d.freeCtr := rfl
@[simp] theorem updFunc_wr (d : Ix9) (f : Nat) (g : Func → Func) : (updFunc d f g).wr = d.wr := rfl
@[simp] theorem updFunc_zap (d : Ix9) (f : Nat) (g : Func → Func) : (updFunc d f g).zap = d.zap := rfl
@[simp] theorem updFunc_out (d : Ix9) (f : Nat) (g : Func → Func) : (updFunc d f g).out = d.out := rfl
@[simp] theorem updFunc_sent (d : Ix9) (f : Nat) (g : Func → Func) : (updFunc d f g).sent = d.sent := rfl

@[simp] theorem updPath_regs (d : Ix9) (p : Path) (g : PathSt → PathSt) : (updPath d p g).regs = d.regs := rfl
@[simp] theorem updPath_code (d : Ix9) (p : Path) (g : PathSt → PathSt) : (updPath d p g).code = d.code := rfl
@[simp] theorem updPath_ready (d : Ix9) (p : Path) (g : PathSt → PathSt) : (updPath d p g).ready = d.ready := rfl
@[simp] theorem updPath_off (d : Ix9) (p : Path) (g : PathSt → PathSt) : (updPath d p g).off = d.off := rfl
@[simp] theorem updPath_q (d : Ix9) (p : Path) (g : PathSt → PathSt) : (updPath d p g).q = d.q := rfl
@[simp] theorem updPath_x (d : Ix9) (p : Path) (g : PathSt → PathSt) : (updPath d p g).x = d.x := rfl
@[simp] theorem updPath_c (d : Ix9) (p : Path) (g : PathSt → PathSt) : (updPath d p g).c = d.c := rfl
@[simp] theorem updPath_net (d : Ix9) (p : Path) (g : PathSt → PathSt) : (updPath d p g).net = d.net := rfl
@[simp] theorem updPath_lm (d : Ix9) (p : Path) (g : PathSt → PathSt) : (updPath d p g).lm = d.lm := rfl
@[simp] theorem updPath_funcs (d : Ix9) (p : Path) (g : PathSt → PathSt) : (updPath d p g).funcs = d.funcs := rfl
@[simp] theorem updPath_ciph (d : Ix9) (p : Path) (g : PathSt → PathSt) : (updPath d p g).ciph = d.ciph := rfl
@[simp] theorem updPath_h (d : Ix9) (p : Path) (g : PathSt → PathSt) : (updPath d p g).h = d.h := rfl
@[simp] theorem updPath_stride (d : Ix9) (p : Path) (g : PathSt → PathSt) : (updPath d p g).stride = d.stride := rfl
@[simp] theorem updPath_rcv (d : Ix9) (p : Path) (g : PathSt → PathSt) : (updPath d p g).rcv = d.rcv := rfl
@[simp] theorem updPath_pins (d : Ix9) (p : Path) (g : PathSt → PathSt) : (updPath d p g).pins = d.pins := rfl
@[simp] theorem updPath_ppsAt (d : Ix9) (p : Path) (g : PathSt → PathSt) : (updPath d p g).ppsAt = d.ppsAt := rfl
@[simp] theorem updPath_nvm (d : Ix9) (p : Path) (g : PathSt → PathSt) : (updPath d p g).nvm = d.nvm := rfl
@[simp] theorem updPath_boot (d : Ix9) (p : Path) (g : PathSt → PathSt) : (updPath d p g).boot = d.boot := rfl
@[simp] theorem updPath_pw (d : Ix9) (p : Path) (g : PathSt → PathSt) : (updPath d p g).pw = d.pw := rfl
@[simp] theorem updPath_mon (d : Ix9) (p : Path) (g : PathSt → PathSt) : (updPath d p g).mon = d.mon := rfl
@[simp] theorem updPath_io (d : Ix9) (p : Path) (g : PathSt → PathSt) : (updPath d p g).io = d.io := rfl
@[simp] theorem updPath_now (d : Ix9) (p : Path) (g : PathSt → PathSt) : (updPath d p g).now = d.now := rfl
@[simp] theorem updPath_el (d : Ix9) (p : Path) (g : PathSt → PathSt) : (updPath d p g).el = d.el := rfl
@[simp] theorem updPath_freeCtr (d : Ix9) (p : Path) (g : PathSt → PathSt) : (updPath d p g).freeCtr = d.freeCtr := rfl
@[simp] theorem updPath_wr (d : Ix9) (p : Path) (g : PathSt → PathSt) : (updPath d p g).wr = d.wr := rfl
@[simp] theorem updPath_zap (d : Ix9) (p : Path) (g : PathSt → PathSt) : (updPath d p g).zap = d.zap := rfl
@[simp] theorem updPath_out (d : Ix9) (p : Path) (g : PathSt → PathSt) : (updPath d p g).out = d.out := rfl
@[simp] theorem updPath_sent (d : Ix9) (p : Path) (g : PathSt → PathSt) : (updPath d p g).sent = d.sent := rfl

@[simp] theorem emit_regs (d : Ix9) (o : Out) : (emit d o).regs = d.regs := rfl
@[simp] theorem emit_code (d : Ix9) (o : Out) : (emit d o).code = d.code := rfl
@[simp] theorem emit_ready (d : Ix9) (o : Out) : (emit d o).ready = d.ready := rfl
@[simp] theorem emit_off (d : Ix9) (o : Out) : (emit d o).off = d.off := rfl
@[simp] theorem emit_q (d : Ix9) (o : Out) : (emit d o).q = d.q := rfl
@[simp] theorem emit_x (d : Ix9) (o : Out) : (emit d o).x = d.x := rfl
@[simp] theorem emit_c (d : Ix9) (o : Out) : (emit d o).c = d.c := rfl
@[simp] theorem emit_net (d : Ix9) (o : Out) : (emit d o).net = d.net := rfl
@[simp] theorem emit_lm (d : Ix9) (o : Out) : (emit d o).lm = d.lm := rfl
@[simp] theorem emit_funcs (d : Ix9) (o : Out) : (emit d o).funcs = d.funcs := rfl
@[simp] theorem emit_paths (d : Ix9) (o : Out) : (emit d o).paths = d.paths := rfl
@[simp] theorem emit_ciph (d : Ix9) (o : Out) : (emit d o).ciph = d.ciph := rfl
@[simp] theorem emit_h (d : Ix9) (o : Out) : (emit d o).h = d.h := rfl
@[simp] theorem emit_stride (d : Ix9) (o : Out) : (emit d o).stride = d.stride := rfl
@[simp] theorem emit_rcv (d : Ix9) (o : Out) : (emit d o).rcv = d.rcv := rfl
@[simp] theorem emit_pins (d : Ix9) (o : Out) : (emit d o).pins = d.pins := rfl
@[simp] theorem emit_ppsAt (d : Ix9) (o : Out) : (emit d o).ppsAt = d.ppsAt := rfl
@[simp] theorem emit_nvm (d : Ix9) (o : Out) : (emit d o).nvm = d.nvm := rfl
@[simp] theorem emit_boot (d : Ix9) (o : Out) : (emit d o).boot = d.boot := rfl
@[simp] theorem emit_pw (d : Ix9) (o : Out) : (emit d o).pw = d.pw := rfl
@[simp] theorem emit_mon (d : Ix9) (o : Out) : (emit d o).mon = d.mon := rfl
@[simp] theorem emit_io (d : Ix9) (o : Out) : (emit d o).io = d.io := rfl
@[simp] theorem emit_now (d : Ix9) (o : Out) : (emit d o).now = d.now := rfl
@[simp] theorem emit_el (d : Ix9) (o : Out) : (emit d o).el = d.el := rfl
@[simp] theorem emit_freeCtr (d : Ix9) (o : Out) : (emit d o).freeCtr = d.freeCtr := rfl
@[simp] theorem emit_wr (d : Ix9) (o : Out) : (emit d o).wr = d.wr := rfl
@[simp] theorem emit_zap (d : Ix9) (o : Out) : (emit d o).zap = d.zap := rfl
@[simp] theorem emit_sent (d : Ix9) (o : Out) : (emit d o).sent = d.sent := rfl

@[simp] theorem updSq_regs (d : Ix9) (k : Nat) (g : Sq → Sq) : (updSq d k g).regs = d.regs := rfl
@[simp] theorem updSq_code (d : Ix9) (k : Nat) (g : Sq → Sq) : (updSq d k g).code = d.code := rfl
@[simp] theorem updSq_ready (d : Ix9) (k : Nat) (g : Sq → Sq) : (updSq d k g).ready = d.ready := rfl
@[simp] theorem updSq_off (d : Ix9) (k : Nat) (g : Sq → Sq) : (updSq d k g).off = d.off := rfl
@[simp] theorem updSq_x (d : Ix9) (k : Nat) (g : Sq → Sq) : (updSq d k g).x = d.x := rfl
@[simp] theorem updSq_c (d : Ix9) (k : Nat) (g : Sq → Sq) : (updSq d k g).c = d.c := rfl
@[simp] theorem updSq_net (d : Ix9) (k : Nat) (g : Sq → Sq) : (updSq d k g).net = d.net := rfl
@[simp] theorem updSq_lm (d : Ix9) (k : Nat) (g : Sq → Sq) : (updSq d k g).lm = d.lm := rfl
@[simp] theorem updSq_funcs (d : Ix9) (k : Nat) (g : Sq → Sq) : (updSq d k g).funcs = d.funcs := rfl
@[simp] theorem updSq_paths (d : Ix9) (k : Nat) (g : Sq → Sq) : (updSq d k g).paths = d.paths := rfl
@[simp] theorem updSq_ciph (d : Ix9) (k : Nat) (g : Sq → Sq) : (updSq d k g).ciph = d.ciph := rfl
@[simp] theorem updSq_h (d : Ix9) (k : Nat) (g : Sq → Sq) : (updSq d k g).h = d.h := rfl
@[simp] theorem updSq_stride (d : Ix9) (k : Nat) (g : Sq → Sq) : (updSq d k g).stride = d.stride := rfl
@[simp] theorem updSq_rcv (d : Ix9) (k : Nat) (g : Sq → Sq) : (updSq d k g).rcv = d.rcv := rfl
@[simp] theorem updSq_pins (d : Ix9) (k : Nat) (g : Sq → Sq) : (updSq d k g).pins = d.pins := rfl
@[simp] theorem updSq_ppsAt (d : Ix9) (k : Nat) (g : Sq → Sq) : (updSq d k g).ppsAt = d.ppsAt := rfl
@[simp] theorem updSq_nvm (d : Ix9) (k : Nat) (g : Sq → Sq) : (updSq d k g).nvm = d.nvm := rfl
@[simp] theorem updSq_boot (d : Ix9) (k : Nat) (g : Sq → Sq) : (updSq d k g).boot = d.boot := rfl
@[simp] theorem updSq_pw (d : Ix9) (k : Nat) (g : Sq → Sq) : (updSq d k g).pw = d.pw := rfl
@[simp] theorem updSq_mon (d : Ix9) (k : Nat) (g : Sq → Sq) : (updSq d k g).mon = d.mon := rfl
@[simp] theorem updSq_io (d : Ix9) (k : Nat) (g : Sq → Sq) : (updSq d k g).io = d.io := rfl
@[simp] theorem updSq_now (d : Ix9) (k : Nat) (g : Sq → Sq) : (updSq d k g).now = d.now := rfl
@[simp] theorem updSq_el (d : Ix9) (k : Nat) (g : Sq → Sq) : (updSq d k g).el = d.el := rfl
@[simp] theorem updSq_freeCtr (d : Ix9) (k : Nat) (g : Sq → Sq) : (updSq d k g).freeCtr = d.freeCtr := rfl
@[simp] theorem updSq_wr (d : Ix9) (k : Nat) (g : Sq → Sq) : (updSq d k g).wr = d.wr := rfl
@[simp] theorem updSq_zap (d : Ix9) (k : Nat) (g : Sq → Sq) : (updSq d k g).zap = d.zap := rfl
@[simp] theorem updSq_out (d : Ix9) (k : Nat) (g : Sq → Sq) : (updSq d k g).out = d.out := rfl
@[simp] theorem updSq_sent (d : Ix9) (k : Nat) (g : Sq → Sq) : (updSq d k g).sent = d.sent := rfl

@[simp] theorem updEntry_regs (d : Ix9) (k slot : Nat) (g : Entry → Entry) : (updEntry d k slot g).regs = d.regs := rfl
@[simp] theorem updEntry_code (d : Ix9) (k slot : Nat) (g : Entry → Entry) : (updEntry d k slot g).code = d.code := rfl
@[simp] theorem updEntry_ready (d : Ix9) (k slot : Nat) (g : Entry → Entry) : (updEntry d k slot g).ready = d.ready := rfl
@[simp] theorem updEntry_off (d : Ix9) (k slot : Nat) (g : Entry → Entry) : (updEntry d k slot g).off = d.off := rfl
@[simp] theorem updEntry_x (d : Ix9) (k slot : Nat) (g : Entry → Entry) : (updEntry d k slot g).x = d.x := rfl
@[simp] theorem updEntry_c (d : Ix9) (k slot : Nat) (g : Entry → Entry) : (updEntry d k slot g).c = d.c := rfl
@[simp] theorem updEntry_net (d : Ix9) (k slot : Nat) (g : Entry → Entry) : (updEntry d k slot g).net = d.net := rfl
@[simp] theorem updEntry_lm (d : Ix9) (k slot : Nat) (g : Entry → Entry) : (updEntry d k slot g).lm = d.lm := rfl
@[simp] theorem updEntry_funcs (d : Ix9) (k slot : Nat) (g : Entry → Entry) : (updEntry d k slot g).funcs = d.funcs := rfl
@[simp] theorem updEntry_paths (d : Ix9) (k slot : Nat) (g : Entry → Entry) : (updEntry d k slot g).paths = d.paths := rfl
@[simp] theorem updEntry_ciph (d : Ix9) (k slot : Nat) (g : Entry → Entry) : (updEntry d k slot g).ciph = d.ciph := rfl
@[simp] theorem updEntry_h (d : Ix9) (k slot : Nat) (g : Entry → Entry) : (updEntry d k slot g).h = d.h := rfl
@[simp] theorem updEntry_stride (d : Ix9) (k slot : Nat) (g : Entry → Entry) : (updEntry d k slot g).stride = d.stride := rfl
@[simp] theorem updEntry_rcv (d : Ix9) (k slot : Nat) (g : Entry → Entry) : (updEntry d k slot g).rcv = d.rcv := rfl
@[simp] theorem updEntry_pins (d : Ix9) (k slot : Nat) (g : Entry → Entry) : (updEntry d k slot g).pins = d.pins := rfl
@[simp] theorem updEntry_ppsAt (d : Ix9) (k slot : Nat) (g : Entry → Entry) : (updEntry d k slot g).ppsAt = d.ppsAt := rfl
@[simp] theorem updEntry_nvm (d : Ix9) (k slot : Nat) (g : Entry → Entry) : (updEntry d k slot g).nvm = d.nvm := rfl
@[simp] theorem updEntry_boot (d : Ix9) (k slot : Nat) (g : Entry → Entry) : (updEntry d k slot g).boot = d.boot := rfl
@[simp] theorem updEntry_pw (d : Ix9) (k slot : Nat) (g : Entry → Entry) : (updEntry d k slot g).pw = d.pw := rfl
@[simp] theorem updEntry_mon (d : Ix9) (k slot : Nat) (g : Entry → Entry) : (updEntry d k slot g).mon = d.mon := rfl
@[simp] theorem updEntry_io (d : Ix9) (k slot : Nat) (g : Entry → Entry) : (updEntry d k slot g).io = d.io := rfl
@[simp] theorem updEntry_now (d : Ix9) (k slot : Nat) (g : Entry → Entry) : (updEntry d k slot g).now = d.now := rfl
@[simp] theorem updEntry_el (d : Ix9) (k slot : Nat) (g : Entry → Entry) : (updEntry d k slot g).el = d.el := rfl
@[simp] theorem updEntry_freeCtr (d : Ix9) (k slot : Nat) (g : Entry → Entry) : (updEntry d k slot g).freeCtr = d.freeCtr := rfl
@[simp] theorem updEntry_wr (d : Ix9) (k slot : Nat) (g : Entry → Entry) : (updEntry d k slot g).wr = d.wr := rfl
@[simp] theorem updEntry_zap (d : Ix9) (k slot : Nat) (g : Entry → Entry) : (updEntry d k slot g).zap = d.zap := rfl
@[simp] theorem updEntry_out (d : Ix9) (k slot : Nat) (g : Entry → Entry) : (updEntry d k slot g).out = d.out := rfl
@[simp] theorem updEntry_sent (d : Ix9) (k slot : Nat) (g : Entry → Entry) : (updEntry d k slot g).sent = d.sent := rfl

@[simp] theorem updConn_regs (d : Ix9) (n : Nat) (g : Conn → Conn) : (updConn d n g).regs = d.regs := rfl
@[simp] theorem updConn_code (d : Ix9) (n : Nat) (g : Conn → Conn) : (updConn d n g).code = d.code := rfl
@[simp] theorem updConn_ready (d : Ix9) (n : Nat) (g : Conn → Conn) : (updConn d n g).ready = d.ready := rfl
@[simp] theorem updConn_off (d : Ix9) (n : Nat) (g : Conn → Conn) : (updConn d n g).off = d.off := rfl
@[simp] theorem updConn_q (d : Ix9) (n : Nat) (g : Conn → Conn) : (updConn d n g).q = d.q := rfl
@[simp] theorem updConn_x (d : Ix9) (n : Nat) (g : Conn → Conn) : (updConn d n g).x = d.x := rfl
@[simp] theorem updConn_net (d : Ix9) (n : Nat) (g : Conn → Conn) : (updConn d n g).net = d.net := rfl
@[simp] theorem updConn_lm (d : Ix9) (n : Nat) (g : Conn → Conn) : (updConn d n g).lm = d.lm := rfl
@[simp] theorem updConn_funcs (d : Ix9) (n : Nat) (g : Conn → Conn) : (updConn d n g).funcs = d.funcs := rfl
@[simp] theorem updConn_paths (d : Ix9) (n : Nat) (g : Conn → Conn) : (updConn d n g).paths = d.paths := rfl
@[simp] theorem updConn_ciph (d : Ix9) (n : Nat) (g : Conn → Conn) : (updConn d n g).ciph = d.ciph := rfl
@[simp] theorem updConn_h (d : Ix9) (n : Nat) (g : Conn → Conn) : (updConn d n g).h = d.h := rfl
@[simp] theorem updConn_stride (d : Ix9) (n : Nat) (g : Conn → Conn) : (updConn d n g).stride = d.stride := rfl
@[simp] theorem updConn_rcv (d : Ix9) (n : Nat) (g : Conn → Conn) : (updConn d n g).rcv = d.rcv := rfl
@[simp] theorem updConn_pins (d : Ix9) (n : Nat) (g : Conn → Conn) : (updConn d n g).pins = d.pins := rfl
@[simp] theorem updConn_ppsAt (d : Ix9) (n : Nat) (g : Conn → Conn) : (updConn d n g).ppsAt = d.ppsAt := rfl
@[simp] theorem updConn_nvm (d : Ix9) (n : Nat) (g : Conn → Conn) : (updConn d n g).nvm = d.nvm := rfl
@[simp] theorem updConn_boot (d : Ix9) (n : Nat) (g : Conn → Conn) : (updConn d n g).boot = d.boot := rfl
@[simp] theorem updConn_pw (d : Ix9) (n : Nat) (g : Conn → Conn) : (updConn d n g).pw = d.pw := rfl
@[simp] theorem updConn_mon (d : Ix9) (n : Nat) (g : Conn → Conn) : (updConn d n g).mon = d.mon := rfl
@[simp] theorem updConn_io (d : Ix9) (n : Nat) (g : Conn → Conn) : (updConn d n g).io = d.io := rfl
@[simp] theorem updConn_now (d : Ix9) (n : Nat) (g : Conn → Conn) : (updConn d n g).now = d.now := rfl
@[simp] theorem updConn_el (d : Ix9) (n : Nat) (g : Conn → Conn) : (updConn d n g).el = d.el := rfl
@[simp] theorem updConn_freeCtr (d : Ix9) (n : Nat) (g : Conn → Conn) : (updConn d n g).freeCtr = d.freeCtr := rfl
@[simp] theorem updConn_wr (d : Ix9) (n : Nat) (g : Conn → Conn) : (updConn d n g).wr = d.wr := rfl
@[simp] theorem updConn_zap (d : Ix9) (n : Nat) (g : Conn → Conn) : (updConn d n g).zap = d.zap := rfl
@[simp] theorem updConn_out (d : Ix9) (n : Nat) (g : Conn → Conn) : (updConn d n g).out = d.out := rfl
@[simp] theorem updConn_sent (d : Ix9) (n : Nat) (g : Conn → Conn) : (updConn d n g).sent = d.sent := rfl

@[simp] theorem setPlace_regs (d : Ix9) (n : Nat) (p : Place2) : (setPlace d n p).regs = d.regs := rfl
@[simp] theorem setPlace_code (d : Ix9) (n : Nat) (p : Place2) : (setPlace d n p).code = d.code := rfl
@[simp] theorem setPlace_ready (d : Ix9) (n : Nat) (p : Place2) : (setPlace d n p).ready = d.ready := rfl
@[simp] theorem setPlace_off (d : Ix9) (n : Nat) (p : Place2) : (setPlace d n p).off = d.off := rfl
@[simp] theorem setPlace_q (d : Ix9) (n : Nat) (p : Place2) : (setPlace d n p).q = d.q := rfl
@[simp] theorem setPlace_x (d : Ix9) (n : Nat) (p : Place2) : (setPlace d n p).x = d.x := rfl
@[simp] theorem setPlace_net (d : Ix9) (n : Nat) (p : Place2) : (setPlace d n p).net = d.net := rfl
@[simp] theorem setPlace_lm (d : Ix9) (n : Nat) (p : Place2) : (setPlace d n p).lm = d.lm := rfl
@[simp] theorem setPlace_funcs (d : Ix9) (n : Nat) (p : Place2) : (setPlace d n p).funcs = d.funcs := rfl
@[simp] theorem setPlace_paths (d : Ix9) (n : Nat) (p : Place2) : (setPlace d n p).paths = d.paths := rfl
@[simp] theorem setPlace_ciph (d : Ix9) (n : Nat) (p : Place2) : (setPlace d n p).ciph = d.ciph := rfl
@[simp] theorem setPlace_h (d : Ix9) (n : Nat) (p : Place2) : (setPlace d n p).h = d.h := rfl
@[simp] theorem setPlace_stride (d : Ix9) (n : Nat) (p : Place2) : (setPlace d n p).stride = d.stride := rfl
@[simp] theorem setPlace_rcv (d : Ix9) (n : Nat) (p : Place2) : (setPlace d n p).rcv = d.rcv := rfl
@[simp] theorem setPlace_pins (d : Ix9) (n : Nat) (p : Place2) : (setPlace d n p).pins = d.pins := rfl
@[simp] theorem setPlace_ppsAt (d : Ix9) (n : Nat) (p : Place2) : (setPlace d n p).ppsAt = d.ppsAt := rfl
@[simp] theorem setPlace_nvm (d : Ix9) (n : Nat) (p : Place2) : (setPlace d n p).nvm = d.nvm := rfl
@[simp] theorem setPlace_boot (d : Ix9) (n : Nat) (p : Place2) : (setPlace d n p).boot = d.boot := rfl
@[simp] theorem setPlace_pw (d : Ix9) (n : Nat) (p : Place2) : (setPlace d n p).pw = d.pw := rfl
@[simp] theorem setPlace_mon (d : Ix9) (n : Nat) (p : Place2) : (setPlace d n p).mon = d.mon := rfl
@[simp] theorem setPlace_io (d : Ix9) (n : Nat) (p : Place2) : (setPlace d n p).io = d.io := rfl
@[simp] theorem setPlace_now (d : Ix9) (n : Nat) (p : Place2) : (setPlace d n p).now = d.now := rfl
@[simp] theorem setPlace_el (d : Ix9) (n : Nat) (p : Place2) : (setPlace d n p).el = d.el := rfl
@[simp] theorem setPlace_freeCtr (d : Ix9) (n : Nat) (p : Place2) : (setPlace d n p).freeCtr = d.freeCtr := rfl
@[simp] theorem setPlace_wr (d : Ix9) (n : Nat) (p : Place2) : (setPlace d n p).wr = d.wr := rfl
@[simp] theorem setPlace_zap (d : Ix9) (n : Nat) (p : Place2) : (setPlace d n p).zap = d.zap := rfl
@[simp] theorem setPlace_out (d : Ix9) (n : Nat) (p : Place2) : (setPlace d n p).out = d.out := rfl
@[simp] theorem setPlace_sent (d : Ix9) (n : Nat) (p : Place2) : (setPlace d n p).sent = d.sent := rfl

@[simp] theorem touch_regs (d : Ix9) (n : Nat) : (touch d n).regs = d.regs := rfl
@[simp] theorem touch_code (d : Ix9) (n : Nat) : (touch d n).code = d.code := rfl
@[simp] theorem touch_ready (d : Ix9) (n : Nat) : (touch d n).ready = d.ready := rfl
@[simp] theorem touch_off (d : Ix9) (n : Nat) : (touch d n).off = d.off := rfl
@[simp] theorem touch_q (d : Ix9) (n : Nat) : (touch d n).q = d.q := rfl
@[simp] theorem touch_x (d : Ix9) (n : Nat) : (touch d n).x = d.x := rfl
@[simp] theorem touch_net (d : Ix9) (n : Nat) : (touch d n).net = d.net := rfl
@[simp] theorem touch_lm (d : Ix9) (n : Nat) : (touch d n).lm = d.lm := rfl
@[simp] theorem touch_funcs (d : Ix9) (n : Nat) : (touch d n).funcs = d.funcs := rfl
@[simp] theorem touch_paths (d : Ix9) (n : Nat) : (touch d n).paths = d.paths := rfl
@[simp] theorem touch_ciph (d : Ix9) (n : Nat) : (touch d n).ciph = d.ciph := rfl
@[simp] theorem touch_h (d : Ix9) (n : Nat) : (touch d n).h = d.h := rfl
@[simp] theorem touch_stride (d : Ix9) (n : Nat) : (touch d n).stride = d.stride := rfl
@[simp] theorem touch_rcv (d : Ix9) (n : Nat) : (touch d n).rcv = d.rcv := rfl
@[simp] theorem touch_pins (d : Ix9) (n : Nat) : (touch d n).pins = d.pins := rfl
@[simp] theorem touch_ppsAt (d : Ix9) (n : Nat) : (touch d n).ppsAt = d.ppsAt := rfl
@[simp] theorem touch_nvm (d : Ix9) (n : Nat) : (touch d n).nvm = d.nvm := rfl
@[simp] theorem touch_boot (d : Ix9) (n : Nat) : (touch d n).boot = d.boot := rfl
@[simp] theorem touch_pw (d : Ix9) (n : Nat) : (touch d n).pw = d.pw := rfl
@[simp] theorem touch_mon (d : Ix9) (n : Nat) : (touch d n).mon = d.mon := rfl
@[simp] theorem touch_io (d : Ix9) (n : Nat) : (touch d n).io = d.io := rfl
@[simp] theorem touch_now (d : Ix9) (n : Nat) : (touch d n).now = d.now := rfl
@[simp] theorem touch_el (d : Ix9) (n : Nat) : (touch d n).el = d.el := rfl
@[simp] theorem touch_freeCtr (d : Ix9) (n : Nat) : (touch d n).freeCtr = d.freeCtr := rfl
@[simp] theorem touch_wr (d : Ix9) (n : Nat) : (touch d n).wr = d.wr := rfl
@[simp] theorem touch_zap (d : Ix9) (n : Nat) : (touch d n).zap = d.zap := rfl
@[simp] theorem touch_out (d : Ix9) (n : Nat) : (touch d n).out = d.out := rfl
@[simp] theorem touch_sent (d : Ix9) (n : Nat) : (touch d n).sent = d.sent := rfl

@[simp] theorem updPort_regs (d : Ix9) (p : Nat) (g : Port → Port) : (updPort d p g).regs = d.regs := rfl
@[simp] theorem updPort_code (d : Ix9) (p : Nat) (g : Port → Port) : (updPort d p g).code = d.code := rfl
@[simp] theorem updPort_ready (d : Ix9) (p : Nat) (g : Port → Port) : (updPort d p g).ready = d.ready := rfl
@[simp] theorem updPort_off (d : Ix9) (p : Nat) (g : Port → Port) : (updPort d p g).off = d.off := rfl
@[simp] theorem updPort_q (d : Ix9) (p : Nat) (g : Port → Port) : (updPort d p g).q = d.q := rfl
@[simp] theorem updPort_x (d : Ix9) (p : Nat) (g : Port → Port) : (updPort d p g).x = d.x := rfl
@[simp] theorem updPort_c (d : Ix9) (p : Nat) (g : Port → Port) : (updPort d p g).c = d.c := rfl
@[simp] theorem updPort_lm (d : Ix9) (p : Nat) (g : Port → Port) : (updPort d p g).lm = d.lm := rfl
@[simp] theorem updPort_funcs (d : Ix9) (p : Nat) (g : Port → Port) : (updPort d p g).funcs = d.funcs := rfl
@[simp] theorem updPort_paths (d : Ix9) (p : Nat) (g : Port → Port) : (updPort d p g).paths = d.paths := rfl
@[simp] theorem updPort_ciph (d : Ix9) (p : Nat) (g : Port → Port) : (updPort d p g).ciph = d.ciph := rfl
@[simp] theorem updPort_h (d : Ix9) (p : Nat) (g : Port → Port) : (updPort d p g).h = d.h := rfl
@[simp] theorem updPort_stride (d : Ix9) (p : Nat) (g : Port → Port) : (updPort d p g).stride = d.stride := rfl
@[simp] theorem updPort_rcv (d : Ix9) (p : Nat) (g : Port → Port) : (updPort d p g).rcv = d.rcv := rfl
@[simp] theorem updPort_pins (d : Ix9) (p : Nat) (g : Port → Port) : (updPort d p g).pins = d.pins := rfl
@[simp] theorem updPort_ppsAt (d : Ix9) (p : Nat) (g : Port → Port) : (updPort d p g).ppsAt = d.ppsAt := rfl
@[simp] theorem updPort_nvm (d : Ix9) (p : Nat) (g : Port → Port) : (updPort d p g).nvm = d.nvm := rfl
@[simp] theorem updPort_boot (d : Ix9) (p : Nat) (g : Port → Port) : (updPort d p g).boot = d.boot := rfl
@[simp] theorem updPort_pw (d : Ix9) (p : Nat) (g : Port → Port) : (updPort d p g).pw = d.pw := rfl
@[simp] theorem updPort_mon (d : Ix9) (p : Nat) (g : Port → Port) : (updPort d p g).mon = d.mon := rfl
@[simp] theorem updPort_io (d : Ix9) (p : Nat) (g : Port → Port) : (updPort d p g).io = d.io := rfl
@[simp] theorem updPort_now (d : Ix9) (p : Nat) (g : Port → Port) : (updPort d p g).now = d.now := rfl
@[simp] theorem updPort_el (d : Ix9) (p : Nat) (g : Port → Port) : (updPort d p g).el = d.el := rfl
@[simp] theorem updPort_freeCtr (d : Ix9) (p : Nat) (g : Port → Port) : (updPort d p g).freeCtr = d.freeCtr := rfl
@[simp] theorem updPort_wr (d : Ix9) (p : Nat) (g : Port → Port) : (updPort d p g).wr = d.wr := rfl
@[simp] theorem updPort_zap (d : Ix9) (p : Nat) (g : Port → Port) : (updPort d p g).zap = d.zap := rfl
@[simp] theorem updPort_out (d : Ix9) (p : Nat) (g : Port → Port) : (updPort d p g).out = d.out := rfl
@[simp] theorem updPort_sent (d : Ix9) (p : Nat) (g : Port → Port) : (updPort d p g).sent = d.sent := rfl

@[simp] theorem setState_regs (d : Ix9) (n st : Nat) : (setState d n st).regs = d.regs := rfl
@[simp] theorem setState_code (d : Ix9) (n st : Nat) : (setState d n st).code = d.code := rfl
@[simp] theorem setState_ready (d : Ix9) (n st : Nat) : (setState d n st).ready = d.ready := rfl
@[simp] theorem setState_off (d : Ix9) (n st : Nat) : (setState d n st).off = d.off := rfl
@[simp] theorem setState_q (d : Ix9) (n st : Nat) : (setState d n st).q = d.q := rfl
@[simp] theorem setState_x (d : Ix9) (n st : Nat) : (setState d n st).x = d.x := rfl
@[simp] theorem setState_net (d : Ix9) (n st : Nat) : (setState d n st).net = d.net := rfl
@[simp] theorem setState_lm (d : Ix9) (n st : Nat) : (setState d n st).lm = d.lm := rfl
@[simp] theorem setState_funcs (d : Ix9) (n st : Nat) : (setState d n st).funcs = d.funcs := rfl
@[simp] theorem setState_paths (d : Ix9) (n st : Nat) : (setState d n st).paths = d.paths := rfl
@[simp] theorem setState_ciph (d : Ix9) (n st : Nat) : (setState d n st).ciph = d.ciph := rfl
@[simp] theorem setState_h (d : Ix9) (n st : Nat) : (setState d n st).h = d.h := rfl
@[simp] theorem setState_stride (d : Ix9) (n st : Nat) : (setState d n st).stride = d.stride := rfl
@[simp] theorem setState_rcv (d : Ix9) (n st : Nat) : (setState d n st).rcv = d.rcv := rfl
@[simp] theorem setState_pins (d : Ix9) (n st : Nat) : (setState d n st).pins = d.pins := rfl
@[simp] theorem setState_ppsAt (d : Ix9) (n st : Nat) : (setState d n st).ppsAt = d.ppsAt := rfl
@[simp] theorem setState_nvm (d : Ix9) (n st : Nat) : (setState d n st).nvm = d.nvm := rfl
@[simp] theorem setState_boot (d : Ix9) (n st : Nat) : (setState d n st).boot = d.boot := rfl
@[simp] theorem setState_pw (d : Ix9) (n st : Nat) : (setState d n st).pw = d.pw := rfl
@[simp] theorem setState_mon (d : Ix9) (n st : Nat) : (setState d n st).mon = d.mon := rfl
@[simp] theorem setState_io (d : Ix9) (n st : Nat) : (setState d n st).io = d.io := rfl
@[simp] theorem setState_now (d : Ix9) (n st : Nat) : (setState d n st).now = d.now := rfl
@[simp] theorem setState_el (d : Ix9) (n st : Nat) : (setState d n st).el = d.el := rfl
@[simp] theorem setState_freeCtr (d : Ix9) (n st : Nat) : (setState d n st).freeCtr = d.freeCtr := rfl
@[simp] theorem setState_wr (d : Ix9) (n st : Nat) : (setState d n st).wr = d.wr := rfl
@[simp] theorem setState_zap (d : Ix9) (n st : Nat) : (setState d n st).zap = d.zap := rfl
@[simp] theorem setState_out (d : Ix9) (n st : Nat) : (setState d n st).out = d.out := rfl
@[simp] theorem setState_sent (d : Ix9) (n st : Nat) : (setState d n st).sent = d.sent := rfl

@[simp] theorem updGate_regs (d : Ix9) (p : Nat) (g : Gate → Gate) : (updGate d p g).regs = d.regs := rfl
@[simp] theorem updGate_code (d : Ix9) (p : Nat) (g : Gate → Gate) : (updGate d p g).code = d.code := rfl
@[simp] theorem updGate_ready (d : Ix9) (p : Nat) (g : Gate → Gate) : (updGate d p g).ready = d.ready := rfl
@[simp] theorem updGate_off (d : Ix9) (p : Nat) (g : Gate → Gate) : (updGate d p g).off = d.off := rfl
@[simp] theorem updGate_q (d : Ix9) (p : Nat) (g : Gate → Gate) : (updGate d p g).q = d.q := rfl
@[simp] theorem updGate_x (d : Ix9) (p : Nat) (g : Gate → Gate) : (updGate d p g).x = d.x := rfl
@[simp] theorem updGate_c (d : Ix9) (p : Nat) (g : Gate → Gate) : (updGate d p g).c = d.c := rfl
@[simp] theorem updGate_lm (d : Ix9) (p : Nat) (g : Gate → Gate) : (updGate d p g).lm = d.lm := rfl
@[simp] theorem updGate_funcs (d : Ix9) (p : Nat) (g : Gate → Gate) : (updGate d p g).funcs = d.funcs := rfl
@[simp] theorem updGate_paths (d : Ix9) (p : Nat) (g : Gate → Gate) : (updGate d p g).paths = d.paths := rfl
@[simp] theorem updGate_ciph (d : Ix9) (p : Nat) (g : Gate → Gate) : (updGate d p g).ciph = d.ciph := rfl
@[simp] theorem updGate_h (d : Ix9) (p : Nat) (g : Gate → Gate) : (updGate d p g).h = d.h := rfl
@[simp] theorem updGate_stride (d : Ix9) (p : Nat) (g : Gate → Gate) : (updGate d p g).stride = d.stride := rfl
@[simp] theorem updGate_rcv (d : Ix9) (p : Nat) (g : Gate → Gate) : (updGate d p g).rcv = d.rcv := rfl
@[simp] theorem updGate_pins (d : Ix9) (p : Nat) (g : Gate → Gate) : (updGate d p g).pins = d.pins := rfl
@[simp] theorem updGate_ppsAt (d : Ix9) (p : Nat) (g : Gate → Gate) : (updGate d p g).ppsAt = d.ppsAt := rfl
@[simp] theorem updGate_nvm (d : Ix9) (p : Nat) (g : Gate → Gate) : (updGate d p g).nvm = d.nvm := rfl
@[simp] theorem updGate_boot (d : Ix9) (p : Nat) (g : Gate → Gate) : (updGate d p g).boot = d.boot := rfl
@[simp] theorem updGate_pw (d : Ix9) (p : Nat) (g : Gate → Gate) : (updGate d p g).pw = d.pw := rfl
@[simp] theorem updGate_mon (d : Ix9) (p : Nat) (g : Gate → Gate) : (updGate d p g).mon = d.mon := rfl
@[simp] theorem updGate_io (d : Ix9) (p : Nat) (g : Gate → Gate) : (updGate d p g).io = d.io := rfl
@[simp] theorem updGate_now (d : Ix9) (p : Nat) (g : Gate → Gate) : (updGate d p g).now = d.now := rfl
@[simp] theorem updGate_el (d : Ix9) (p : Nat) (g : Gate → Gate) : (updGate d p g).el = d.el := rfl
@[simp] theorem updGate_freeCtr (d : Ix9) (p : Nat) (g : Gate → Gate) : (updGate d p g).freeCtr = d.freeCtr := rfl
@[simp] theorem updGate_wr (d : Ix9) (p : Nat) (g : Gate → Gate) : (updGate d p g).wr = d.wr := rfl
@[simp] theorem updGate_zap (d : Ix9) (p : Nat) (g : Gate → Gate) : (updGate d p g).zap = d.zap := rfl
@[simp] theorem updGate_out (d : Ix9) (p : Nat) (g : Gate → Gate) : (updGate d p g).out = d.out := rfl
@[simp] theorem updGate_sent (d : Ix9) (p : Nat) (g : Gate → Gate) : (updGate d p g).sent = d.sent := rfl

@[simp] theorem updLink_regs (d : Ix9) (p : Nat) (g : Link → Link) : (updLink d p g).regs = d.regs := rfl
@[simp] theorem updLink_code (d : Ix9) (p : Nat) (g : Link → Link) : (updLink d p g).code = d.code := rfl
@[simp] theorem updLink_ready (d : Ix9) (p : Nat) (g : Link → Link) : (updLink d p g).ready = d.ready := rfl
@[simp] theorem updLink_off (d : Ix9) (p : Nat) (g : Link → Link) : (updLink d p g).off = d.off := rfl
@[simp] theorem updLink_q (d : Ix9) (p : Nat) (g : Link → Link) : (updLink d p g).q = d.q := rfl
@[simp] theorem updLink_x (d : Ix9) (p : Nat) (g : Link → Link) : (updLink d p g).x = d.x := rfl
@[simp] theorem updLink_c (d : Ix9) (p : Nat) (g : Link → Link) : (updLink d p g).c = d.c := rfl
@[simp] theorem updLink_lm (d : Ix9) (p : Nat) (g : Link → Link) : (updLink d p g).lm = d.lm := rfl
@[simp] theorem updLink_funcs (d : Ix9) (p : Nat) (g : Link → Link) : (updLink d p g).funcs = d.funcs := rfl
@[simp] theorem updLink_paths (d : Ix9) (p : Nat) (g : Link → Link) : (updLink d p g).paths = d.paths := rfl
@[simp] theorem updLink_ciph (d : Ix9) (p : Nat) (g : Link → Link) : (updLink d p g).ciph = d.ciph := rfl
@[simp] theorem updLink_h (d : Ix9) (p : Nat) (g : Link → Link) : (updLink d p g).h = d.h := rfl
@[simp] theorem updLink_stride (d : Ix9) (p : Nat) (g : Link → Link) : (updLink d p g).stride = d.stride := rfl
@[simp] theorem updLink_rcv (d : Ix9) (p : Nat) (g : Link → Link) : (updLink d p g).rcv = d.rcv := rfl
@[simp] theorem updLink_pins (d : Ix9) (p : Nat) (g : Link → Link) : (updLink d p g).pins = d.pins := rfl
@[simp] theorem updLink_ppsAt (d : Ix9) (p : Nat) (g : Link → Link) : (updLink d p g).ppsAt = d.ppsAt := rfl
@[simp] theorem updLink_nvm (d : Ix9) (p : Nat) (g : Link → Link) : (updLink d p g).nvm = d.nvm := rfl
@[simp] theorem updLink_boot (d : Ix9) (p : Nat) (g : Link → Link) : (updLink d p g).boot = d.boot := rfl
@[simp] theorem updLink_pw (d : Ix9) (p : Nat) (g : Link → Link) : (updLink d p g).pw = d.pw := rfl
@[simp] theorem updLink_mon (d : Ix9) (p : Nat) (g : Link → Link) : (updLink d p g).mon = d.mon := rfl
@[simp] theorem updLink_io (d : Ix9) (p : Nat) (g : Link → Link) : (updLink d p g).io = d.io := rfl
@[simp] theorem updLink_now (d : Ix9) (p : Nat) (g : Link → Link) : (updLink d p g).now = d.now := rfl
@[simp] theorem updLink_el (d : Ix9) (p : Nat) (g : Link → Link) : (updLink d p g).el = d.el := rfl
@[simp] theorem updLink_freeCtr (d : Ix9) (p : Nat) (g : Link → Link) : (updLink d p g).freeCtr = d.freeCtr := rfl
@[simp] theorem updLink_wr (d : Ix9) (p : Nat) (g : Link → Link) : (updLink d p g).wr = d.wr := rfl
@[simp] theorem updLink_zap (d : Ix9) (p : Nat) (g : Link → Link) : (updLink d p g).zap = d.zap := rfl
@[simp] theorem updLink_out (d : Ix9) (p : Nat) (g : Link → Link) : (updLink d p g).out = d.out := rfl
@[simp] theorem updLink_sent (d : Ix9) (p : Nat) (g : Link → Link) : (updLink d p g).sent = d.sent := rfl

@[simp] theorem updSpare_regs (d : Ix9) (k : Nat) (g : Spare → Spare) : (updSpare d k g).regs = d.regs := rfl
@[simp] theorem updSpare_code (d : Ix9) (k : Nat) (g : Spare → Spare) : (updSpare d k g).code = d.code := rfl
@[simp] theorem updSpare_ready (d : Ix9) (k : Nat) (g : Spare → Spare) : (updSpare d k g).ready = d.ready := rfl
@[simp] theorem updSpare_off (d : Ix9) (k : Nat) (g : Spare → Spare) : (updSpare d k g).off = d.off := rfl
@[simp] theorem updSpare_q (d : Ix9) (k : Nat) (g : Spare → Spare) : (updSpare d k g).q = d.q := rfl
@[simp] theorem updSpare_x (d : Ix9) (k : Nat) (g : Spare → Spare) : (updSpare d k g).x = d.x := rfl
@[simp] theorem updSpare_c (d : Ix9) (k : Nat) (g : Spare → Spare) : (updSpare d k g).c = d.c := rfl
@[simp] theorem updSpare_lm (d : Ix9) (k : Nat) (g : Spare → Spare) : (updSpare d k g).lm = d.lm := rfl
@[simp] theorem updSpare_funcs (d : Ix9) (k : Nat) (g : Spare → Spare) : (updSpare d k g).funcs = d.funcs := rfl
@[simp] theorem updSpare_paths (d : Ix9) (k : Nat) (g : Spare → Spare) : (updSpare d k g).paths = d.paths := rfl
@[simp] theorem updSpare_ciph (d : Ix9) (k : Nat) (g : Spare → Spare) : (updSpare d k g).ciph = d.ciph := rfl
@[simp] theorem updSpare_h (d : Ix9) (k : Nat) (g : Spare → Spare) : (updSpare d k g).h = d.h := rfl
@[simp] theorem updSpare_stride (d : Ix9) (k : Nat) (g : Spare → Spare) : (updSpare d k g).stride = d.stride := rfl
@[simp] theorem updSpare_rcv (d : Ix9) (k : Nat) (g : Spare → Spare) : (updSpare d k g).rcv = d.rcv := rfl
@[simp] theorem updSpare_pins (d : Ix9) (k : Nat) (g : Spare → Spare) : (updSpare d k g).pins = d.pins := rfl
@[simp] theorem updSpare_ppsAt (d : Ix9) (k : Nat) (g : Spare → Spare) : (updSpare d k g).ppsAt = d.ppsAt := rfl
@[simp] theorem updSpare_nvm (d : Ix9) (k : Nat) (g : Spare → Spare) : (updSpare d k g).nvm = d.nvm := rfl
@[simp] theorem updSpare_boot (d : Ix9) (k : Nat) (g : Spare → Spare) : (updSpare d k g).boot = d.boot := rfl
@[simp] theorem updSpare_pw (d : Ix9) (k : Nat) (g : Spare → Spare) : (updSpare d k g).pw = d.pw := rfl
@[simp] theorem updSpare_mon (d : Ix9) (k : Nat) (g : Spare → Spare) : (updSpare d k g).mon = d.mon := rfl
@[simp] theorem updSpare_io (d : Ix9) (k : Nat) (g : Spare → Spare) : (updSpare d k g).io = d.io := rfl
@[simp] theorem updSpare_now (d : Ix9) (k : Nat) (g : Spare → Spare) : (updSpare d k g).now = d.now := rfl
@[simp] theorem updSpare_el (d : Ix9) (k : Nat) (g : Spare → Spare) : (updSpare d k g).el = d.el := rfl
@[simp] theorem updSpare_freeCtr (d : Ix9) (k : Nat) (g : Spare → Spare) : (updSpare d k g).freeCtr = d.freeCtr := rfl
@[simp] theorem updSpare_wr (d : Ix9) (k : Nat) (g : Spare → Spare) : (updSpare d k g).wr = d.wr := rfl
@[simp] theorem updSpare_zap (d : Ix9) (k : Nat) (g : Spare → Spare) : (updSpare d k g).zap = d.zap := rfl
@[simp] theorem updSpare_out (d : Ix9) (k : Nat) (g : Spare → Spare) : (updSpare d k g).out = d.out := rfl
@[simp] theorem updSpare_sent (d : Ix9) (k : Nat) (g : Spare → Spare) : (updSpare d k g).sent = d.sent := rfl

@[simp] theorem updHeat_regs (d : Ix9) (key : Nat) (g : Heat → Heat) : (updHeat d key g).regs = d.regs := rfl
@[simp] theorem updHeat_code (d : Ix9) (key : Nat) (g : Heat → Heat) : (updHeat d key g).code = d.code := rfl
@[simp] theorem updHeat_ready (d : Ix9) (key : Nat) (g : Heat → Heat) : (updHeat d key g).ready = d.ready := rfl
@[simp] theorem updHeat_off (d : Ix9) (key : Nat) (g : Heat → Heat) : (updHeat d key g).off = d.off := rfl
@[simp] theorem updHeat_q (d : Ix9) (key : Nat) (g : Heat → Heat) : (updHeat d key g).q = d.q := rfl
@[simp] theorem updHeat_x (d : Ix9) (key : Nat) (g : Heat → Heat) : (updHeat d key g).x = d.x := rfl
@[simp] theorem updHeat_c (d : Ix9) (key : Nat) (g : Heat → Heat) : (updHeat d key g).c = d.c := rfl
@[simp] theorem updHeat_net (d : Ix9) (key : Nat) (g : Heat → Heat) : (updHeat d key g).net = d.net := rfl
@[simp] theorem updHeat_lm (d : Ix9) (key : Nat) (g : Heat → Heat) : (updHeat d key g).lm = d.lm := rfl
@[simp] theorem updHeat_funcs (d : Ix9) (key : Nat) (g : Heat → Heat) : (updHeat d key g).funcs = d.funcs := rfl
@[simp] theorem updHeat_paths (d : Ix9) (key : Nat) (g : Heat → Heat) : (updHeat d key g).paths = d.paths := rfl
@[simp] theorem updHeat_ciph (d : Ix9) (key : Nat) (g : Heat → Heat) : (updHeat d key g).ciph = d.ciph := rfl
@[simp] theorem updHeat_stride (d : Ix9) (key : Nat) (g : Heat → Heat) : (updHeat d key g).stride = d.stride := rfl
@[simp] theorem updHeat_rcv (d : Ix9) (key : Nat) (g : Heat → Heat) : (updHeat d key g).rcv = d.rcv := rfl
@[simp] theorem updHeat_pins (d : Ix9) (key : Nat) (g : Heat → Heat) : (updHeat d key g).pins = d.pins := rfl
@[simp] theorem updHeat_ppsAt (d : Ix9) (key : Nat) (g : Heat → Heat) : (updHeat d key g).ppsAt = d.ppsAt := rfl
@[simp] theorem updHeat_nvm (d : Ix9) (key : Nat) (g : Heat → Heat) : (updHeat d key g).nvm = d.nvm := rfl
@[simp] theorem updHeat_boot (d : Ix9) (key : Nat) (g : Heat → Heat) : (updHeat d key g).boot = d.boot := rfl
@[simp] theorem updHeat_pw (d : Ix9) (key : Nat) (g : Heat → Heat) : (updHeat d key g).pw = d.pw := rfl
@[simp] theorem updHeat_mon (d : Ix9) (key : Nat) (g : Heat → Heat) : (updHeat d key g).mon = d.mon := rfl
@[simp] theorem updHeat_io (d : Ix9) (key : Nat) (g : Heat → Heat) : (updHeat d key g).io = d.io := rfl
@[simp] theorem updHeat_now (d : Ix9) (key : Nat) (g : Heat → Heat) : (updHeat d key g).now = d.now := rfl
@[simp] theorem updHeat_el (d : Ix9) (key : Nat) (g : Heat → Heat) : (updHeat d key g).el = d.el := rfl
@[simp] theorem updHeat_freeCtr (d : Ix9) (key : Nat) (g : Heat → Heat) : (updHeat d key g).freeCtr = d.freeCtr := rfl
@[simp] theorem updHeat_wr (d : Ix9) (key : Nat) (g : Heat → Heat) : (updHeat d key g).wr = d.wr := rfl
@[simp] theorem updHeat_zap (d : Ix9) (key : Nat) (g : Heat → Heat) : (updHeat d key g).zap = d.zap := rfl
@[simp] theorem updHeat_out (d : Ix9) (key : Nat) (g : Heat → Heat) : (updHeat d key g).out = d.out := rfl
@[simp] theorem updHeat_sent (d : Ix9) (key : Nat) (g : Heat → Heat) : (updHeat d key g).sent = d.sent := rfl

@[simp] theorem updGroup_regs (d : Ix9) (k : Nat) (g : Group → Group) : (updGroup d k g).regs = d.regs := rfl
@[simp] theorem updGroup_code (d : Ix9) (k : Nat) (g : Group → Group) : (updGroup d k g).code = d.code := rfl
@[simp] theorem updGroup_ready (d : Ix9) (k : Nat) (g : Group → Group) : (updGroup d k g).ready = d.ready := rfl
@[simp] theorem updGroup_off (d : Ix9) (k : Nat) (g : Group → Group) : (updGroup d k g).off = d.off := rfl
@[simp] theorem updGroup_q (d : Ix9) (k : Nat) (g : Group → Group) : (updGroup d k g).q = d.q := rfl
@[simp] theorem updGroup_x (d : Ix9) (k : Nat) (g : Group → Group) : (updGroup d k g).x = d.x := rfl
@[simp] theorem updGroup_c (d : Ix9) (k : Nat) (g : Group → Group) : (updGroup d k g).c = d.c := rfl
@[simp] theorem updGroup_net (d : Ix9) (k : Nat) (g : Group → Group) : (updGroup d k g).net = d.net := rfl
@[simp] theorem updGroup_lm (d : Ix9) (k : Nat) (g : Group → Group) : (updGroup d k g).lm = d.lm := rfl
@[simp] theorem updGroup_funcs (d : Ix9) (k : Nat) (g : Group → Group) : (updGroup d k g).funcs = d.funcs := rfl
@[simp] theorem updGroup_paths (d : Ix9) (k : Nat) (g : Group → Group) : (updGroup d k g).paths = d.paths := rfl
@[simp] theorem updGroup_ciph (d : Ix9) (k : Nat) (g : Group → Group) : (updGroup d k g).ciph = d.ciph := rfl
@[simp] theorem updGroup_stride (d : Ix9) (k : Nat) (g : Group → Group) : (updGroup d k g).stride = d.stride := rfl
@[simp] theorem updGroup_rcv (d : Ix9) (k : Nat) (g : Group → Group) : (updGroup d k g).rcv = d.rcv := rfl
@[simp] theorem updGroup_pins (d : Ix9) (k : Nat) (g : Group → Group) : (updGroup d k g).pins = d.pins := rfl
@[simp] theorem updGroup_ppsAt (d : Ix9) (k : Nat) (g : Group → Group) : (updGroup d k g).ppsAt = d.ppsAt := rfl
@[simp] theorem updGroup_nvm (d : Ix9) (k : Nat) (g : Group → Group) : (updGroup d k g).nvm = d.nvm := rfl
@[simp] theorem updGroup_boot (d : Ix9) (k : Nat) (g : Group → Group) : (updGroup d k g).boot = d.boot := rfl
@[simp] theorem updGroup_pw (d : Ix9) (k : Nat) (g : Group → Group) : (updGroup d k g).pw = d.pw := rfl
@[simp] theorem updGroup_mon (d : Ix9) (k : Nat) (g : Group → Group) : (updGroup d k g).mon = d.mon := rfl
@[simp] theorem updGroup_io (d : Ix9) (k : Nat) (g : Group → Group) : (updGroup d k g).io = d.io := rfl
@[simp] theorem updGroup_now (d : Ix9) (k : Nat) (g : Group → Group) : (updGroup d k g).now = d.now := rfl
@[simp] theorem updGroup_el (d : Ix9) (k : Nat) (g : Group → Group) : (updGroup d k g).el = d.el := rfl
@[simp] theorem updGroup_freeCtr (d : Ix9) (k : Nat) (g : Group → Group) : (updGroup d k g).freeCtr = d.freeCtr := rfl
@[simp] theorem updGroup_wr (d : Ix9) (k : Nat) (g : Group → Group) : (updGroup d k g).wr = d.wr := rfl
@[simp] theorem updGroup_zap (d : Ix9) (k : Nat) (g : Group → Group) : (updGroup d k g).zap = d.zap := rfl
@[simp] theorem updGroup_out (d : Ix9) (k : Nat) (g : Group → Group) : (updGroup d k g).out = d.out := rfl
@[simp] theorem updGroup_sent (d : Ix9) (k : Nat) (g : Group → Group) : (updGroup d k g).sent = d.sent := rfl

@[simp] theorem updInv_regs (d : Ix9) (id : Nat) (g : Inv → Inv) : (updInv d id g).regs = d.regs := rfl
@[simp] theorem updInv_code (d : Ix9) (id : Nat) (g : Inv → Inv) : (updInv d id g).code = d.code := rfl
@[simp] theorem updInv_ready (d : Ix9) (id : Nat) (g : Inv → Inv) : (updInv d id g).ready = d.ready := rfl
@[simp] theorem updInv_off (d : Ix9) (id : Nat) (g : Inv → Inv) : (updInv d id g).off = d.off := rfl
@[simp] theorem updInv_q (d : Ix9) (id : Nat) (g : Inv → Inv) : (updInv d id g).q = d.q := rfl
@[simp] theorem updInv_c (d : Ix9) (id : Nat) (g : Inv → Inv) : (updInv d id g).c = d.c := rfl
@[simp] theorem updInv_net (d : Ix9) (id : Nat) (g : Inv → Inv) : (updInv d id g).net = d.net := rfl
@[simp] theorem updInv_lm (d : Ix9) (id : Nat) (g : Inv → Inv) : (updInv d id g).lm = d.lm := rfl
@[simp] theorem updInv_funcs (d : Ix9) (id : Nat) (g : Inv → Inv) : (updInv d id g).funcs = d.funcs := rfl
@[simp] theorem updInv_paths (d : Ix9) (id : Nat) (g : Inv → Inv) : (updInv d id g).paths = d.paths := rfl
@[simp] theorem updInv_ciph (d : Ix9) (id : Nat) (g : Inv → Inv) : (updInv d id g).ciph = d.ciph := rfl
@[simp] theorem updInv_h (d : Ix9) (id : Nat) (g : Inv → Inv) : (updInv d id g).h = d.h := rfl
@[simp] theorem updInv_stride (d : Ix9) (id : Nat) (g : Inv → Inv) : (updInv d id g).stride = d.stride := rfl
@[simp] theorem updInv_rcv (d : Ix9) (id : Nat) (g : Inv → Inv) : (updInv d id g).rcv = d.rcv := rfl
@[simp] theorem updInv_pins (d : Ix9) (id : Nat) (g : Inv → Inv) : (updInv d id g).pins = d.pins := rfl
@[simp] theorem updInv_ppsAt (d : Ix9) (id : Nat) (g : Inv → Inv) : (updInv d id g).ppsAt = d.ppsAt := rfl
@[simp] theorem updInv_nvm (d : Ix9) (id : Nat) (g : Inv → Inv) : (updInv d id g).nvm = d.nvm := rfl
@[simp] theorem updInv_boot (d : Ix9) (id : Nat) (g : Inv → Inv) : (updInv d id g).boot = d.boot := rfl
@[simp] theorem updInv_pw (d : Ix9) (id : Nat) (g : Inv → Inv) : (updInv d id g).pw = d.pw := rfl
@[simp] theorem updInv_mon (d : Ix9) (id : Nat) (g : Inv → Inv) : (updInv d id g).mon = d.mon := rfl
@[simp] theorem updInv_io (d : Ix9) (id : Nat) (g : Inv → Inv) : (updInv d id g).io = d.io := rfl
@[simp] theorem updInv_now (d : Ix9) (id : Nat) (g : Inv → Inv) : (updInv d id g).now = d.now := rfl
@[simp] theorem updInv_el (d : Ix9) (id : Nat) (g : Inv → Inv) : (updInv d id g).el = d.el := rfl
@[simp] theorem updInv_freeCtr (d : Ix9) (id : Nat) (g : Inv → Inv) : (updInv d id g).freeCtr = d.freeCtr := rfl
@[simp] theorem updInv_wr (d : Ix9) (id : Nat) (g : Inv → Inv) : (updInv d id g).wr = d.wr := rfl
@[simp] theorem updInv_zap (d : Ix9) (id : Nat) (g : Inv → Inv) : (updInv d id g).zap = d.zap := rfl
@[simp] theorem updInv_out (d : Ix9) (id : Nat) (g : Inv → Inv) : (updInv d id g).out = d.out := rfl
@[simp] theorem updInv_sent (d : Ix9) (id : Nat) (g : Inv → Inv) : (updInv d id g).sent = d.sent := rfl

@[simp] theorem updCtx_regs (d : Ix9) (asid : Nat) (g : Ctx → Ctx) : (updCtx d asid g).regs = d.regs := rfl
@[simp] theorem updCtx_code (d : Ix9) (asid : Nat) (g : Ctx → Ctx) : (updCtx d asid g).code = d.code := rfl
@[simp] theorem updCtx_ready (d : Ix9) (asid : Nat) (g : Ctx → Ctx) : (updCtx d asid g).ready = d.ready := rfl
@[simp] theorem updCtx_off (d : Ix9) (asid : Nat) (g : Ctx → Ctx) : (updCtx d asid g).off = d.off := rfl
@[simp] theorem updCtx_q (d : Ix9) (asid : Nat) (g : Ctx → Ctx) : (updCtx d asid g).q = d.q := rfl
@[simp] theorem updCtx_c (d : Ix9) (asid : Nat) (g : Ctx → Ctx) : (updCtx d asid g).c = d.c := rfl
@[simp] theorem updCtx_net (d : Ix9) (asid : Nat) (g : Ctx → Ctx) : (updCtx d asid g).net = d.net := rfl
@[simp] theorem updCtx_lm (d : Ix9) (asid : Nat) (g : Ctx → Ctx) : (updCtx d asid g).lm = d.lm := rfl
@[simp] theorem updCtx_funcs (d : Ix9) (asid : Nat) (g : Ctx → Ctx) : (updCtx d asid g).funcs = d.funcs := rfl
@[simp] theorem updCtx_paths (d : Ix9) (asid : Nat) (g : Ctx → Ctx) : (updCtx d asid g).paths = d.paths := rfl
@[simp] theorem updCtx_ciph (d : Ix9) (asid : Nat) (g : Ctx → Ctx) : (updCtx d asid g).ciph = d.ciph := rfl
@[simp] theorem updCtx_h (d : Ix9) (asid : Nat) (g : Ctx → Ctx) : (updCtx d asid g).h = d.h := rfl
@[simp] theorem updCtx_stride (d : Ix9) (asid : Nat) (g : Ctx → Ctx) : (updCtx d asid g).stride = d.stride := rfl
@[simp] theorem updCtx_rcv (d : Ix9) (asid : Nat) (g : Ctx → Ctx) : (updCtx d asid g).rcv = d.rcv := rfl
@[simp] theorem updCtx_pins (d : Ix9) (asid : Nat) (g : Ctx → Ctx) : (updCtx d asid g).pins = d.pins := rfl
@[simp] theorem updCtx_ppsAt (d : Ix9) (asid : Nat) (g : Ctx → Ctx) : (updCtx d asid g).ppsAt = d.ppsAt := rfl
@[simp] theorem updCtx_nvm (d : Ix9) (asid : Nat) (g : Ctx → Ctx) : (updCtx d asid g).nvm = d.nvm := rfl
@[simp] theorem updCtx_boot (d : Ix9) (asid : Nat) (g : Ctx → Ctx) : (updCtx d asid g).boot = d.boot := rfl
@[simp] theorem updCtx_pw (d : Ix9) (asid : Nat) (g : Ctx → Ctx) : (updCtx d asid g).pw = d.pw := rfl
@[simp] theorem updCtx_mon (d : Ix9) (asid : Nat) (g : Ctx → Ctx) : (updCtx d asid g).mon = d.mon := rfl
@[simp] theorem updCtx_io (d : Ix9) (asid : Nat) (g : Ctx → Ctx) : (updCtx d asid g).io = d.io := rfl
@[simp] theorem updCtx_now (d : Ix9) (asid : Nat) (g : Ctx → Ctx) : (updCtx d asid g).now = d.now := rfl
@[simp] theorem updCtx_el (d : Ix9) (asid : Nat) (g : Ctx → Ctx) : (updCtx d asid g).el = d.el := rfl
@[simp] theorem updCtx_freeCtr (d : Ix9) (asid : Nat) (g : Ctx → Ctx) : (updCtx d asid g).freeCtr = d.freeCtr := rfl
@[simp] theorem updCtx_wr (d : Ix9) (asid : Nat) (g : Ctx → Ctx) : (updCtx d asid g).wr = d.wr := rfl
@[simp] theorem updCtx_zap (d : Ix9) (asid : Nat) (g : Ctx → Ctx) : (updCtx d asid g).zap = d.zap := rfl
@[simp] theorem updCtx_out (d : Ix9) (asid : Nat) (g : Ctx → Ctx) : (updCtx d asid g).out = d.out := rfl
@[simp] theorem updCtx_sent (d : Ix9) (asid : Nat) (g : Ctx → Ctx) : (updCtx d asid g).sent = d.sent := rfl

@[simp] theorem updCiph_regs (d : Ix9) (g : Cipher → Cipher) : (updCiph d g).regs = d.regs := rfl
@[simp] theorem updCiph_code (d : Ix9) (g : Cipher → Cipher) : (updCiph d g).code = d.code := rfl
@[simp] theorem updCiph_ready (d : Ix9) (g : Cipher → Cipher) : (updCiph d g).ready = d.ready := rfl
@[simp] theorem updCiph_off (d : Ix9) (g : Cipher → Cipher) : (updCiph d g).off = d.off := rfl
@[simp] theorem updCiph_q (d : Ix9) (g : Cipher → Cipher) : (updCiph d g).q = d.q := rfl
@[simp] theorem updCiph_x (d : Ix9) (g : Cipher → Cipher) : (updCiph d g).x = d.x := rfl
@[simp] theorem updCiph_c (d : Ix9) (g : Cipher → Cipher) : (updCiph d g).c = d.c := rfl
@[simp] theorem updCiph_net (d : Ix9) (g : Cipher → Cipher) : (updCiph d g).net = d.net := rfl
@[simp] theorem updCiph_lm (d : Ix9) (g : Cipher → Cipher) : (updCiph d g).lm = d.lm := rfl
@[simp] theorem updCiph_funcs (d : Ix9) (g : Cipher → Cipher) : (updCiph d g).funcs = d.funcs := rfl
@[simp] theorem updCiph_paths (d : Ix9) (g : Cipher → Cipher) : (updCiph d g).paths = d.paths := rfl
@[simp] theorem updCiph_h (d : Ix9) (g : Cipher → Cipher) : (updCiph d g).h = d.h := rfl
@[simp] theorem updCiph_stride (d : Ix9) (g : Cipher → Cipher) : (updCiph d g).stride = d.stride := rfl
@[simp] theorem updCiph_rcv (d : Ix9) (g : Cipher → Cipher) : (updCiph d g).rcv = d.rcv := rfl
@[simp] theorem updCiph_pins (d : Ix9) (g : Cipher → Cipher) : (updCiph d g).pins = d.pins := rfl
@[simp] theorem updCiph_ppsAt (d : Ix9) (g : Cipher → Cipher) : (updCiph d g).ppsAt = d.ppsAt := rfl
@[simp] theorem updCiph_nvm (d : Ix9) (g : Cipher → Cipher) : (updCiph d g).nvm = d.nvm := rfl
@[simp] theorem updCiph_boot (d : Ix9) (g : Cipher → Cipher) : (updCiph d g).boot = d.boot := rfl
@[simp] theorem updCiph_pw (d : Ix9) (g : Cipher → Cipher) : (updCiph d g).pw = d.pw := rfl
@[simp] theorem updCiph_mon (d : Ix9) (g : Cipher → Cipher) : (updCiph d g).mon = d.mon := rfl
@[simp] theorem updCiph_io (d : Ix9) (g : Cipher → Cipher) : (updCiph d g).io = d.io := rfl
@[simp] theorem updCiph_now (d : Ix9) (g : Cipher → Cipher) : (updCiph d g).now = d.now := rfl
@[simp] theorem updCiph_el (d : Ix9) (g : Cipher → Cipher) : (updCiph d g).el = d.el := rfl
@[simp] theorem updCiph_freeCtr (d : Ix9) (g : Cipher → Cipher) : (updCiph d g).freeCtr = d.freeCtr := rfl
@[simp] theorem updCiph_wr (d : Ix9) (g : Cipher → Cipher) : (updCiph d g).wr = d.wr := rfl
@[simp] theorem updCiph_zap (d : Ix9) (g : Cipher → Cipher) : (updCiph d g).zap = d.zap := rfl
@[simp] theorem updCiph_out (d : Ix9) (g : Cipher → Cipher) : (updCiph d g).out = d.out := rfl
@[simp] theorem updCiph_sent (d : Ix9) (g : Cipher → Cipher) : (updCiph d g).sent = d.sent := rfl

@[simp] theorem updLm_regs (d : Ix9) (g : Lm → Lm) : (updLm d g).regs = d.regs := rfl
@[simp] theorem updLm_code (d : Ix9) (g : Lm → Lm) : (updLm d g).code = d.code := rfl
@[simp] theorem updLm_ready (d : Ix9) (g : Lm → Lm) : (updLm d g).ready = d.ready := rfl
@[simp] theorem updLm_off (d : Ix9) (g : Lm → Lm) : (updLm d g).off = d.off := rfl
@[simp] theorem updLm_q (d : Ix9) (g : Lm → Lm) : (updLm d g).q = d.q := rfl
@[simp] theorem updLm_x (d : Ix9) (g : Lm → Lm) : (updLm d g).x = d.x := rfl
@[simp] theorem updLm_c (d : Ix9) (g : Lm → Lm) : (updLm d g).c = d.c := rfl
@[simp] theorem updLm_net (d : Ix9) (g : Lm → Lm) : (updLm d g).net = d.net := rfl
@[simp] theorem updLm_funcs (d : Ix9) (g : Lm → Lm) : (updLm d g).funcs = d.funcs := rfl
@[simp] theorem updLm_paths (d : Ix9) (g : Lm → Lm) : (updLm d g).paths = d.paths := rfl
@[simp] theorem updLm_ciph (d : Ix9) (g : Lm → Lm) : (updLm d g).ciph = d.ciph := rfl
@[simp] theorem updLm_h (d : Ix9) (g : Lm → Lm) : (updLm d g).h = d.h := rfl
@[simp] theorem updLm_stride (d : Ix9) (g : Lm → Lm) : (updLm d g).stride = d.stride := rfl
@[simp] theorem updLm_rcv (d : Ix9) (g : Lm → Lm) : (updLm d g).rcv = d.rcv := rfl
@[simp] theorem updLm_pins (d : Ix9) (g : Lm → Lm) : (updLm d g).pins = d.pins := rfl
@[simp] theorem updLm_ppsAt (d : Ix9) (g : Lm → Lm) : (updLm d g).ppsAt = d.ppsAt := rfl
@[simp] theorem updLm_nvm (d : Ix9) (g : Lm → Lm) : (updLm d g).nvm = d.nvm := rfl
@[simp] theorem updLm_boot (d : Ix9) (g : Lm → Lm) : (updLm d g).boot = d.boot := rfl
@[simp] theorem updLm_pw (d : Ix9) (g : Lm → Lm) : (updLm d g).pw = d.pw := rfl
@[simp] theorem updLm_mon (d : Ix9) (g : Lm → Lm) : (updLm d g).mon = d.mon := rfl
@[simp] theorem updLm_io (d : Ix9) (g : Lm → Lm) : (updLm d g).io = d.io := rfl
@[simp] theorem updLm_now (d : Ix9) (g : Lm → Lm) : (updLm d g).now = d.now := rfl
@[simp] theorem updLm_el (d : Ix9) (g : Lm → Lm) : (updLm d g).el = d.el := rfl
@[simp] theorem updLm_freeCtr (d : Ix9) (g : Lm → Lm) : (updLm d g).freeCtr = d.freeCtr := rfl
@[simp] theorem updLm_wr (d : Ix9) (g : Lm → Lm) : (updLm d g).wr = d.wr := rfl
@[simp] theorem updLm_zap (d : Ix9) (g : Lm → Lm) : (updLm d g).zap = d.zap := rfl
@[simp] theorem updLm_out (d : Ix9) (g : Lm → Lm) : (updLm d g).out = d.out := rfl
@[simp] theorem updLm_sent (d : Ix9) (g : Lm → Lm) : (updLm d g).sent = d.sent := rfl

@[simp] theorem updChan_regs (d : Ix9) (c : Nat) (g : Chan → Chan) : (updChan d c g).regs = d.regs := rfl
@[simp] theorem updChan_code (d : Ix9) (c : Nat) (g : Chan → Chan) : (updChan d c g).code = d.code := rfl
@[simp] theorem updChan_ready (d : Ix9) (c : Nat) (g : Chan → Chan) : (updChan d c g).ready = d.ready := rfl
@[simp] theorem updChan_off (d : Ix9) (c : Nat) (g : Chan → Chan) : (updChan d c g).off = d.off := rfl
@[simp] theorem updChan_q (d : Ix9) (c : Nat) (g : Chan → Chan) : (updChan d c g).q = d.q := rfl
@[simp] theorem updChan_x (d : Ix9) (c : Nat) (g : Chan → Chan) : (updChan d c g).x = d.x := rfl
@[simp] theorem updChan_c (d : Ix9) (c : Nat) (g : Chan → Chan) : (updChan d c g).c = d.c := rfl
@[simp] theorem updChan_net (d : Ix9) (c : Nat) (g : Chan → Chan) : (updChan d c g).net = d.net := rfl
@[simp] theorem updChan_lm (d : Ix9) (c : Nat) (g : Chan → Chan) : (updChan d c g).lm = d.lm := rfl
@[simp] theorem updChan_funcs (d : Ix9) (c : Nat) (g : Chan → Chan) : (updChan d c g).funcs = d.funcs := rfl
@[simp] theorem updChan_paths (d : Ix9) (c : Nat) (g : Chan → Chan) : (updChan d c g).paths = d.paths := rfl
@[simp] theorem updChan_ciph (d : Ix9) (c : Nat) (g : Chan → Chan) : (updChan d c g).ciph = d.ciph := rfl
@[simp] theorem updChan_h (d : Ix9) (c : Nat) (g : Chan → Chan) : (updChan d c g).h = d.h := rfl
@[simp] theorem updChan_rcv (d : Ix9) (c : Nat) (g : Chan → Chan) : (updChan d c g).rcv = d.rcv := rfl
@[simp] theorem updChan_pins (d : Ix9) (c : Nat) (g : Chan → Chan) : (updChan d c g).pins = d.pins := rfl
@[simp] theorem updChan_ppsAt (d : Ix9) (c : Nat) (g : Chan → Chan) : (updChan d c g).ppsAt = d.ppsAt := rfl
@[simp] theorem updChan_nvm (d : Ix9) (c : Nat) (g : Chan → Chan) : (updChan d c g).nvm = d.nvm := rfl
@[simp] theorem updChan_boot (d : Ix9) (c : Nat) (g : Chan → Chan) : (updChan d c g).boot = d.boot := rfl
@[simp] theorem updChan_pw (d : Ix9) (c : Nat) (g : Chan → Chan) : (updChan d c g).pw = d.pw := rfl
@[simp] theorem updChan_mon (d : Ix9) (c : Nat) (g : Chan → Chan) : (updChan d c g).mon = d.mon := rfl
@[simp] theorem updChan_io (d : Ix9) (c : Nat) (g : Chan → Chan) : (updChan d c g).io = d.io := rfl
@[simp] theorem updChan_now (d : Ix9) (c : Nat) (g : Chan → Chan) : (updChan d c g).now = d.now := rfl
@[simp] theorem updChan_el (d : Ix9) (c : Nat) (g : Chan → Chan) : (updChan d c g).el = d.el := rfl
@[simp] theorem updChan_freeCtr (d : Ix9) (c : Nat) (g : Chan → Chan) : (updChan d c g).freeCtr = d.freeCtr := rfl
@[simp] theorem updChan_wr (d : Ix9) (c : Nat) (g : Chan → Chan) : (updChan d c g).wr = d.wr := rfl
@[simp] theorem updChan_zap (d : Ix9) (c : Nat) (g : Chan → Chan) : (updChan d c g).zap = d.zap := rfl
@[simp] theorem updChan_out (d : Ix9) (c : Nat) (g : Chan → Chan) : (updChan d c g).out = d.out := rfl
@[simp] theorem updChan_sent (d : Ix9) (c : Nat) (g : Chan → Chan) : (updChan d c g).sent = d.sent := rfl

@[simp] theorem setChan_code (d : Ix9) (c st : Nat) : (setChan d c st).code = d.code := rfl
@[simp] theorem setChan_ready (d : Ix9) (c st : Nat) : (setChan d c st).ready = d.ready := rfl
@[simp] theorem setChan_off (d : Ix9) (c st : Nat) : (setChan d c st).off = d.off := rfl
@[simp] theorem setChan_q (d : Ix9) (c st : Nat) : (setChan d c st).q = d.q := rfl
@[simp] theorem setChan_x (d : Ix9) (c st : Nat) : (setChan d c st).x = d.x := rfl
@[simp] theorem setChan_c (d : Ix9) (c st : Nat) : (setChan d c st).c = d.c := rfl
@[simp] theorem setChan_net (d : Ix9) (c st : Nat) : (setChan d c st).net = d.net := rfl
@[simp] theorem setChan_lm (d : Ix9) (c st : Nat) : (setChan d c st).lm = d.lm := rfl
@[simp] theorem setChan_funcs (d : Ix9) (c st : Nat) : (setChan d c st).funcs = d.funcs := rfl
@[simp] theorem setChan_paths (d : Ix9) (c st : Nat) : (setChan d c st).paths = d.paths := rfl
@[simp] theorem setChan_ciph (d : Ix9) (c st : Nat) : (setChan d c st).ciph = d.ciph := rfl
@[simp] theorem setChan_h (d : Ix9) (c st : Nat) : (setChan d c st).h = d.h := rfl
@[simp] theorem setChan_stride (d : Ix9) (c st : Nat) : (setChan d c st).stride = d.stride := rfl
@[simp] theorem setChan_rcv (d : Ix9) (c st : Nat) : (setChan d c st).rcv = d.rcv := rfl
@[simp] theorem setChan_pins (d : Ix9) (c st : Nat) : (setChan d c st).pins = d.pins := rfl
@[simp] theorem setChan_ppsAt (d : Ix9) (c st : Nat) : (setChan d c st).ppsAt = d.ppsAt := rfl
@[simp] theorem setChan_nvm (d : Ix9) (c st : Nat) : (setChan d c st).nvm = d.nvm := rfl
@[simp] theorem setChan_boot (d : Ix9) (c st : Nat) : (setChan d c st).boot = d.boot := rfl
@[simp] theorem setChan_pw (d : Ix9) (c st : Nat) : (setChan d c st).pw = d.pw := rfl
@[simp] theorem setChan_mon (d : Ix9) (c st : Nat) : (setChan d c st).mon = d.mon := rfl
@[simp] theorem setChan_io (d : Ix9) (c st : Nat) : (setChan d c st).io = d.io := rfl
@[simp] theorem setChan_now (d : Ix9) (c st : Nat) : (setChan d c st).now = d.now := rfl
@[simp] theorem setChan_el (d : Ix9) (c st : Nat) : (setChan d c st).el = d.el := rfl
@[simp] theorem setChan_freeCtr (d : Ix9) (c st : Nat) : (setChan d c st).freeCtr = d.freeCtr := rfl
@[simp] theorem setChan_wr (d : Ix9) (c st : Nat) : (setChan d c st).wr = d.wr := rfl
@[simp] theorem setChan_zap (d : Ix9) (c st : Nat) : (setChan d c st).zap = d.zap := rfl
@[simp] theorem setChan_out (d : Ix9) (c st : Nat) : (setChan d c st).out = d.out := rfl
@[simp] theorem setChan_sent (d : Ix9) (c st : Nat) : (setChan d c st).sent = d.sent := rfl

@[simp] theorem askReset_regs (d : Ix9) (x : Due) : (askReset d x).regs = d.regs := rfl
@[simp] theorem askReset_code (d : Ix9) (x : Due) : (askReset d x).code = d.code := rfl
@[simp] theorem askReset_ready (d : Ix9) (x : Due) : (askReset d x).ready = d.ready := rfl
@[simp] theorem askReset_off (d : Ix9) (x : Due) : (askReset d x).off = d.off := rfl
@[simp] theorem askReset_q (d : Ix9) (x : Due) : (askReset d x).q = d.q := rfl
@[simp] theorem askReset_x (d : Ix9) (x : Due) : (askReset d x).x = d.x := rfl
@[simp] theorem askReset_c (d : Ix9) (x : Due) : (askReset d x).c = d.c := rfl
@[simp] theorem askReset_net (d : Ix9) (x : Due) : (askReset d x).net = d.net := rfl
@[simp] theorem askReset_lm (d : Ix9) (x : Due) : (askReset d x).lm = d.lm := rfl
@[simp] theorem askReset_funcs (d : Ix9) (x : Due) : (askReset d x).funcs = d.funcs := rfl
@[simp] theorem askReset_paths (d : Ix9) (x : Due) : (askReset d x).paths = d.paths := rfl
@[simp] theorem askReset_ciph (d : Ix9) (x : Due) : (askReset d x).ciph = d.ciph := rfl
@[simp] theorem askReset_h (d : Ix9) (x : Due) : (askReset d x).h = d.h := rfl
@[simp] theorem askReset_stride (d : Ix9) (x : Due) : (askReset d x).stride = d.stride := rfl
@[simp] theorem askReset_pins (d : Ix9) (x : Due) : (askReset d x).pins = d.pins := rfl
@[simp] theorem askReset_ppsAt (d : Ix9) (x : Due) : (askReset d x).ppsAt = d.ppsAt := rfl
@[simp] theorem askReset_nvm (d : Ix9) (x : Due) : (askReset d x).nvm = d.nvm := rfl
@[simp] theorem askReset_boot (d : Ix9) (x : Due) : (askReset d x).boot = d.boot := rfl
@[simp] theorem askReset_pw (d : Ix9) (x : Due) : (askReset d x).pw = d.pw := rfl
@[simp] theorem askReset_mon (d : Ix9) (x : Due) : (askReset d x).mon = d.mon := rfl
@[simp] theorem askReset_io (d : Ix9) (x : Due) : (askReset d x).io = d.io := rfl
@[simp] theorem askReset_now (d : Ix9) (x : Due) : (askReset d x).now = d.now := rfl
@[simp] theorem askReset_el (d : Ix9) (x : Due) : (askReset d x).el = d.el := rfl
@[simp] theorem askReset_freeCtr (d : Ix9) (x : Due) : (askReset d x).freeCtr = d.freeCtr := rfl
@[simp] theorem askReset_wr (d : Ix9) (x : Due) : (askReset d x).wr = d.wr := rfl
@[simp] theorem askReset_zap (d : Ix9) (x : Due) : (askReset d x).zap = d.zap := rfl
@[simp] theorem askReset_out (d : Ix9) (x : Due) : (askReset d x).out = d.out := rfl
@[simp] theorem askReset_sent (d : Ix9) (x : Due) : (askReset d x).sent = d.sent := rfl

@[simp] theorem updPre_regs (d : Ix9) (p : Nat) (g : Preempt → Preempt) : (updPre d p g).regs = d.regs := rfl
@[simp] theorem updPre_code (d : Ix9) (p : Nat) (g : Preempt → Preempt) : (updPre d p g).code = d.code := rfl
@[simp] theorem updPre_ready (d : Ix9) (p : Nat) (g : Preempt → Preempt) : (updPre d p g).ready = d.ready := rfl
@[simp] theorem updPre_off (d : Ix9) (p : Nat) (g : Preempt → Preempt) : (updPre d p g).off = d.off := rfl
@[simp] theorem updPre_q (d : Ix9) (p : Nat) (g : Preempt → Preempt) : (updPre d p g).q = d.q := rfl
@[simp] theorem updPre_x (d : Ix9) (p : Nat) (g : Preempt → Preempt) : (updPre d p g).x = d.x := rfl
@[simp] theorem updPre_c (d : Ix9) (p : Nat) (g : Preempt → Preempt) : (updPre d p g).c = d.c := rfl
@[simp] theorem updPre_lm (d : Ix9) (p : Nat) (g : Preempt → Preempt) : (updPre d p g).lm = d.lm := rfl
@[simp] theorem updPre_funcs (d : Ix9) (p : Nat) (g : Preempt → Preempt) : (updPre d p g).funcs = d.funcs := rfl
@[simp] theorem updPre_paths (d : Ix9) (p : Nat) (g : Preempt → Preempt) : (updPre d p g).paths = d.paths := rfl
@[simp] theorem updPre_ciph (d : Ix9) (p : Nat) (g : Preempt → Preempt) : (updPre d p g).ciph = d.ciph := rfl
@[simp] theorem updPre_h (d : Ix9) (p : Nat) (g : Preempt → Preempt) : (updPre d p g).h = d.h := rfl
@[simp] theorem updPre_stride (d : Ix9) (p : Nat) (g : Preempt → Preempt) : (updPre d p g).stride = d.stride := rfl
@[simp] theorem updPre_rcv (d : Ix9) (p : Nat) (g : Preempt → Preempt) : (updPre d p g).rcv = d.rcv := rfl
@[simp] theorem updPre_pins (d : Ix9) (p : Nat) (g : Preempt → Preempt) : (updPre d p g).pins = d.pins := rfl
@[simp] theorem updPre_ppsAt (d : Ix9) (p : Nat) (g : Preempt → Preempt) : (updPre d p g).ppsAt = d.ppsAt := rfl
@[simp] theorem updPre_nvm (d : Ix9) (p : Nat) (g : Preempt → Preempt) : (updPre d p g).nvm = d.nvm := rfl
@[simp] theorem updPre_boot (d : Ix9) (p : Nat) (g : Preempt → Preempt) : (updPre d p g).boot = d.boot := rfl
@[simp] theorem updPre_pw (d : Ix9) (p : Nat) (g : Preempt → Preempt) : (updPre d p g).pw = d.pw := rfl
@[simp] theorem updPre_mon (d : Ix9) (p : Nat) (g : Preempt → Preempt) : (updPre d p g).mon = d.mon := rfl
@[simp] theorem updPre_io (d : Ix9) (p : Nat) (g : Preempt → Preempt) : (updPre d p g).io = d.io := rfl
@[simp] theorem updPre_now (d : Ix9) (p : Nat) (g : Preempt → Preempt) : (updPre d p g).now = d.now := rfl
@[simp] theorem updPre_el (d : Ix9) (p : Nat) (g : Preempt → Preempt) : (updPre d p g).el = d.el := rfl
@[simp] theorem updPre_freeCtr (d : Ix9) (p : Nat) (g : Preempt → Preempt) : (updPre d p g).freeCtr = d.freeCtr := rfl
@[simp] theorem updPre_wr (d : Ix9) (p : Nat) (g : Preempt → Preempt) : (updPre d p g).wr = d.wr := rfl
@[simp] theorem updPre_zap (d : Ix9) (p : Nat) (g : Preempt → Preempt) : (updPre d p g).zap = d.zap := rfl
@[simp] theorem updPre_out (d : Ix9) (p : Nat) (g : Preempt → Preempt) : (updPre d p g).out = d.out := rfl
@[simp] theorem updPre_sent (d : Ix9) (p : Nat) (g : Preempt → Preempt) : (updPre d p g).sent = d.sent := rfl

@[simp] theorem updRun_regs (d : Ix9) (c k : Nat) (g : DescRun → DescRun) : (updRun d c k g).regs = d.regs := rfl
@[simp] theorem updRun_code (d : Ix9) (c k : Nat) (g : DescRun → DescRun) : (updRun d c k g).code = d.code := rfl
@[simp] theorem updRun_ready (d : Ix9) (c k : Nat) (g : DescRun → DescRun) : (updRun d c k g).ready = d.ready := rfl
@[simp] theorem updRun_off (d : Ix9) (c k : Nat) (g : DescRun → DescRun) : (updRun d c k g).off = d.off := rfl
@[simp] theorem updRun_q (d : Ix9) (c k : Nat) (g : DescRun → DescRun) : (updRun d c k g).q = d.q := rfl
@[simp] theorem updRun_x (d : Ix9) (c k : Nat) (g : DescRun → DescRun) : (updRun d c k g).x = d.x := rfl
@[simp] theorem updRun_c (d : Ix9) (c k : Nat) (g : DescRun → DescRun) : (updRun d c k g).c = d.c := rfl
@[simp] theorem updRun_net (d : Ix9) (c k : Nat) (g : DescRun → DescRun) : (updRun d c k g).net = d.net := rfl
@[simp] theorem updRun_lm (d : Ix9) (c k : Nat) (g : DescRun → DescRun) : (updRun d c k g).lm = d.lm := rfl
@[simp] theorem updRun_funcs (d : Ix9) (c k : Nat) (g : DescRun → DescRun) : (updRun d c k g).funcs = d.funcs := rfl
@[simp] theorem updRun_paths (d : Ix9) (c k : Nat) (g : DescRun → DescRun) : (updRun d c k g).paths = d.paths := rfl
@[simp] theorem updRun_ciph (d : Ix9) (c k : Nat) (g : DescRun → DescRun) : (updRun d c k g).ciph = d.ciph := rfl
@[simp] theorem updRun_h (d : Ix9) (c k : Nat) (g : DescRun → DescRun) : (updRun d c k g).h = d.h := rfl
@[simp] theorem updRun_rcv (d : Ix9) (c k : Nat) (g : DescRun → DescRun) : (updRun d c k g).rcv = d.rcv := rfl
@[simp] theorem updRun_pins (d : Ix9) (c k : Nat) (g : DescRun → DescRun) : (updRun d c k g).pins = d.pins := rfl
@[simp] theorem updRun_ppsAt (d : Ix9) (c k : Nat) (g : DescRun → DescRun) : (updRun d c k g).ppsAt = d.ppsAt := rfl
@[simp] theorem updRun_nvm (d : Ix9) (c k : Nat) (g : DescRun → DescRun) : (updRun d c k g).nvm = d.nvm := rfl
@[simp] theorem updRun_boot (d : Ix9) (c k : Nat) (g : DescRun → DescRun) : (updRun d c k g).boot = d.boot := rfl
@[simp] theorem updRun_pw (d : Ix9) (c k : Nat) (g : DescRun → DescRun) : (updRun d c k g).pw = d.pw := rfl
@[simp] theorem updRun_mon (d : Ix9) (c k : Nat) (g : DescRun → DescRun) : (updRun d c k g).mon = d.mon := rfl
@[simp] theorem updRun_io (d : Ix9) (c k : Nat) (g : DescRun → DescRun) : (updRun d c k g).io = d.io := rfl
@[simp] theorem updRun_now (d : Ix9) (c k : Nat) (g : DescRun → DescRun) : (updRun d c k g).now = d.now := rfl
@[simp] theorem updRun_el (d : Ix9) (c k : Nat) (g : DescRun → DescRun) : (updRun d c k g).el = d.el := rfl
@[simp] theorem updRun_freeCtr (d : Ix9) (c k : Nat) (g : DescRun → DescRun) : (updRun d c k g).freeCtr = d.freeCtr := rfl
@[simp] theorem updRun_wr (d : Ix9) (c k : Nat) (g : DescRun → DescRun) : (updRun d c k g).wr = d.wr := rfl
@[simp] theorem updRun_zap (d : Ix9) (c k : Nat) (g : DescRun → DescRun) : (updRun d c k g).zap = d.zap := rfl
@[simp] theorem updRun_out (d : Ix9) (c k : Nat) (g : DescRun → DescRun) : (updRun d c k g).out = d.out := rfl
@[simp] theorem updRun_sent (d : Ix9) (c k : Nat) (g : DescRun → DescRun) : (updRun d c k g).sent = d.sent := rfl

@[simp] theorem setEvac_regs (d : Ix9) (v : Option Evac) : (setEvac d v).regs = d.regs := rfl
@[simp] theorem setEvac_code (d : Ix9) (v : Option Evac) : (setEvac d v).code = d.code := rfl
@[simp] theorem setEvac_ready (d : Ix9) (v : Option Evac) : (setEvac d v).ready = d.ready := rfl
@[simp] theorem setEvac_off (d : Ix9) (v : Option Evac) : (setEvac d v).off = d.off := rfl
@[simp] theorem setEvac_q (d : Ix9) (v : Option Evac) : (setEvac d v).q = d.q := rfl
@[simp] theorem setEvac_x (d : Ix9) (v : Option Evac) : (setEvac d v).x = d.x := rfl
@[simp] theorem setEvac_c (d : Ix9) (v : Option Evac) : (setEvac d v).c = d.c := rfl
@[simp] theorem setEvac_net (d : Ix9) (v : Option Evac) : (setEvac d v).net = d.net := rfl
@[simp] theorem setEvac_lm (d : Ix9) (v : Option Evac) : (setEvac d v).lm = d.lm := rfl
@[simp] theorem setEvac_funcs (d : Ix9) (v : Option Evac) : (setEvac d v).funcs = d.funcs := rfl
@[simp] theorem setEvac_paths (d : Ix9) (v : Option Evac) : (setEvac d v).paths = d.paths := rfl
@[simp] theorem setEvac_ciph (d : Ix9) (v : Option Evac) : (setEvac d v).ciph = d.ciph := rfl
@[simp] theorem setEvac_h (d : Ix9) (v : Option Evac) : (setEvac d v).h = d.h := rfl
@[simp] theorem setEvac_stride (d : Ix9) (v : Option Evac) : (setEvac d v).stride = d.stride := rfl
@[simp] theorem setEvac_pins (d : Ix9) (v : Option Evac) : (setEvac d v).pins = d.pins := rfl
@[simp] theorem setEvac_ppsAt (d : Ix9) (v : Option Evac) : (setEvac d v).ppsAt = d.ppsAt := rfl
@[simp] theorem setEvac_nvm (d : Ix9) (v : Option Evac) : (setEvac d v).nvm = d.nvm := rfl
@[simp] theorem setEvac_boot (d : Ix9) (v : Option Evac) : (setEvac d v).boot = d.boot := rfl
@[simp] theorem setEvac_pw (d : Ix9) (v : Option Evac) : (setEvac d v).pw = d.pw := rfl
@[simp] theorem setEvac_mon (d : Ix9) (v : Option Evac) : (setEvac d v).mon = d.mon := rfl
@[simp] theorem setEvac_io (d : Ix9) (v : Option Evac) : (setEvac d v).io = d.io := rfl
@[simp] theorem setEvac_now (d : Ix9) (v : Option Evac) : (setEvac d v).now = d.now := rfl
@[simp] theorem setEvac_el (d : Ix9) (v : Option Evac) : (setEvac d v).el = d.el := rfl
@[simp] theorem setEvac_freeCtr (d : Ix9) (v : Option Evac) : (setEvac d v).freeCtr = d.freeCtr := rfl
@[simp] theorem setEvac_wr (d : Ix9) (v : Option Evac) : (setEvac d v).wr = d.wr := rfl
@[simp] theorem setEvac_zap (d : Ix9) (v : Option Evac) : (setEvac d v).zap = d.zap := rfl
@[simp] theorem setEvac_out (d : Ix9) (v : Option Evac) : (setEvac d v).out = d.out := rfl
@[simp] theorem setEvac_sent (d : Ix9) (v : Option Evac) : (setEvac d v).sent = d.sent := rfl

@[simp] theorem draw_regs (d : Ix9) : (draw d).2.regs = d.regs := rfl
@[simp] theorem draw_code (d : Ix9) : (draw d).2.code = d.code := rfl
@[simp] theorem draw_ready (d : Ix9) : (draw d).2.ready = d.ready := rfl
@[simp] theorem draw_off (d : Ix9) : (draw d).2.off = d.off := rfl
@[simp] theorem draw_q (d : Ix9) : (draw d).2.q = d.q := rfl
@[simp] theorem draw_x (d : Ix9) : (draw d).2.x = d.x := rfl
@[simp] theorem draw_c (d : Ix9) : (draw d).2.c = d.c := rfl
@[simp] theorem draw_net (d : Ix9) : (draw d).2.net = d.net := rfl
@[simp] theorem draw_lm (d : Ix9) : (draw d).2.lm = d.lm := rfl
@[simp] theorem draw_funcs (d : Ix9) : (draw d).2.funcs = d.funcs := rfl
@[simp] theorem draw_paths (d : Ix9) : (draw d).2.paths = d.paths := rfl
@[simp] theorem draw_ciph (d : Ix9) : (draw d).2.ciph = d.ciph := rfl
@[simp] theorem draw_h (d : Ix9) : (draw d).2.h = d.h := rfl
@[simp] theorem draw_stride (d : Ix9) : (draw d).2.stride = d.stride := rfl
@[simp] theorem draw_rcv (d : Ix9) : (draw d).2.rcv = d.rcv := rfl
@[simp] theorem draw_pins (d : Ix9) : (draw d).2.pins = d.pins := rfl
@[simp] theorem draw_ppsAt (d : Ix9) : (draw d).2.ppsAt = d.ppsAt := rfl
@[simp] theorem draw_nvm (d : Ix9) : (draw d).2.nvm = d.nvm := rfl
@[simp] theorem draw_boot (d : Ix9) : (draw d).2.boot = d.boot := rfl
@[simp] theorem draw_pw (d : Ix9) : (draw d).2.pw = d.pw := rfl
@[simp] theorem draw_mon (d : Ix9) : (draw d).2.mon = d.mon := rfl
@[simp] theorem draw_io (d : Ix9) : (draw d).2.io = d.io := rfl
@[simp] theorem draw_now (d : Ix9) : (draw d).2.now = d.now := rfl
@[simp] theorem draw_el (d : Ix9) : (draw d).2.el = d.el := rfl
@[simp] theorem draw_wr (d : Ix9) : (draw d).2.wr = d.wr := rfl
@[simp] theorem draw_zap (d : Ix9) : (draw d).2.zap = d.zap := rfl
@[simp] theorem draw_out (d : Ix9) : (draw d).2.out = d.out := rfl
@[simp] theorem draw_sent (d : Ix9) : (draw d).2.sent = d.sent := rfl
@[simp] theorem draw_freeCtr (d : Ix9) : (draw d).2.freeCtr = d.freeCtr + 1 := rfl
@[simp] theorem draw_value (d : Ix9) : (draw d).1 = Config.freeNat d.freeCtr := rfl

@[simp] theorem count_code (d : Ix9) (f : Fld) (i n : Nat) : (count d f i n).code = d.code := by unfold count; split <;> rfl
@[simp] theorem count_ready (d : Ix9) (f : Fld) (i n : Nat) : (count d f i n).ready = d.ready := by unfold count; split <;> rfl
@[simp] theorem count_off (d : Ix9) (f : Fld) (i n : Nat) : (count d f i n).off = d.off := by unfold count; split <;> rfl
@[simp] theorem count_q (d : Ix9) (f : Fld) (i n : Nat) : (count d f i n).q = d.q := by unfold count; split <;> rfl
@[simp] theorem count_x (d : Ix9) (f : Fld) (i n : Nat) : (count d f i n).x = d.x := by unfold count; split <;> rfl
@[simp] theorem count_c (d : Ix9) (f : Fld) (i n : Nat) : (count d f i n).c = d.c := by unfold count; split <;> rfl
@[simp] theorem count_net (d : Ix9) (f : Fld) (i n : Nat) : (count d f i n).net = d.net := by unfold count; split <;> rfl
@[simp] theorem count_lm (d : Ix9) (f : Fld) (i n : Nat) : (count d f i n).lm = d.lm := by unfold count; split <;> rfl
@[simp] theorem count_funcs (d : Ix9) (f : Fld) (i n : Nat) : (count d f i n).funcs = d.funcs := by unfold count; split <;> rfl
@[simp] theorem count_paths (d : Ix9) (f : Fld) (i n : Nat) : (count d f i n).paths = d.paths := by unfold count; split <;> rfl
@[simp] theorem count_ciph (d : Ix9) (f : Fld) (i n : Nat) : (count d f i n).ciph = d.ciph := by unfold count; split <;> rfl
@[simp] theorem count_h (d : Ix9) (f : Fld) (i n : Nat) : (count d f i n).h = d.h := by unfold count; split <;> rfl
@[simp] theorem count_stride (d : Ix9) (f : Fld) (i n : Nat) : (count d f i n).stride = d.stride := by unfold count; split <;> rfl
@[simp] theorem count_rcv (d : Ix9) (f : Fld) (i n : Nat) : (count d f i n).rcv = d.rcv := by unfold count; split <;> rfl
@[simp] theorem count_pins (d : Ix9) (f : Fld) (i n : Nat) : (count d f i n).pins = d.pins := by unfold count; split <;> rfl
@[simp] theorem count_ppsAt (d : Ix9) (f : Fld) (i n : Nat) : (count d f i n).ppsAt = d.ppsAt := by unfold count; split <;> rfl
@[simp] theorem count_nvm (d : Ix9) (f : Fld) (i n : Nat) : (count d f i n).nvm = d.nvm := by unfold count; split <;> rfl
@[simp] theorem count_boot (d : Ix9) (f : Fld) (i n : Nat) : (count d f i n).boot = d.boot := by unfold count; split <;> rfl
@[simp] theorem count_pw (d : Ix9) (f : Fld) (i n : Nat) : (count d f i n).pw = d.pw := by unfold count; split <;> rfl
@[simp] theorem count_mon (d : Ix9) (f : Fld) (i n : Nat) : (count d f i n).mon = d.mon := by unfold count; split <;> rfl
@[simp] theorem count_io (d : Ix9) (f : Fld) (i n : Nat) : (count d f i n).io = d.io := by unfold count; split <;> rfl
@[simp] theorem count_now (d : Ix9) (f : Fld) (i n : Nat) : (count d f i n).now = d.now := by unfold count; split <;> rfl
@[simp] theorem count_el (d : Ix9) (f : Fld) (i n : Nat) : (count d f i n).el = d.el := by unfold count; split <;> rfl
@[simp] theorem count_wr (d : Ix9) (f : Fld) (i n : Nat) : (count d f i n).wr = d.wr := by unfold count; split <;> rfl
@[simp] theorem count_zap (d : Ix9) (f : Fld) (i n : Nat) : (count d f i n).zap = d.zap := by unfold count; split <;> rfl
@[simp] theorem count_out (d : Ix9) (f : Fld) (i n : Nat) : (count d f i n).out = d.out := by unfold count; split <;> rfl
@[simp] theorem count_sent (d : Ix9) (f : Fld) (i n : Nat) : (count d f i n).sent = d.sent := by unfold count; split <;> rfl

@[simp] theorem only_dev (s : State) (d : Ix9) : (s.only d).dev = d := rfl
@[simp] theorem only_cells (s : State) (d : Ix9) : (s.only d).cells = s.cells := rfl
@[simp] theorem only_pending (s : State) (d : Ix9) : (s.only d).pending = s.pending := rfl
@[simp] theorem store_pending (s : State) (d : Ix9) : (s.store d).pending = s.pending := rfl
@[simp] theorem follow_pending (s : State) (d : Ix9) : (s.follow d).pending = s.pending := rfl
@[simp] theorem store_regs (s : State) (d : Ix9) : (s.store d).dev.regs = d.regs := rfl
@[simp] theorem store_code (s : State) (d : Ix9) : (s.store d).dev.code = d.code := rfl
@[simp] theorem store_ready (s : State) (d : Ix9) : (s.store d).dev.ready = d.ready := rfl
@[simp] theorem store_off (s : State) (d : Ix9) : (s.store d).dev.off = d.off := rfl
@[simp] theorem store_q (s : State) (d : Ix9) : (s.store d).dev.q = d.q := rfl
@[simp] theorem store_c (s : State) (d : Ix9) : (s.store d).dev.c = d.c := rfl
@[simp] theorem store_net (s : State) (d : Ix9) : (s.store d).dev.net = d.net := rfl
@[simp] theorem store_lm (s : State) (d : Ix9) : (s.store d).dev.lm = d.lm := rfl
@[simp] theorem store_funcs (s : State) (d : Ix9) : (s.store d).dev.funcs = d.funcs := rfl
@[simp] theorem store_paths (s : State) (d : Ix9) : (s.store d).dev.paths = d.paths := rfl
@[simp] theorem store_ciph (s : State) (d : Ix9) : (s.store d).dev.ciph = d.ciph := rfl
@[simp] theorem store_h (s : State) (d : Ix9) : (s.store d).dev.h = d.h := rfl
@[simp] theorem store_stride (s : State) (d : Ix9) : (s.store d).dev.stride = d.stride := rfl
@[simp] theorem store_rcv (s : State) (d : Ix9) : (s.store d).dev.rcv = d.rcv := rfl
@[simp] theorem store_pins (s : State) (d : Ix9) : (s.store d).dev.pins = d.pins := rfl
@[simp] theorem store_ppsAt (s : State) (d : Ix9) : (s.store d).dev.ppsAt = d.ppsAt := rfl
@[simp] theorem store_nvm (s : State) (d : Ix9) : (s.store d).dev.nvm = d.nvm := rfl
@[simp] theorem store_boot (s : State) (d : Ix9) : (s.store d).dev.boot = d.boot := rfl
@[simp] theorem store_pw (s : State) (d : Ix9) : (s.store d).dev.pw = d.pw := rfl
@[simp] theorem store_mon (s : State) (d : Ix9) : (s.store d).dev.mon = d.mon := rfl
@[simp] theorem store_io (s : State) (d : Ix9) : (s.store d).dev.io = d.io := rfl
@[simp] theorem store_now (s : State) (d : Ix9) : (s.store d).dev.now = d.now := rfl
@[simp] theorem store_el (s : State) (d : Ix9) : (s.store d).dev.el = d.el := rfl
@[simp] theorem store_freeCtr (s : State) (d : Ix9) : (s.store d).dev.freeCtr = d.freeCtr := rfl
@[simp] theorem store_out (s : State) (d : Ix9) : (s.store d).dev.out = d.out := rfl
@[simp] theorem store_wr (s : State) (d : Ix9) : (s.store d).dev.wr = [] := rfl
@[simp] theorem store_zap (s : State) (d : Ix9) : (s.store d).dev.zap = [] := rfl
@[simp] theorem store_sent (s : State) (d : Ix9) : (s.store d).dev.sent = d.out.length := rfl

end Sys2Proof.Machine
end

