-- ==== Sys2Proof/Laws/Tables.lean ====
section
/-!
SUPPORT. Tables by number: what is read after a write at the same key, and at another.
-/

namespace Sys2Proof.Machine

variable {α : Type}

@[simp] theorem look_nil (k : Nat) : look ([] : Tbl α) k = none := rfl

@[simp] theorem look_put_eq (t : Tbl α) (k : Nat) (v : α) : look (put t k v) k = some v := by
  induction t with
  | nil => simp [put, look]
  | cons x r ih =>
    obtain ⟨i, w⟩ := x
    simp only [put]
    split
    · simp [look]
    · split
      · simp [look]
      · rename_i h
        simp [look, Ne.symm h, ih]

theorem look_put_ne (t : Tbl α) (k j : Nat) (v : α) (h : j ≠ k) : look (put t k v) j = look t j := by
  induction t with
  | nil => simp [put, look, Ne.symm h]
  | cons x r ih =>
    obtain ⟨i, w⟩ := x
    simp only [put]
    split
    · simp [look, Ne.symm h]
    · split
      · rename_i h1
        subst h1
        simp [look, Ne.symm h]
      · simp [look, ih]

@[simp] theorem num_put_eq (t : Tbl Nat) (k v : Nat) : num (put t k v) k = v := by simp [num]

theorem num_put_ne (t : Tbl Nat) (k j v : Nat) (h : j ≠ k) : num (put t k v) j = num t j := by
  simp [num, look_put_ne _ _ _ _ h]

@[simp] theorem lookD_put_eq [Inhabited α] (t : Tbl α) (k : Nat) (v : α) : lookD (put t k v) k = v := by simp [lookD]

theorem lookD_put_ne [Inhabited α] (t : Tbl α) (k j : Nat) (v : α) (h : j ≠ k) :
    lookD (put t k v) j = lookD t j := by simp [lookD, look_put_ne _ _ _ _ h]

@[simp] theorem lookD_updD_eq [Inhabited α] (t : Tbl α) (k : Nat) (f : α → α) :
    lookD (updD t k f) k = f (lookD t k) := by simp [updD]

theorem lookD_updD_ne [Inhabited α] (t : Tbl α) (k j : Nat) (f : α → α) (h : j ≠ k) :
    lookD (updD t k f) j = lookD t j := by simp [updD, lookD_put_ne _ _ _ _ h]

theorem look_upd_eq (t : Tbl α) (k : Nat) (f : α → α) : look (upd t k f) k = (look t k).map f := by
  unfold upd
  cases h : look t k <;> simp [h]

theorem look_upd_ne (t : Tbl α) (k j : Nat) (f : α → α) (h : j ≠ k) : look (upd t k f) j = look t j := by
  unfold upd
  split
  · exact look_put_ne _ _ _ _ h
  · rfl

end Sys2Proof.Machine
end

