-- ==== Sys2Proof/Laws/Ops.lean ====
section
/-!
SUPPORT. What the shared operations do: registers, counters, connections, packets that find their state.
-/

namespace Sys2Proof.Machine

@[simp] theorem rget_rset_eq (d : Ix9) (f : Fld) (i v : Nat) : rget (rset d f i v) f i = v % 2 ^ f.width := by
  simp [rget, rset]

theorem rget_rset_ne (d : Ix9) (f g : Fld) (i j v : Nat) (h : regKey g j ≠ regKey f i) :
    rget (rset d f i v) g j = rget d g j := by
  simp [rget, rset, look_put_ne _ _ _ _ h, resetValue]

/-- A counter changes no other field. -/
theorem rget_count_ne (d : Ix9) (f g : Fld) (i j n : Nat) (h : regKey g j ≠ regKey f i) :
    rget (count d f i n) g j = rget d g j := by
  unfold count
  split
  · exact rget_rset_ne _ _ _ _ _ _ h
  · rw [rget_rset_ne _ _ _ _ _ _ h]
    rfl

/-- A counter that stays in its width holds the sum. -/
theorem rget_count_eq (d : Ix9) (f : Fld) (i n : Nat) (h : rget d f i + n < 2 ^ f.width) :
    rget (count d f i n) f i = rget d f i + n := by
  unfold count
  simp only [h, if_true, rget_rset_eq]
  exact Nat.mod_eq_of_lt h

@[simp] theorem rget_draw (d : Ix9) (f : Fld) (i : Nat) : rget (draw d).2 f i = rget d f i := rfl

@[simp] theorem rget_emit (d : Ix9) (o : Out) (f : Fld) (i : Nat) : rget (emit d o) f i = rget d f i := rfl

@[simp] theorem connOf_updConn_eq (d : Ix9) (n : Nat) (g : Conn → Conn) : connOf (updConn d n g) n = g (connOf d n) := by
  simp [connOf, updConn]

theorem connOf_updConn_ne (d : Ix9) (n m : Nat) (g : Conn → Conn) (h : m ≠ n) :
    connOf (updConn d n g) m = connOf d m := by
  simp [connOf, updConn, lookD_updD_ne _ _ _ _ h]

@[simp] theorem connOf_rset (d : Ix9) (f : Fld) (i v n : Nat) : connOf (rset d f i v) n = connOf d n := rfl

@[simp] theorem connOf_count (d : Ix9) (f : Fld) (i k n : Nat) : connOf (count d f i k) n = connOf d n := by
  simp [connOf]

@[simp] theorem connOf_touch (d : Ix9) (k n : Nat) : connOf (touch d k) n = connOf d n := rfl

@[simp] theorem connOf_setPlace (d : Ix9) (k n : Nat) (p : Place2) : connOf (setPlace d k p) n = connOf d n := rfl

/-- A packet that leaves the input of its tile changes nothing else but its port's buffer. -/
theorem takeArrived_frame (d : Ix9) (p : Pkt) : ∃ w, takeArrived d p = { d with net := w } := by
  cases p <;> simp only [takeArrived, updPort] <;> split <;> exact ⟨_, rfl⟩

@[simp] theorem takeArrived_c (d : Ix9) (p : Pkt) : (takeArrived d p).c = d.c := by
  obtain ⟨w, h⟩ := takeArrived_frame d p
  rw [h]

@[simp] theorem takeArrived_regs (d : Ix9) (p : Pkt) : (takeArrived d p).regs = d.regs := by
  obtain ⟨w, h⟩ := takeArrived_frame d p
  rw [h]

@[simp] theorem takeArrived_code (d : Ix9) (p : Pkt) : (takeArrived d p).code = d.code := by
  obtain ⟨w, h⟩ := takeArrived_frame d p
  rw [h]

@[simp] theorem takeArrived_now (d : Ix9) (p : Pkt) : (takeArrived d p).now = d.now := by
  obtain ⟨w, h⟩ := takeArrived_frame d p
  rw [h]

@[simp] theorem takeArrived_ready (d : Ix9) (p : Pkt) : (takeArrived d p).ready = d.ready := by
  obtain ⟨w, h⟩ := takeArrived_frame d p
  rw [h]

@[simp] theorem takeArrived_boot (d : Ix9) (p : Pkt) : (takeArrived d p).boot = d.boot := by
  obtain ⟨w, h⟩ := takeArrived_frame d p
  rw [h]

@[simp] theorem connOf_takeArrived (d : Ix9) (p : Pkt) (n : Nat) : connOf (takeArrived d p) n = connOf d n := by
  simp [connOf]

/-- What `startedEntry` finds: the queue, and its entry of that opcode, started, not yet taken up, with its turn come. -/
theorem startedEntry_eq_some {d : Ix9} {op k slot : Nat} {s : Sq} {e : Entry} :
    startedEntry d op k slot = some (s, e) ↔ sqAt d k = some s ∧ entryAt d k slot = some e ∧ e.op = op ∧ e.stage = .started ∧
      e.phase = 0 ∧ e.issued = false ∧ s.inTurn slot = true := by
  unfold startedEntry
  cases sqAt d k <;> cases entryAt d k slot <;> simp
  constructor
  · rintro ⟨h, rfl, rfl⟩
    simp [h]
  · rintro ⟨rfl, rfl, h⟩
    simp [h]

/-- Resending does nothing where no packet waits to be sent again. -/
theorem resendGo_nil (d : Ix9) (p : Nat) (h : (portOf d p).link.resend = []) : resendGo d p = d := by simp [resendGo, h]

end Sys2Proof.Machine
end

