-- ==== Sys2Proof/Laws/Packets.lean ====
section
/-!
SUPPORT. A delivered packet reaches the checks of its connection, with its state found.
-/

namespace Sys2Proof.Machine

@[simp] theorem connOf_found (d : Ix9) (p : Pkt) (n : Nat) : connOf (found d p) n = connOf d n := by simp [found]

/-- Checks 1 to 4 of R162 let a delivered packet through. -/
theorem rxPacket_delivered (d : Ix9) (p : Pkt) (h : Delivered d p) :
    rxPacket (takeArrived d p) p = rxChecked (found d p) (pktConn p) p false := by
  obtain ⟨h1, h2, h3, h4, h5, h6, -, -, -, -⟩ := h
  have a2 : blockValid (takeArrived d p) (pktConn p) = true := by simpa [blockValid, rget, resetValue] using h2
  have ht : homeTile (takeArrived d p) (pktConn p) = homeTile d (pktConn p) := by simp [homeTile, rget, resetValue]
  have a3 : xportReady (takeArrived d p) (homeTile (takeArrived d p) (pktConn p)) = true := by
    simpa [ht, xportReady, islandReady] using h3
  have a4 : holdsState (takeArrived d p) (pktConn p) = true := by simpa [holdsState, placeOf, connOf] using h4
  have a5 : cachedConn (takeArrived d p) (pktConn p) = true := by simpa [cachedConn, placeOf] using h5
  have a6 : parkedOf (found d p) (pktConn p) = [] := by simpa [found, parkedOf, touch] using h6
  simp only [found] at a6
  cases p with
  | native k =>
    obtain ⟨h11, h12⟩ := h1
    have h13 := decide_eq_false (Nat.not_le.2 h12)
    have ha : ageMs (takeArrived d (.native k)) k = ageMs d k := by simp [ageMs, nowMs]
    simp only [rxPacket, ha, h11, bne_self_eq_false, h13, Bool.false_eq_true, if_false, a2, a3, Bool.not_true]
    simp [rxLookup, a4, a5, a6, found]
  | roce r => simp [rxPacket, a2, a3, rxLookup, a4, a5, a6, found]

end Sys2Proof.Machine
end

