-- ==== Sys2Proof/Tests/Slice0.lean ====
section
/-!
SUPPORT. Tests. For each statement of Obligations.lean, states and operands that meet the hypotheses of each of its clauses
(`witness_...`); commands that WellFormed refuses (`illFormed_...`); single steps and operations whose results the spec
states (`test_...`).
-/

namespace Sys2Proof.Tests

open Sys2Proof.Machine

set_option Elab.async false
set_option maxRecDepth 20000
set_option exponentiation.threshold 1024

/-! ## Small states -/

/-- An IX9-F10 out of reset with every island ready, its host link and sublink 0 of accelerator port 0 up. -/
def dev : Ix9 := rset (rset { ready := List.range 38, boot := { perstLow := false, pwrOk := true, stage := 2 } } Fld.PCIE_LINK_STATUS_DL_UP 0 1) Fld.PCIE_LINK_STATUS_DL_UP 2 1

def st (d : Ix9) : State := { dev := d }

/-- A header slot (R73). -/
def hdr (op object oparg0 oparg1 flags : Nat) : Nat :=
  op + 2 ^ 8 + flags * 2 ^ 24 + object * 2 ^ 64 + oparg0 * 2 ^ 88 + oparg1 * 2 ^ 96

/-- A started entry with these slots. -/
def ent (slots : List Nat) : Entry := { slot := 0, slots, stage := .started }

/-- A queue of function `f` on tile 0 whose oldest entry is `e`. -/
def sqOf (f : Nat) (e : Entry) : Sq := { func := f, ring := { log2 := 6 }, lim := 1, consumed := 1, entries := [e] }

/-- `d` with queue 1 of function `f` holding the started entry of these slots. -/
def withE (d : Ix9) (f : Nat) (slots : List Nat) : Ix9 := { d with q := { d.q with sqs := [(1, sqOf f (ent slots))] } }

/-! ## Hypotheses that states meet -/

theorem witness_StepRunsTheFrontCommand : ({ st dev with pending := [.arbitrate 0] } : State).pending = .arbitrate 0 :: [] := rfl

theorem witness_StepWithEmptyQueueOnlyMovesTime : (st dev).pending = [] := rfl

theorem witness_LandingMemoryKeepsItsForm : Memory.wf [(0, 1), (5, 2)] ∧
    step { st dev with cells := [(0, 1), (5, 2)] } = .next (State.idle { st dev with cells := [(0, 1), (5, 2)] }) :=
  ⟨by decide, rfl⟩

theorem witness_StoredBytesAreTheLastOnesWritten : Memory.wf State.reset.cells := by decide

theorem witness_RegisterWriteChangesOneField : regKey Fld.DB_DISCARDS 1 ≠ regKey Fld.DB_DISCARDS 0 := by decide

/-- Queue 1 of function 0 with doorbell 3, 64 slots, limit 10, 4 consumed; its completion and event queues. -/
def ringDev : Ix9 :=
  { dev with
    q := { sqs := [(1, { func := 0, db := 3, ring := { log2 := 6 }, lim := 10, consumed := 4, cq := 2 })],
           cqs := [(2, { func := 0, db := 4, eq := 5, ring := { log2 := 6 }, cons := 7, prod := 9, uncovered := 1, modTime := 1, timer := 1 })],
           eqs := [(5, { func := 0, db := 6, ring := { log2 := 6 }, cons := 2, prod := 8 })] }
    x := { fctx := [(0, { fqV := true, fqDb := 1, prod := 5, cons := 3 })] } }

theorem witness_SubmissionDoorbellsFollowTheirRule :
    sqByDb ringDev 0 0 = none ∧ cqByDb ringDev 0 0 = none ∧ eqByDb ringDev 0 0 = none ∧
    (fctxOf ringDev 1).fqV = false ∧ (fctxOf ringDev 0).fqDb ≠ 0 ∧
    ∃ q, sqByDb ringDev 0 3 = some (1, q) ∧ (funcOf ringDev 0).resetting = false ∧ 10 ≤ q.lim ∧
      (q.lim < 69 ∧ q.consumed + 2 ^ q.ring.log2 < 69) ∧ (q.lim < 11 ∧ 11 ≤ q.consumed + 2 ^ q.ring.log2) ∧
      q.lim < 68 ∧ 68 ≤ q.consumed + 2 ^ q.ring.log2 :=
  ⟨rfl, rfl, rfl, rfl, by decide, _, rfl, rfl, by decide, by decide, by decide, by decide⟩

theorem witness_ConsumerDoorbellsMoveTheirCounts :
    (funcOf ringDev 0).resetting = false ∧
    (∃ c, cqByDb ringDev 0 4 = some (2, c) ∧ c.cons ≤ 7 ∧ 9 ≤ c.prod ∧ 6 < c.cons ∧ c.prod < 10) ∧
    (∃ e, eqByDb ringDev 0 6 = some (5, e) ∧ 8 < 2 ^ 63 ∧ e.cons ≤ 2 ∧ 8 ≤ e.prod ∧ 1 < e.cons ∧ e.prod < 9) ∧
    (fctxOf ringDev 0).fqV = true ∧ (fctxOf ringDev 0).fqDb = 1 ∧ (fctxOf ringDev 0).cons ≤ 3 ∧ 5 ≤ (fctxOf ringDev 0).prod ∧
    2 < (fctxOf ringDev 0).cons ∧ (fctxOf ringDev 0).prod < 6 :=
  ⟨rfl, ⟨_, rfl, by decide, by decide, by decide, by decide⟩, ⟨_, rfl, by decide, by decide, by decide, by decide, by decide⟩,
    rfl, rfl, by decide, by decide, by decide, by decide⟩

/-- A queue with one new slot at its ring's start. -/
def fetchSq : Sq := { func := 0, ring := { log2 := 6 }, lim := 1 }
def fetchDev : Ix9 := { dev with q := { sqs := [(1, fetchSq)] } }
/-- An OP_NOP of one slot, its phase bit 1 (R72) and 0. -/
def nopBytes (phase : Nat) : List Byte := leBytes 16 (0x170 + phase * 2 ^ 127)

/-- A queue in error whose completion entry is due: 62 of 64 places of its completion queue are taken. -/
def errSq : Sq := { func := 0, cq := 2, ring := { log2 := 6 }, err := some (ST_QUEUE_ERROR, 1), errDue := true }
def errDev : Ix9 :=
  { dev with q := { sqs := [(1, errSq)], cqs := [(2, { func := 0, eq := 5, ring := { log2 := 6 }, prod := 63 })],
                    eqs := [(5, { func := 0, ring := { log2 := 6 } })] } }

theorem witness_FetchedEntriesAreAccepted :
    (sqAt fetchDev 1 = some fetchSq ∧ fetchSq.err = none ∧ fetchSq.reread = none ∧ xportReady fetchDev fetchSq.tile = true ∧
      (funcOf fetchDev 0).resetting = false ∧ 0 < fetchSlots fetchSq ∧
      ringRead [] fetchDev fetchSq (fetchSlots fetchSq) (.ok (nopBytes 1)) = .ok (nopBytes 1) ∧
      slotLen (((chunksOf 16 (nopBytes 1)).map leNat).headD 0) = 1 ∧ 1 ≤ fetchSlots fetchSq ∧
      phasesMatch fetchSq (((chunksOf 16 (nopBytes 1)).map leNat).take 1) = true ∧
      phasesMatch fetchSq (((chunksOf 16 (nopBytes 0)).map leNat).take 1) = false ∧ 1 ≠ 0 ∧ (funcOf errDev errSq.func).resetting = false ∧
      rget fetchDev Fld.FETCH_CFG_DB_RETRY fetchSq.tile ≠ 0) ∧
    (∃ q, sqAt { dev with q := { sqs := [(1, { fetchSq with reread := some ⟨1, 0, none⟩ })] } } 1 = some q ∧
      q.reread = some ⟨1, 0, none⟩) ∧
    (∃ c ev, errSq.err = some (ST_QUEUE_ERROR, 1) ∧ errSq.errDue = true ∧ errSq.entries = [] ∧ errSq.dying = none ∧
      look errDev.q.cqs errSq.cq = some c ∧ c.prod - c.cons + c.reserved < 2 ^ c.ring.log2 ∧
      look (cqWrite (updSq errDev 1 (fun q => { q with errDue := false })) errSq.cq
        { status := ST_QUEUE_ERROR, sqId := sqIdOf 1, cause := 1, consumed := errSq.consumed % 2 ^ 32 }).q.eqs c.eq = some ev ∧
      pathOf errDev c.ring.base = pathOf errDev ev.ring.base) :=
  ⟨⟨rfl, rfl, rfl, by decide, rfl, by decide, by decide, by decide, by decide, by decide, by decide, by decide, rfl, by decide⟩, ⟨_, rfl, rfl⟩,
    _, _, rfl, rfl, rfl, rfl, rfl, by decide, rfl, rfl⟩

/-- A ready OP_NOP at the head of queue 1, lane 7 of tile 0. -/
def readyDev : Ix9 :=
  { dev with q := { sqs := [(1, { func := 0, ring := { log2 := 6 }, lim := 1, consumed := 1, cq := 2,
                                  entries := [{ slot := 0, slots := [0x170], stage := .ready }] })],
                    cqs := [(2, { func := 0, ring := { log2 := 6 } })] } }

theorem witness_ArbitrationStartsTheQueueWhoseTurnItIs :
    xportReady readyDev 0 = true ∧
    (∃ a b c q, pickLane (wakeConns (freshen readyDev) 0) 0 = some (7, a) ∧ pickFunc a 0 7 = some (0, b) ∧
      pickQueue b 0 7 0 = some (1, c) ∧ sqAt c 1 = some q) ∧
    (∃ c, look ringDev.q.cqs 2 = some c ∧ c.uncovered ≠ 0 ∧ c.timer ≠ 0 ∧ (funcOf ringDev c.func).resetting = false) :=
  ⟨by decide, ⟨_, _, _, _, rfl, rfl, rfl, rfl⟩, _, rfl, by decide, by decide, rfl⟩

theorem witness_WeightedRoundRobinPicksAnEligibleMember :
    wrrPick [4, 6] 0 (fun m => m == 6) (fun _ => 0) (fun _ => 2) = some (6, 0, true) ∧
    wrrPick [4, 6] 0 (fun _ => true) (fun _ => 1) (fun _ => 2) = some (4, 1, false) := ⟨by decide, by decide⟩

/-- The admin queue of function 4 up, with nothing in it. -/
def adminDev : Ix9 := { dev with q := { sqs := [(adminKey 4, { func := 4, admin := true })] } }

theorem witness_AdminQueuesComeUpAndGoDown :
    regReach dev 4 = true ∧ regReach dev 16 = true ∧ 5 ≤ 16 ∧ 4 < 5 ∧ (funcOf dev 4).resetting = false ∧ has dev.q.sqs (adminKey 4) = false ∧
    adminCause (rset (rset (rset (rset dev Fld.ADMIN_CFG_SQ_LOG2 4 7) Fld.ADMIN_CTRL_ENABLE 4 1) Fld.ADMIN_STATUS_ERR 4 0) Fld.ADMIN_STATUS_CAUSE 4 0) 4 = some 1 ∧
    adminCause (rset (rset (rset dev Fld.ADMIN_CTRL_ENABLE 4 1) Fld.ADMIN_STATUS_ERR 4 0) Fld.ADMIN_STATUS_CAUSE 4 0) 4 = none ∧
    (∃ q, sqAt adminDev (adminKey 4) = some q ∧ q.entries = [] ∧ q.paused = none) :=
  ⟨by decide, by decide, by decide, by decide, rfl, rfl, by decide, by decide, _, rfl, rfl, rfl⟩
/-- Where at most one number is taken, a free one is found. -/
theorem pickFree_some (v n t a : Nat) (used : Nat → Bool) (h : ∀ x, used x = true → x = a) (hn : 2 ≤ n) :
    ∃ m, pickFree v n used (t + 2) = some m := by
  have hn0 : n ≠ 0 := by omega
  have hv : v % n < n := Nat.mod_lt _ (by omega)
  by_cases h1 : used (v % n) = true
  · have h2 : used ((v % n + 1) % n) ≠ true := by
      intro hc
      have e1 := h _ h1
      have e2 := h _ hc
      by_cases hw : v % n + 1 < n
      · rw [Nat.mod_eq_of_lt hw] at e2
        omega
      · have : v % n + 1 = n := by omega
        rw [this, Nat.mod_self] at e2
        omega
    exact ⟨(v % n + 1) % n, by simp only [pickFree, hn0, h1, if_true, if_false, h2, Bool.false_eq_true]⟩
  · exact ⟨v % n, by simp [pickFree, hn0, h1]⟩

/-- Function 0 may have two of everything and owns completion queue 2 and event queue 5. -/
def quotaDev : Ix9 :=
  { dev with
    funcs := [(0, { limit := [(rSQ, 2), (rCQ, 2), (rEQ, 2), (rCONN, 2), (rWIN, 2), (rPD, 1), (rVECTOR, 1)] })]
    q := { cqs := [(2, { func := 0, db := 10, eq := 5 })], eqs := [(5, { func := 0, db := 11 })] } }
/-- `quotaDev` with the started entry of these slots in queue 1 of function 0. -/
def quotaE (slots : List Nat) : Ix9 := withE quotaDev 0 slots
/-- Slots 1 and 2 of a create: ring of 2^log2 slots at address 0, lane 1, link; function 0, DB_INDEX 20. -/
def ringSlot (log2 link : Nat) : Nat := log2 * 2 ^ 84 + 2 ^ 91 + link * 2 ^ 96
def newSlot : Nat := 1 + 2 ^ 8 + 20 * 2 ^ 64
def ctxDev : Ix9 := { quotaDev with x := { ctx := [(0, { v := true })] } }

/-- The started entry of `withE` has its turn, whatever its slots. -/
theorem startedQ {d : Ix9} {f op : Nat} {slots : List Nat} (hq : d.q.sqs = [(1, sqOf f (ent slots))]) (h : (ent slots).op = op) :
    startedEntry d op 1 0 = some (sqOf f (ent slots), ent slots) := by
  subst h
  simp [startedEntry, sqAt, entryAt, hq, look, sqOf, Sq.entryAt, ent, Sq.inTurn]

theorem startedE (d : Ix9) (f op : Nat) (slots : List Nat) (h : (ent slots).op = op) :
    startedEntry (withE d f slots) op 1 0 = some (sqOf f (ent slots), ent slots) := startedQ rfl h

theorem witness_QueueOpcodes_nop : ∃ q e, sqAt (quotaE [hdr 0x70 0 0 0 0]) 1 = some q ∧
    entryAt (quotaE [hdr 0x70 0 0 0 0]) 1 0 = some e ∧ e.stage = .started ∧ e.phase = 0 ∧ e.issued = false ∧ q.inTurn 0 = true ∧ e.op = 0x70 :=
  ⟨_, _, rfl, rfl, rfl, rfl, rfl, rfl, by decide⟩

theorem witness_QueueOpcodes_sq : ∃ e n, entryAt (quotaE [hdr 0x60 0 0 0 0, ringSlot 8 2, newSlot]) 1 0 = some e ∧
    createCause (quotaE e.slots) 0 e = none ∧ createQuota (quotaE e.slots) e = true ∧ e.op = 0x60 ∧
    pickFree (draw (quotaE e.slots)).1 65536 (has (quotaE e.slots).q.sqs) 65536 = some n := by
  obtain ⟨n, h⟩ := pickFree_some (draw (quotaE [hdr 0x60 0 0 0 0, ringSlot 8 2, newSlot])).1 65536 65534 1
    (has (quotaE [hdr 0x60 0 0 0 0, ringSlot 8 2, newSlot]).q.sqs) (by simp [quotaE, withE, has, look]) (by decide)
  exact ⟨_, n, rfl, by decide, by decide, by decide, h⟩

theorem witness_QueueOpcodes_cq : ∃ e n, entryAt (quotaE [hdr 0x61 0 0 0 0, ringSlot 6 5, newSlot]) 1 0 = some e ∧
    createCause (quotaE e.slots) 0 e = none ∧ createQuota (quotaE e.slots) e = true ∧ e.op = 0x61 ∧
    pickFree (draw (quotaE e.slots)).1 65536 (has (quotaE e.slots).q.cqs) 65536 = some n := by
  obtain ⟨n, h⟩ := pickFree_some (draw (quotaE [hdr 0x61 0 0 0 0, ringSlot 6 5, newSlot])).1 65536 65534 2
    (has (quotaE [hdr 0x61 0 0 0 0, ringSlot 6 5, newSlot]).q.cqs) (by simp [quotaE, withE, quotaDev, has, look]) (by decide)
  exact ⟨_, n, rfl, by decide, by decide, by decide, h⟩

theorem witness_QueueOpcodes_eq : ∃ e n, entryAt (quotaE [hdr 0x62 0 0 0 0, ringSlot 16 0, newSlot]) 1 0 = some e ∧
    createCause (quotaE e.slots) 0 e = none ∧ createQuota (quotaE e.slots) e = true ∧ e.op = 0x62 ∧
    pickFree (draw (quotaE e.slots)).1 4096 (has (quotaE e.slots).q.eqs) 4096 = some n := by
  obtain ⟨n, h⟩ := pickFree_some (draw (quotaE [hdr 0x62 0 0 0 0, ringSlot 16 0, newSlot])).1 4096 4094 5
    (has (quotaE [hdr 0x62 0 0 0 0, ringSlot 16 0, newSlot]).q.eqs) (by simp [quotaE, withE, quotaDev, has, look]) (by decide)
  exact ⟨_, n, rfl, by decide, by decide, by decide, h⟩

/-- `quotaDev` with these queues. -/
def queuesDev (q : Queues) : Ix9 := { quotaDev with q := q }
def cqGone : Ix9 := queuesDev { sqs := [(1, { sqOf 0 (ent [hdr 0x63 2 1 0 0]) with cq := 3 })], cqs := [(2, { func := 0, eq := 5 })] }
def eqGone : Ix9 := queuesDev { sqs := [(1, sqOf 0 (ent [hdr 0x63 6 2 0 0]))], eqs := [(5, { func := 0 }), (6, { func := 0 })] }
def restarted : Sq := { func := 0, ring := { log2 := 6 }, lim := 128, err := some (1, 1) }
def restartDev : Ix9 := queuesDev { sqs := [(1, sqOf 0 (ent [hdr 0x64 4 0 0 1, 64])), (4, restarted)] }

theorem witness_QueueOpcodes_rest :
    (∃ e, entryAt (quotaE [hdr 0x60 0 0 0 0, ringSlot 7 2, newSlot]) 1 0 = some e ∧ createCause (quotaE e.slots) 0 e = some 0x07) ∧
    (∃ e, entryAt cqGone 1 0 = some e ∧ e.op = 0x63 ∧ destroyCause cqGone 0 e = none ∧ e.oparg0 % 4 = 1) ∧
    (∃ e, entryAt eqGone 1 0 = some e ∧ e.op = 0x63 ∧ destroyCause eqGone 0 e = none ∧ e.oparg0 % 4 = 2) ∧
    (∃ e, entryAt (quotaE [hdr 0x64 2 1 0 16, 0]) 1 0 = some e ∧ e.op = 0x64 ∧ waitsRestart (quotaE e.slots) 0 e = false ∧
      modifyCause (quotaE e.slots) 0 e = none) ∧
    (∃ q e, sqAt restartDev 1 = some q ∧ entryAt restartDev 1 0 = some e ∧ e.op = 0x64 ∧ waitsRestart restartDev 0 e = false ∧
      modifyCause restartDev 0 e = none ∧ headEntry q = none ∧ flag e.opflags 0 = true) :=
  ⟨⟨_, rfl, by decide⟩, ⟨_, rfl, by decide, by decide, by decide⟩, ⟨_, rfl, by decide, by decide, by decide⟩,
    ⟨_, rfl, by decide, by decide, by decide⟩, _, _, rfl, rfl, by decide, by decide, by decide, by decide, by decide⟩

theorem witness_TransportEntriesPostTheirMessage : ∀ op ∈ [0x10, 0x11, 0x12, 0x13, 0x14, 0x15],
    ∃ q e, startedEntry (withE dev 0 [hdr op 7 0 0 0]) op 1 0 = some (q, e) := by
  intro op h
  refine ⟨_, _, startedE _ _ _ _ ?_⟩
  revert op
  decide

/-- Attribute block: lane 1, protection domain 9, no receive queue (R158). -/
def attrBlock : Nat := 2 ^ 4 + 9 * 2 ^ 32 + 0xFFFF * 2 ^ 64
/-- Attribute block read by a create or modify from host memory. -/
def hostSeg (va len : Nat) : Seg := { va, len, phys := { addr := va }, asid := 0, xgen := 0, gen := 0 }
def attrEnt (op object oparg1 : Nat) : Entry := { ent [hdr op object 2 oparg1 0] with bufs := [{ segs := [hostSeg 0 96] }] }
def connDev (e : Entry) (c : Conns) : Ix9 := { quotaDev with q := { quotaDev.q with sqs := [(1, sqOf 0 e)] }, c := c }
/-- A connection of function 0 in a state, lane 1, domain 9. -/
def connIn (state : Nat) : Conn := { doc := state + 2 ^ 4 + 9 * 2 ^ 32 + 0xFFFF * 2 ^ 64 + 8192 * 2 ^ (0x28 * 8) }
def conns7 (c : Conn) : Conns := { conns := [(7, c)], place := [(7, .cached)], lru := [7], pds := [(9, (0, 0))] }

theorem witness_ConnectionOpcodes_create : ∃ q e d1 d2,
    readBlock [] (connDev (attrEnt 0x16 7 0) { pds := [(9, (0, 0))] }) 0x16 1 0 (.ok (leBytes 96 attrBlock)) = (d1, true) ∧
    sqAt d1 1 = some q ∧ entryAt d1 1 0 = some e ∧ e.stage = .started ∧ e.op = 0x16 ∧ e.phase = 1 ∧
    createCheck d1 q e.block = none ∧ e.object ≠ 0xFFFFFF ∧ connFree d1 e.object = true ∧ (createDoc e.block q.func 0).pin = false ∧
    makeWay d1 e.object (wantsAhead d1 e.object) = (d2, true) :=
  ⟨_, _, _, _, rfl, rfl, rfl, rfl, by decide, rfl, by decide, by decide, by decide, by decide, rfl⟩

theorem witness_ConnectionOpcodes_modify : ∃ q e d1 d2 c2,
    readBlock [] (connDev (attrEnt 0x17 7 1) (conns7 (connIn csINIT))) 0x17 1 0 (.ok (leBytes 96 (2 ^ 4))) = (d1, true) ∧
    sqAt d1 1 = some q ∧ entryAt d1 1 0 = some e ∧ e.stage = .started ∧ e.op = 0x17 ∧ e.phase = 1 ∧
    c2 = applyWords (connOf d1 e.object) (e.oparg1 % 2 ^ 24) e.block ∧ (connOf d1 e.object).state ≠ csRESET ∧
    (connOf d1 e.object).state ≠ csQUARANTINE ∧ (connOf d1 e.object).owner = q.func ∧ cachedConn d1 e.object = true ∧
    modifyBehind d1 e.object 1 0 = false ∧ transition (connOf d1 e.object).state (e.oparg0 % 8) = true ∧
    (∀ w < 24, flag (e.oparg1 % 2 ^ 24) w = true → wordSettable w (connOf d1 e.object).state = true) ∧ attrsOk d1 c2 = true ∧
    rqOk d1 c2.rq q.func (homeTile d1 e.object) = true ∧ keyMissing d1 (connOf d1 e.object) (e.oparg0 % 8) = false ∧
    c2.pin = false ∧ movePin d1 e.object false = (d2, true) :=
  ⟨_, _, _, _, _, rfl, rfl, rfl, rfl, by decide, rfl, rfl, by decide, by decide, by decide, by decide, by decide, by decide, by decide,
    by decide, by decide, by decide, by decide, rfl⟩

theorem witness_ConnectionOpcodes_rest :
    (∃ q e d, d = connDev (ent [hdr 0x18 7 0 0 0]) (conns7 (connIn csINIT)) ∧ sqAt d 1 = some q ∧ entryAt d 1 0 = some e ∧
      e.stage = .started ∧ e.phase = 0 ∧ e.issued = false ∧ q.inTurn 0 = true ∧ e.op = 0x18 ∧ (connOf d e.object).state = csINIT ∧ (connOf d e.object).owner = q.func) ∧
    (∃ q e d n, d = withE ctxDev 0 [hdr 0x67 0 0 0 0] ∧ sqAt d 1 = some q ∧ entryAt d 1 0 = some e ∧ e.op = 0x67 ∧
      flag e.opflags 0 = false ∧ mayUse d (e.oparg1 % 1024) (e.object % 2 ^ 20) = true ∧ quotaAllows d (e.oparg1 % 1024) rPD 1 = true ∧
      pickFree (draw d).1 (2 ^ 24) (has d.c.pds) (d.c.pds.length + 1) = some n) ∧
    (∃ q e d, d = connDev (ent [hdr 0x67 9 0 0 1]) { pds := [(9, (0, 0))] } ∧ sqAt d 1 = some q ∧ entryAt d 1 0 = some e ∧
      e.op = 0x67 ∧ flag e.opflags 0 = true ∧ look d.c.pds e.object = some (0, 0) ∧ parentPf 0 = q.func ∧ pdNamed d e.object = false) :=
  ⟨⟨_, _, _, rfl, rfl, rfl, rfl, rfl, rfl, rfl, by decide, by decide, by decide⟩,
    ⟨_, _, _, _, rfl, rfl, rfl, by decide, by decide, by decide, by decide, rfl⟩,
    _, _, _, rfl, rfl, rfl, by decide, by decide, by decide, by decide, by decide⟩

/-- Connection 7 in READY with window 3 of its domain over the mapped page 0 of address space 0. -/
def leaf0 : Leaf := { asid := 0, va := 0, size := 4096, r := true, w := true, at_ := true, phys := { addr := 65536 }, gen := 0, xgen := 0 }
def readyConn : Conn := connIn csREADY
def rxDev : Ix9 :=
  { quotaDev with
    c := conns7 readyConn
    x := { ctx := [(0, { v := true })], leaves := [(0, [leaf0])], winReady := true,
           wins := [(3, { v := true, rd := true, wr := true, at_ := true, pd := 9, rkey := 77, pages := 1 })] } }
def pkt0 (typ : Nat) (payload : List Byte) : Packet :=
  { dst := 0, src := 0, intm := 0, lane := 1, typ, ecn := 0, epoch := 0, conn := 7, psn := 0, len := 0, mc := false, last := true,
    ackreq := true, imm := false, prot := none, payload, hops := 0, hopdone := false, birth := 0, srcConn := 0, crc := 0 }
theorem seal_crc (p : Packet) : p.seal.crc = p.seal.trailer := rfl
def pktOf (typ : Nat) (payload : List Byte) : Packet := (pkt0 typ payload).seal
/-- The extension of a request on window 3 with RKEY 77 (R237). -/
def ext (offset : Nat) (rest : List Byte) : List Byte := leBytes 8 offset ++ leBytes 4 77 ++ leBytes 3 3 ++ [0] ++ rest
/-- A write of the last 8 bytes of the window. -/
def wrPkt : Packet := pktOf 2 (ext 4088 (leBytes 8 5))
def rdPkt : Packet := pktOf 4 (ext 0 (leBytes 4 4096))
def atPkt : Packet := pktOf 5 (ext 4088 (leBytes 8 1))
def casPkt : Packet := pktOf 6 (ext 0 (leBytes 8 1 ++ leBytes 8 2))

theorem witness_Delivered_native : Delivered rxDev (.native wrPkt) := by
  refine ⟨⟨seal_crc _, by decide⟩, ?_⟩
  decide +kernel

theorem witness_RequestPackets_conditions : wrPkt.ecn ≠ 3 ∧ wrPkt.psn = (connOf rxDev 7).rxEpsn ∧ (connOf rxDev 7).busy = none ∧
    (connOf rxDev 7).rxMsg = none ∧ behindRead rxDev 7 (nativeHdr wrPkt).op = false ∧ isRequest (nativeHdr wrPkt).op = true ∧
    isRequest (nativeHdr (pktOf 9 [])).op = false := by decide +kernel

theorem witness_RequestPackets_write : ∃ d2 segs, wrPkt.typ = 2 ∧
    winFirst (found rxDev (.native wrPkt)) 7 (pktReq (.native wrPkt) (nativeHdr wrPkt) true wrPkt.wireBytes) 1 8 = (d2, .ok segs) :=
  ⟨_, _, rfl, rfl⟩

theorem witness_RequestPackets_read : Delivered rxDev (.native rdPkt) ∧ ∃ d2 segs, rdPkt.typ = 4 ∧
    winFirst (found rxDev (.native rdPkt)) 7 (pktReq (.native rdPkt) (nativeHdr rdPkt) true rdPkt.wireBytes) 0 4096 = (d2, .ok segs) :=
  ⟨⟨⟨seal_crc _, by decide⟩, by decide +kernel⟩, _, _, rfl, rfl⟩

theorem witness_RequestPackets_atomic : Delivered rxDev (.native atPkt) ∧ (∃ d2 segs, atPkt.typ = 5 ∧
      (pktReq (.native atPkt) (nativeHdr atPkt) true atPkt.wireBytes).offset % 8 = 0 ∧
      winFirst (found rxDev (.native atPkt)) 7 (pktReq (.native atPkt) (nativeHdr atPkt) true atPkt.wireBytes) 2 8 = (d2, .ok segs)) ∧
    Delivered rxDev (.native casPkt) ∧ casPkt.typ = 6 :=
  ⟨⟨⟨seal_crc _, by decide⟩, by decide +kernel⟩, ⟨_, _, rfl, by decide, rfl⟩, ⟨⟨seal_crc _, by decide⟩, by decide +kernel⟩, rfl⟩

/-- Answers of each kind from the peer of connection 7, and a CNP to a RoCEv2-compatible connection. -/
def roceDev : Ix9 := { rxDev with c := conns7 { (connIn csREADY).set 0 3 3 1 with pacer := { rc := 1600000 } } }
def cnp : Roce :=
  { port := 0, lane := 1, srcIp := 0, ecn := 0, op := 0x81, se := false, flags := 0, destQp := 7, ackreq := false, psn := 0,
    prot := none, body := List.replicate 16 0, wire := 82 }

theorem witness_AnswersReachTheirConnection :
    (∀ t, Delivered rxDev (.native (pktOf t []))) ∧
    [9, 0xA, 8, 0xB, 0xC, 0xE, 0xF, 0xD].map (fun t => (pktHdr (.native (pktOf t []))).op) =
      [0x20, 0x21, 0x22, 0x23, 0x24, 0x26, 0x27, 0x25] ∧
    Delivered roceDev (.roce cnp) ∧ (pktHdr (.roce cnp)).op = 0x29 ∧ (connOf roceDev (pktConn (.roce cnp))).roce = true ∧
    (pktHdr (.native wrPkt)).op < 0x20 := by
  refine ⟨?_, by decide, ?_, by decide, by decide, by decide⟩
  · intro t
    have h : Delivered rxDev (.native (pktOf 9 [])) := ⟨⟨seal_crc _, by decide⟩, by decide +kernel⟩
    exact ⟨⟨seal_crc _, h.1.2⟩, h.2⟩
  · exact ⟨trivial, by decide +kernel⟩

/-- Connection 7 with PSNs 0 and 1 outstanding. -/
def sentPkt (psn : Nat) : TxPkt :=
  { psn, npsn := 1, org := .entry 1 0, op := 0x11, off := 0, len := 8, first := true, last := true, cost := 24 }
def busyConn : Conn := { (connIn csREADY).set 0x14 23 0 2 with txOut := [sentPkt 0, sentPkt 1] }
def sendDev : Ix9 := { rxDev with c := conns7 busyConn }

/-- An answer of a type with a PSN, from the peer of connection 7. -/
def ansPkt (typ psn : Nat) (payload : List Byte) : Packet := ({ pkt0 typ payload with psn }).seal
theorem delivered_ans (d : Ix9) (t psn : Nat) (l : List Byte) (h : Delivered d (.native (pktOf 9 []))) :
    Delivered d (.native (ansPkt t psn l)) := ⟨⟨seal_crc _, h.1.2⟩, h.2⟩

/-- Connection 7 with an atomic, and with a read of 8 bytes, outstanding. -/
def oneOut (op : Nat) : Conn :=
  { (connIn csREADY).set 0x14 23 0 1 with
    txOut := [{ sentPkt 0 with op }], txMsgs := [{ org := .entry 1 0, op, inl := none, total := 8, buf := [hostSeg 0 8] }] }
def outDev (op : Nat) : Ix9 := { rxDev with c := conns7 (oneOut op) }

theorem witness_AnswersReachTheirConnection_acks :
    Delivered sendDev (.native (ansPkt 9 2 [3])) ∧ (pktHdr (.native (ansPkt 9 2 [3]))).marked = false ∧
    ansView (.native (ansPkt 9 2 [3])) (pktHdr (.native (ansPkt 9 2 [3]))) (pktPlain (.native (ansPkt 9 2 [3]))) = .ack 2 3 ∧
    psnSub 2 (connOf sendDev 7).txUna ≤ psnSub (connOf sendDev 7).txPsn (connOf sendDev 7).txUna ∧
    Delivered (outDev 0x14) (.native (ansPkt 0xA 0 (leBytes 8 5))) ∧
    (∃ t m, ansView (.native (ansPkt 0xA 0 (leBytes 8 5))) (pktHdr (.native (ansPkt 0xA 0 (leBytes 8 5))))
        (pktPlain (.native (ansPkt 0xA 0 (leBytes 8 5)))) = .atomic 0 5 ∧ inRange (oneOut 0x14) 0 = true ∧
      (oneOut 0x14).txOut.find? (fun t => t.psn == 0 && isAtomic t.op) = some t ∧ (oneOut 0x14).txMsgs.find? (fun m => m.org == t.org) = some m) ∧
    Delivered (outDev 0x13) (.native (ansPkt 8 0 (leBytes 8 5))) ∧
    (∃ t m w, ansView (.native (ansPkt 8 0 (leBytes 8 5))) (pktHdr (.native (ansPkt 8 0 (leBytes 8 5))))
        (pktPlain (.native (ansPkt 8 0 (leBytes 8 5)))) = .resp 0 (leBytes 8 5) ∧ inRange (oneOut 0x13) 0 = true ∧
      (oneOut 0x13).txOut.find? (fun t => t.op == 0x13 && (readLacks (oneOut 0x13) t).isSome) = some t ∧ readLacks (oneOut 0x13) t = some 0 ∧
      (oneOut 0x13).txMsgs.find? (fun m => m.org == t.org) = some m ∧
      (leBytes 8 5).length = min (oneOut 0x13).mtu (t.off + t.len - max t.off m.got) ∧
      writeResponse (ackUpTo (endBackoff (found (outDev 0x13) (.native (ansPkt 8 0 (leBytes 8 5)))) 7) 7 t.psn) m m.got (leBytes 8 5) = (w, false)) :=
  ⟨delivered_ans _ _ _ _ ⟨⟨seal_crc _, by decide⟩, by decide +kernel⟩, by decide +kernel, by decide +kernel, by decide +kernel,
    delivered_ans _ _ _ _ ⟨⟨seal_crc _, by decide⟩, by decide +kernel⟩,
    ⟨_, _, by decide +kernel, by decide +kernel, rfl, rfl⟩,
    delivered_ans _ _ _ _ ⟨⟨seal_crc _, by decide⟩, by decide +kernel⟩,
    _, _, _, by decide +kernel, by decide +kernel, rfl, by decide +kernel, rfl, by decide +kernel, rfl⟩

theorem witness_AnswersReachTheirConnection_refusals :
    ansView (.native (ansPkt 0xB 1 [])) (pktHdr (.native (ansPkt 0xB 1 []))) [] = .nakSeq 1 ∧ inRange busyConn 1 = true ∧
    busyConn.retryCnt < rget (found sendDev (.native (ansPkt 0xB 1 []))) Fld.RD_TIMER_RETRY_LIMIT ∧ busyConn.backAt = none ∧
    ansView (.native (ansPkt 0xC 0 [9, 0])) (pktHdr (.native (ansPkt 0xC 0 [9, 0]))) [9, 0] = .busy 0 9 ∧ inRange busyConn 0 = true ∧
    busyConn.hold ≠ some (.backoff false) ∧ busyConn.resetCnt + 1 ≤ rget (found sendDev (.native (ansPkt 0xD 0 []))) Fld.RD_RESET_LIMIT ∧
    (∃ t m, ansView (.native (ansPkt 0xE 0 [0x20, 1])) (pktHdr (.native (ansPkt 0xE 0 [0x20, 1]))) [0x20, 1] = .fatal 0 0x20 1 ∧
      (oneOut 0x13).txOut.find? (fun t => psnSub 0 t.psn < t.npsn) = some t ∧ (oneOut 0x13).txMsgs.find? (fun m => m.org == t.org) = some m) ∧
    ansView (.native (ansPkt 0xF 0 [])) (pktHdr (.native (ansPkt 0xF 0 []))) [] = .abort :=
  by and_intros <;> first | decide +kernel | exact ⟨_, _, by decide +kernel, rfl, rfl⟩

/-- What a notification finds at the connection of a CNP: its profile, and its pacer brought up to now. -/
def cnpSeen : Ix9 := count (count (found roceDev (.roce cnp)) Fld.ETH_CNP_RCVD (connOf roceDev 7).netPort) Fld.PACER_NOTIFY 0
theorem witness_AnswersReachTheirConnection_cnp :
    (connOf roceDev 7).pacer.lastDec = none ∧ (profOf cnpSeen (connOf roceDev 7)).react = true ∧
    (let f := profOf cnpSeen (connOf roceDev 7)
     let r := (accrue cnpSeen (connOf roceDev 7)).renew f
     let a := r.alpha - r.alpha / 2 ^ f.g + 65536 / 2 ^ f.g
     f.line * f.low / 1000 ≤ r.rc - r.rc * a / 2 ^ 17) := by decide +kernel

theorem witness_AnswersMoveTheSender :
    inRange (connOf sendDev 7) 1 = true ∧ inRange (connOf sendDev 7) 0 = true ∧ inRange (connOf sendDev 7) 2 = false ∧
    (connOf sendDev 7).hold = none ∧ (connOf sendDev 7).backAt = none ∧
    (connOf sendDev 7).retryCnt < rget sendDev Fld.RD_TIMER_RETRY_LIMIT ∧
    (connOf sendDev 7).resetCnt + 1 ≤ rget sendDev Fld.RD_RESET_LIMIT ∧
    psnSub (connOf sendDev 7).txPsn (connOf sendDev 7).txUna < psnSub 3 (connOf sendDev 7).txUna ∧
    1 ≠ (connOf sendDev 7).txUna ∧ (connOf sendDev 7).waiter = [] ∧ (∀ m ∈ (connOf sendDev 7).txMsgs, m.allSent = false) := by decide +kernel

theorem witness_ConnectionTimersAndFillsAct :
    placeOf { rxDev with c := { conns7 readyConn with place := [(7, .filling)] } } 7 = some .filling ∧ readyConn.discarded = false ∧
    spillPoisoned { rxDev with c := { conns7 readyConn with place := [(7, .filling)] } } 7 = false ∧
    placeOf { rxDev with c := { conns7 readyConn with place := [(7, .spilling)] } } 7 = some .spilling ∧ parkedOf rxDev 7 = [] ∧
    (connOf { rxDev with c := conns7 (connIn csQUARANTINE) } 7).state = csQUARANTINE ∧
    (connOf { rxDev with c := conns7 { busyConn with hold := some (.busy 1) } } 7).hold = some (.busy 1) ∧
    (connOf { rxDev with c := conns7 { busyConn with hold := some (.backoff false) } } 7).hold = some (.backoff false) ∧
    busyConn.txOut = sentPkt 0 :: [sentPkt 1] ∧
    (connOf sendDev 7).state = csREADY ∧ (connOf sendDev 7).roce = false ∧ cachedConn sendDev 7 = true ∧
    (connOf sendDev 7).retryCnt < rget sendDev Fld.RD_TIMER_RETRY_LIMIT ∧
    (connOf { rxDev with c := conns7 { readyConn with unacked := 1 } } 7).unacked ≠ 0 ∧ holdsState rxDev 7 = true := by decide +kernel

/-- Connection 7 with an inline send to make, and with a PSN to send again. -/
def postMsg8 : TxMsg := { org := .entry 1 0, op := 0x10, inl := some (List.replicate 8 1), total := 8 }
def postDev : Ix9 := { rxDev with c := conns7 { readyConn with txMsgs := [postMsg8] } }

theorem witness_PacketsLeaveInPsnOrder :
    maySend postDev 7 = true ∧ maySend { rxDev with c := conns7 { busyConn with resend := [1] } } 7 = true ∧
    (connOf { rxDev with c := conns7 { busyConn with resend := [1] } } 7).resend = 1 :: [] ∧
    (connOf postDev 7).resend = [] ∧ (connOf postDev 7).enc = false ∧
    ∃ p data, planConn (connOf postDev 7) = some p ∧ planHeld (connOf postDev 7) p = false ∧
      packetData [] postDev p.msg p.off p.n = .ok data :=
  ⟨by decide +kernel, by decide +kernel, rfl, rfl, by decide +kernel, _, _, rfl, by decide +kernel, rfl⟩

/-- `dev` with these register fields set: field, instance, value. -/
def regs (d : Ix9) (l : List (Fld × Nat × Nat)) : Ix9 := l.foldl (fun d x => rset d x.1 x.2.1 x.2.2) d
/-- Address space 0 of function 0, page 0 mapped, and a started entry of these slots in its queue 1. -/
def mapE (slots : List Nat) : Ix9 :=
  { quotaE slots with c := { pds := [(9, (0, 0))] }, x := { ctx := [(0, { v := true })], leaves := [(0, [leaf0])], winReady := true } }
/-- Slot 1 and 2 of a window entry: base 0, 1 page, address space 0; domain 9, read and write. -/
def winSlots : List Nat := [2 ^ 64, 9 * 2 ^ 32 + 3 * 2 ^ 56]
def win3 : Win := { v := true, rd := true, pd := 9, rkey := 77, pages := 1 }
def winE (action : Nat) : Ix9 :=
  { mapE (hdr 0x43 3 0 0 action :: winSlots) with x := { ctx := [(0, { v := true })], winReady := true, wins := [(3, win3)] } }

theorem witness_TranslationOpcodesTakeEffect :
    (∃ q e, startedEntry (mapE [hdr 0x40 0 0 0 0, 2 ^ 64]) 0x40 1 0 = some (q, e) ∧ mayUse (mapE e.slots) q.func 0 = true ∧
      (ctxOf (mapE e.slots) 0).mode ≠ 1) ∧
    (∃ q e, startedEntry (mapE [hdr 0x40 5 0 0 0, 2 ^ 64]) 0x40 1 0 = some (q, e) ∧
      mayUse (mapE e.slots) q.func (e.object % 2 ^ 20) = false) ∧
    (∃ q e, startedEntry (mapE [hdr 0x41 0 0 0 1, 2 ^ 64]) 0x41 1 0 = some (q, e) ∧ mayUse (mapE e.slots) q.func 0 = true ∧
      e.action2 < 2 ∧ (ctxOf (mapE e.slots) 0).advice.length < 64) ∧
    (∃ q e, startedEntry (mapE [hdr 0x41 0 0 0 3, 2 ^ 64]) 0x41 1 0 = some (q, e) ∧ e.action2 = 3) ∧
    (∃ q e, startedEntry (mapE [hdr 0x42 0 0 0 1, 2 ^ 64]) 0x42 1 0 = some (q, e) ∧ e.invKind < 2 ∧
      mayUse (mapE e.slots) q.func 0 = true) ∧
    (∃ q e, startedEntry (mapE [hdr 0x42 5 0 0 1, 2 ^ 64]) 0x42 1 0 = some (q, e) ∧ e.invKind < 2 ∧
      mayUse (mapE e.slots) q.func (e.object % 2 ^ 20) = false) :=
  ⟨⟨_, _, rfl, by decide, by decide⟩, ⟨_, _, rfl, by decide⟩, ⟨_, _, rfl, by decide, by decide, by decide⟩, ⟨_, _, rfl, by decide⟩,
    ⟨_, _, rfl, by decide, by decide⟩, _, _, rfl, by decide, by decide⟩

theorem witness_TranslationOpcodes_window :
    (∃ q e, startedEntry (mapE (hdr 0x43 3 0 0 0 :: winSlots)) 0x43 1 0 = some (q, e) ∧ e.action2 = 0 ∧
      winSetCheck (mapE e.slots) q e = none ∧ quotaAllows (mapE e.slots) q.func rWIN 1 = true ∧ e.object < winTableSize (mapE e.slots) ∧
      e.object ≠ 0xFFFFFF ∧ (winOf (mapE e.slots) e.object).v = false ∧ (winOf (mapE e.slots) e.object).quar = false) ∧
    (∃ q e, startedEntry (winE 1) 0x43 1 0 = some (q, e) ∧ winNamed (winE 1) q e.object = true ∧ e.action2 = 1 ∧
      winSetCheck (winE 1) q e = none) ∧
    (∃ q e, startedEntry (winE 2) 0x43 1 0 = some (q, e) ∧ winNamed (winE 2) q e.object = true ∧ e.action2 = 2) :=
  ⟨⟨_, _, rfl, by decide +kernel⟩, ⟨_, _, rfl, by decide +kernel⟩, _, _, rfl, by decide +kernel⟩

/-- Invalidation 0 of entry (1, 0), drained and acknowledged; and draining. -/
def inv0 (draining : Bool) : Inv := { asid := 0, va := 0, pages := 1, by_ := .entry 1 0, kind := 0, xgen := 0, draining := draining }
def invDev (draining : Bool) : Ix9 := { mapE [hdr 0x42 0 0 0 0] with x := { invs := [(0, inv0 draining)] } }
def walkDev : Ix9 :=
  { dev with x := { ctx := [(0, { v := true })], walks := [⟨0, 0, 0, false, true, true⟩], ats := [⟨0, 0, 0, false, true, true⟩], pri := [(0, 0, 0)] } }
/-- Table entries of a walk: a table at address 0, then a 1 GiB page with every right. -/
def goodWalk : List (Nat × ReadData) := [(4, .ok (leBytes 8 1)), (3, .ok (leBytes 8 31))]

theorem witness_InvalidationsAndWalksEnd :
    (∃ e, look (invDev false).x.invs 0 = some (inv0 false) ∧ (inv0 false).draining = false ∧ (inv0 false).acks = 0 ∧
      (inv0 false).kind < 2 ∧ (inv0 false).by_ = .entry 1 0 ∧
      (inv0 false).forPrefetch (invMark { invDev false with x := { (invDev false).x with invs := drop (invDev false).x.invs 0 } } (inv0 false)) = false ∧
      entryAt (invPaused (invMark { invDev false with x := { (invDev false).x with invs := drop (invDev false).x.invs 0 } }
        (inv0 false)) (inv0 false)) 1 0 = some e ∧ e.op = 0x42) ∧
    (look (invDev true).x.invs 0 = some (inv0 true) ∧ (inv0 true).draining = true ∧
      runsOld (((runningOld (invDev true) 0 0 1 0).filter (fun x => !halted (invDev true) x.1 x.2)).foldl
        (fun d x => withdraw 0 d x.1 x.2) (invDev true)) 0 0 1 0 = []) ∧
    (walkDev.x.walks.find? (fun w => w.isFor 0 0 0 && w.run) = some ⟨0, 0, 0, false, true, true⟩ ∧
      (∃ l br, walk [] walkDev 0 0 0 goodWalk = .leaf l br ∧ l.va ≤ 0 ∧ 0 < l.va + l.size) ∧ ∃ f, walk [] walkDev 0 0 0 [(4, .ok (leBytes 8 0))] = .fault f) ∧
    (walkDev.x.ats.find? (·.isFor 0 0 0) = some ⟨0, 0, 0, false, true, true⟩ ∧ (true || false) = true ∧ 4096 ≤ 4096) ∧
    (walkDev.x.ctx.all (fun x => !(x.2.v && x.2.pasid == 1))) = true ∧
    ((walkDev.x.ctx.filter (fun x => x.2.v && x.2.pasid == 0)).map (·.1)) = [0] ∧ (0, 0, 0) ∈ walkDev.x.pri :=
  ⟨⟨_, rfl, rfl, rfl, by decide, rfl, by decide, rfl, by decide⟩, ⟨rfl, rfl, by decide⟩, ⟨rfl, ⟨_, _, rfl, by decide, by decide⟩, _, rfl⟩,
    ⟨rfl, rfl, by decide⟩, by decide, by decide, by decide⟩

theorem witness_InvalidationsAndWalksEnd_table :
    wrote dev 0 Fld.XLATE_CTRL_LOCK 0 = true ∧ rflag dev Fld.XLATE_CTRL_LOCK = false ∧ winTableSize dev ≠ 0 ∧
    rflag (regs dev [(Fld.XLATE_CTRL_LOCK, 0, 1)]) Fld.XLATE_CTRL_LOCK = true ∧ tokWaits dev .winInit = false ∧
    (winOf { dev with x := { wins := [(3, { quar := true })] } } 3).quar = true := by decide +kernel

/-- Port 0 up on Ethernet with a lane-0 packet, and with one of lane 3. -/
def rawPkt : QPkt := { item := .raw (List.replicate 64 0) none, len := 68 }
def ethUp : List (Fld × Nat × Nat) := [(Fld.ETH_STATUS_UP, 0, 1)]
def portDev (p : Port) : Ix9 := { regs dev ethUp with net := { ports := [(0, p)] } }
def lane0Dev : Ix9 := portDev { lanes := [(0, [rawPkt])] }
def lane3Dev : Ix9 := portDev { lanes := [(3, [rawPkt])] }

theorem witness_PortsPickTheirNextPacket :
    (portUp lane0Dev 0 = true ∧ rflag lane0Dev Fld.ETH_LS_STATUS_RETRAINING 0 = false ∧
      ∃ i k o, laneReady (pickStart lane0Dev 0) 0 0 = some (i, k, o) ∧
        wireOf (pickStart lane0Dev 0) 0 k.len * 10 ^ 6 ≤ l0Tokens (retryMeters lane0Dev 0) 0) ∧
    (portUp lane3Dev 0 = true ∧ rflag lane3Dev Fld.ETH_LS_STATUS_RETRAINING 0 = false ∧ laneReady (pickStart lane3Dev 0) 0 0 = none ∧
      (laneReady (pickStart lane3Dev 0) 0 (2 + 1)).isSome = true ∧
      ∃ b i k o, drr 600 (pickStart lane3Dev 0) 0 .all = (b, some 3) ∧ laneReady b 0 3 = some (i, k, o)) :=
  ⟨⟨by decide +kernel, by decide +kernel, _, _, _, rfl, by decide +kernel⟩,
    by decide +kernel, by decide +kernel, rfl, by decide +kernel, _, _, _, _, rfl, rfl⟩

/-- Port 0 with preemption active, and the two port states without a frame in progress that the runs are over. -/
def preDev (p : Port) : Ix9 := rset (portDev p) Fld.ETH_PREEMPT_STATUS_ACTIVE 0 1
def frameIn (hold : Bool) : Port :=
  { pre := { inFrame := some { bytes := List.replicate 200 0, record := none, sent := 128 } }, gate := { hold := hold } }

theorem witness_PortsPickTheirNextPacket_preemption :
    (preemptive lane0Dev 0 = false ∧ preemptive lane3Dev 0 = false ∧ (portOf lane3Dev 0).pre.inFrame = none ∧
      portUp (preDev {}) 0 = true ∧ rflag (preDev {}) Fld.ETH_LS_STATUS_RETRAINING 0 = false ∧ preemptive (preDev {}) 0 = true) ∧
    (∃ c l i k o, runPick (pickStart (preDev { frameIn false with lanes := [(1, [rawPkt])] }) 0) 0 .express = (c, some (l, i, k, o))) ∧
    (∃ c, runPick (pickStart (preDev (frameIn false)) 0) 0 .express = (c, none) ∧
      (portOf c 0).pre.inFrame.isSome = true ∧ (portOf c 0).gate.hold = false) ∧
    (∃ c, runPick (pickStart (preDev (frameIn true)) 0) 0 .express = (c, none) ∧
      (portOf c 0).pre.inFrame.isSome = true ∧ (portOf c 0).gate.hold = true) ∧
    ∃ c e l i k o, runPick (pickStart (preDev { lanes := [(2, [rawPkt])] }) 0) 0 .express = (c, none) ∧
      (portOf c 0).pre.inFrame = none ∧ runPick c 0 .preemptible = (e, some (l, i, k, o)) :=
  ⟨by decide +kernel, ⟨_, _, _, _, _, rfl⟩, ⟨_, rfl, rfl, rfl⟩, ⟨_, rfl, rfl, rfl⟩, _, _, _, _, _, _, rfl, rfl, rfl⟩

/-- Port 0 with an active list of two entries of 500 ns, gates all open then lane 1 only. -/
def gateDev : Ix9 :=
  regs dev [(Fld.GATE_CTRL_EN, 0, 1), (Fld.GATE_STATUS_LIST_ACTIVE, 0, 1), (Fld.GATE_ACT_CYCLE, 0, 1000), (Fld.GATE_ACT_LEN, 0, 2),
    (Fld.GATE_LIST, 0, 255 + 500 * 2 ^ 32), (Fld.GATE_LIST, 1, 2 + 500 * 2 ^ 32)]

theorem witness_GateListsRunInTheirCycle :
    portExists dev 0 = true ∧ wrote dev 0 Fld.GATE_CTRL_EN 0 = true ∧ wrote dev 0 Fld.GATE_CTRL_SWAP_REQ 0 = true ∧
    rflag dev Fld.GATE_STATUS_SWAP_PENDING 0 = false ∧ rflag dev Fld.GATE_STATUS_LIST_ACTIVE 0 = false ∧
    rflag gateDev Fld.GATE_STATUS_SWAP_PENDING 0 = false ∧ rflag gateDev Fld.GATE_STATUS_LIST_ACTIVE 0 = true ∧
    rflag (regs gateDev [(Fld.GATE_STATUS_SWAP_PENDING, 0, 1)]) Fld.GATE_STATUS_SWAP_PENDING 0 = true ∧
    rflag (regs gateDev [(Fld.GATE_STATUS_SWAP_PENDING, 0, 1)]) Fld.GATE_CTRL_EN 0 = true ∧
    gated gateDev 0 = true ∧ (gateOf gateDev 0).realign = false ∧
    (gateCycle gateDev 0).dropWhile (fun e => e.1 != (gateOf gateDev 0).entry) = (0, 255, 500) :: (1, 2, 500) :: [] ∧
    rget gateDev Fld.GATE_CTRL_EN 0 = 1 ∧ rflag dev Fld.GATE_CTRL_EN 0 = false ∧
    rflag (rset dev Fld.GATE_STATUS_SWAP_PENDING 0 1) Fld.GATE_STATUS_SWAP_PENDING 0 = true ∧
    gateCycle gateDev 0 = (0, 255, 500) :: (1, 2, 500) :: [] ∧
    (let d := updGate gateDev 0 (fun g => { g with entry := 1 })
     gated d 0 = true ∧ ((gateCycle d 0).dropWhile (fun e => e.1 != (gateOf d 0).entry)).length < 2) ∧
    (gateOf (updGate gateDev 0 (fun g => { g with realign := true })) 0).realign = true := by decide +kernel

theorem witness_SwapBoundaryIsTheFirstOfItsGrid : 0 < 1000 ∧ 1001 ≤ 5 + 1 * 1000 ∧ 5 ≤ 5 ∧ 4 < 5 ∧ 200 < 1500 ∧ 200 + 1 * 1000 ≤ 1500 := by
  decide

/-- Port 0 up on Ethernet with the local address 10.0.0.1. -/
def frameDev : Ix9 :=
  regs dev [(Fld.ETH_STATUS_UP, 0, 1), (Fld.ETH_LOCAL_V, 0, 1), (Fld.ETH_LOCAL_ADDR, 0, leNat (beBytes 16 (0xFFFF * 2 ^ 32 + 0x0A000001)))]

/-- Port 0 as a native link at a stage, with one packet of LSEQ 5 to be acknowledged. -/
def linkDev (l : Link) : Ix9 :=
  { regs dev [(Fld.LINK_CFG_NATIVE, 0, 1), (Fld.LINK_STATUS_UP, 0, 1)] with net := { ports := [(0, { link := l })] } }
def upLink : Link := { stage := .up, replay := [(5, pkt0 2 [])], txSeq := 6, sinceLack := 1, rxSeq := 0 }
def word (kind v : Nat) : Nat := withCrc8 (kind * 2 ^ 60 + v)

theorem witness_NativeLinks_stages :
    (isNative (linkDev { stage := .training }) 0 = true ∧ portExists (linkDev { stage := .training }) 0 = true ∧
      (linkOf (linkDev { stage := .training }) 0).stage = .training) ∧
    ((linkOf (linkDev { stage := .init }) 0).stage = .init ∧ wordOk (word 5 (7 * 2 ^ 40 + 1 * 2 ^ 32)) 5 = true) ∧
    (wordOk (word 2 (2 ^ 59)) 2 = true ∧ (linkOf (linkDev upLink) 0).stage = .up) ∧
    rflag (linkDev upLink) Fld.LINK_STATUS_UP 0 = true ∧
    (wordOk (word 3 (5 * 2 ^ 40)) 3 = true ∧ bits (word 3 (5 * 2 ^ 40)) 51 40 = 5 ∧ replayHas (linkOf (linkDev upLink) 0) 5 = true ∧
      bits (word 3 (6 * 2 ^ 40)) 51 40 = (linkOf (linkDev upLink) 0).txSeq ∧ (linkOf (linkDev upLink) 0).sinceLack ≠ 0) ∧
    (wordOk (word 4 (5 * 2 ^ 40)) 4 = true ∧ bits (word 4 (5 * 2 ^ 40)) 51 40 = 5 ∧ (linkOf (linkDev upLink) 0).retries = (0, 0) ∧
      1 ≤ rget (linkDev upLink) Fld.LINK_CFG_RETRY_MAX 0) ∧
    rflag dev Fld.LINK_STATUS_UP 0 = false ∧
    (isNative (linkDev upLink) 0 = true ∧ isNative frameDev 0 = false ∧ rflag frameDev Fld.ETH_STATUS_UP 0 = true) ∧
    (let d := linkDev { upLink with resend := [5], granted := [(1, creditsOf (pkt0 2 []).payLen)] }
     (portOf d 0).link.resend = [5] ∧ (portOf d 0).link.replay.find? (fun e => e.1 == 5) = some (5, pkt0 2 []) ∧
      creditsOf (pkt0 2 []).payLen ≤ linkCredit d 0 (pkt0 2 []).lane) ∧
    (wrote dev 0 Fld.LINK_CFG_NATIVE 0 = true ∧ portExists dev 0 = true ∧ isNative dev 0 = !true ∧
      1 ≤ rget dev Fld.LINK_CFG_RETRY_MAX 0 ∧ rget dev Fld.LINK_CFG_RETRY_MAX 0 < 256) ∧
    (wordOk 0 5 = false ∧ wordOk 0 2 = false ∧ wordOk 0 3 = false ∧ wordOk 0 4 = false) := by decide +kernel

/-- The packet a START word with LSEQ 0 and BIRTH 9 announces. -/
def linkPkt : Packet := { pkt0 2 (ext 0 [1, 2, 3, 4]) with hops := 1, birth := 9, srcConn := 12 }.seal

theorem witness_IntactPacketsWithTheExpectedSequenceAreTaken :
    rflag (linkDev upLink) Fld.LINK_STATUS_UP 0 = true ∧ bits (startWord linkPkt 0) 59 56 = linkPkt.hops ∧
    bits (startWord linkPkt 0) 39 24 = linkPkt.birth ∧ bits (startWord linkPkt 0) 23 0 = linkPkt.srcConn ∧
    bits (startWord linkPkt 0) 63 60 = 1 ∧ crc3 (startWord linkPkt 0) = bits (startWord linkPkt 0) 54 52 ∧
    linkPkt.crc = linkPkt.trailer ∧ bits (startWord linkPkt 0) 51 40 = (linkOf (linkDev upLink) 0).rxSeq ∧
    (linkOf (linkDev upLink) 0).sinceLack < 31 ∧ packetWell linkPkt = true ∧
    meterAt (linkDev upLink) (8192 + 8 * 0 + linkPkt.lane) = none := by decide +kernel

/-- Endpoint 1 of group 0; member 5 is reached by ports 0 and 3 in epoch 0. -/
def fabDev : Ix9 :=
  regs (linkDev { upLink with rx := [{ pkt0 2 [] with dst := 1, hopdone := true }] })
      [(Fld.FAB_EP_ID, 0, 1), (Fld.FAB_MEMBER_V, 5, 1), (Fld.FAB_MEMBER_PORTS, 5, 9), (Fld.FAB_CTRL_FWD_EN, 0, 1)]
def toMember5 : Packet := { pkt0 2 [] with dst := 5, hopdone := true }

theorem witness_RoutesFollowTheirPortSets :
    memberPorts fabDev 0 5 = 9 ∧ 9 < 2 ^ 16 ∧ fabGroup fabDev = 0 ∧ toMember5.dst ≠ fabEp fabDev ∧
    memberPorts fabDev 0 6 = 0 ∧ (pkt0 2 []).intm / 256 = fabGroup fabDev := by decide +kernel

/-- `fabDev` with this packet in the receive buffer of port 0, and an entry of the multicast table. -/
def netRxDev (k : Packet) : Ix9 :=
  { regs fabDev [(Fld.FAB_MC_V, 0, 1), (Fld.FAB_MC_GROUP, 0, 7), (Fld.FAB_MC_TILES, 0, 1)] with
    net := { fabDev.net with ports := [(0, { link := { upLink with rx := [k] } })] } }
def mcPkt : Packet := { pkt0 2 [] with dst := 7, mc := true, hopdone := true }
/-- `netRxDev` with a copy of an earlier multicast packet still on lane 1 of port 3. -/
def stageDev (k : Packet) : Ix9 :=
  { netRxDev k with net := { (netRxDev k).net with ports := (netRxDev k).net.ports ++ [(3, { lanes := [(1, [{ item := .native mcPkt, len := 64 }])] })] } }

theorem witness_FabricRoutesAndChangesEpoch_routes :
    (∀ k ∈ [toMember5, { toMember5 with hops := 14 }, { toMember5 with birth := nowMs dev + 65036 }],
      findAt (linkOf (netRxDev k) 0).rx (fun k => k.lane == 1) = some (0, k) ∧ rflag (netRxDev k) Fld.FAB_CTRL_FWD_EN = true ∧
      epochRouted (netRxDev k) k.epoch = true ∧ k.mc = false ∧ (route (netRxDev k) k = .port 0 true ∨ route (netRxDev k) k = .port 3 true)) ∧
    (toMember5.hops < 14 ∧ ageMs (netRxDev toMember5) toMember5 < 500 ∧
      500 ≤ ageMs dev { toMember5 with birth := nowMs dev + 65036 }) ∧
    (route (netRxDev { pkt0 2 [] with dst := 1 }) { pkt0 2 [] with dst := 1 } = .local_ ∧
      route (netRxDev { toMember5 with dst := 6 }) { toMember5 with dst := 6 } = .none_) ∧
    mcPkt.mc = true ∧ (∃ d, multicast (netRxDev mcPkt) (some 0) none mcPkt = (d, false)) ∧
    (∃ d, multicast (stageDev mcPkt) (some 0) none mcPkt = (d, true) ∧
      findAt (linkOf d 0).rx (fun k => k.lane == 1 && !k.mc) = none) :=
  ⟨by decide +kernel, by decide +kernel, by decide +kernel, rfl, ⟨_, rfl⟩, _, rfl, rfl⟩

theorem witness_FabricRoutesAndChangesEpoch :
    (∃ k, findAt (linkOf fabDev 0).rx (fun k => k.lane == 1) = some (0, k) ∧ rflag dev Fld.FAB_CTRL_FWD_EN = false) ∧
    (wrote dev 0 Fld.FAB_EPOCH_COMMIT 0 = true ∧ rflag dev Fld.FAB_EPOCH_SETTLING = false ∧ wrote dev 0 Fld.FAB_EPOCH_FLIP 0 = true ∧
      rflag (regs dev [(Fld.FAB_EPOCH_COMMITTED, 0, 1)]) Fld.FAB_EPOCH_COMMITTED = true ∧
      rget dev Fld.FAB_FLIP_AT ≤ dev.now ∧ dev.now < rget (regs dev [(Fld.FAB_FLIP_AT, 0, 1)]) Fld.FAB_FLIP_AT ∧
      ({ net := { flipArmed := true } } : Ix9).net.flipArmed = true ∧
      rflag (regs dev [(Fld.FAB_EPOCH_SETTLING, 0, 1)]) Fld.FAB_EPOCH_SETTLING = true ∧ wrote dev 0 Fld.FAB_EPOCH_CUR 0 = true ∧
      rflag dev Fld.FAB_CTRL_FWD_EN = false ∧ rflag fabDev Fld.FAB_CTRL_FWD_EN = true) :=
  ⟨⟨_, rfl, by decide +kernel⟩, by decide +kernel⟩

/-- An acknowledgement from 10.0.0.2 to 10.0.0.1, from destination address to FCS. -/
def ethHdr : EthHdr :=
  { dmac := rget frameDev Fld.ETH_MAC 0, smac := 2, tag := none, ipv6 := false, dscp := 0, ttl := 64, flow := 0,
    src := 0x0A000002, dst := 0x0A000001, sport := 49152 }
def frame0 : List Byte := frameBytes ethHdr { cnp with op := 0x11, body := leBytes 4 0 }
def okFrame : List Byte := frame0 ++ fcs frame0

theorem witness_FramesPassTheChecksInOrder :
    (isNative frameDev 0 = false ∧ portUp frameDev 0 = true ∧ rflag frameDev Fld.PWR_STATUS_STANDBY = false) ∧
    (List.replicate 63 0 : List Byte).length < 64 ∧
    (64 ≤ (List.replicate 9600 0 : List Byte).length ∧ rget frameDev Fld.ETH_CFG_MAX_FRAME 0 < (List.replicate 9600 0 : List Byte).length) ∧
    (64 ≤ (List.replicate 64 (0 : Byte)).length ∧ fcs (List.replicate 60 0) ≠ (List.replicate 64 (0 : Byte)).drop 60) := by decide +kernel

theorem witness_FramesPassTheChecksInOrder_roce : okFrame.take (okFrame.length - 4) = frame0 ∧
    ∃ ip, (64 ≤ okFrame.length ∧ okFrame.length ≤ rget frameDev Fld.ETH_CFG_MAX_FRAME 0 ∧ fcs frame0 = okFrame.drop (okFrame.length - 4) ∧
      rflag frameDev Fld.ETH_MACSEC_CFG_EN 0 = false ∧ excClass (ethView frame0) = none ∧
      (ethView frame0).dst = rget frameDev Fld.ETH_MAC 0 ∧ (ethView frame0).etype = 0x0800) ∧
      ipView (ethView frame0).etype (ethView frame0).rest = some ip ∧ localIp frameDev 0 ip = true ∧ ip.proto = 17 ∧
      fieldBE ip.pay 2 2 = 4791 ∧ fieldBE (ip.pay.drop 8) 1 1 % 16 = 0 ∧ fieldBE (ip.pay.drop 8) 0 1 < 0x20 ∧
      icrc ip.ipv6 ip.hdr (ip.pay.take 8) ((ip.pay.drop 8).take 12) (((ip.pay.drop 8).drop 12).take ((ip.pay.drop 8).length - 16)) =
        (ip.pay.drop 8).drop ((ip.pay.drop 8).length - 4) :=
  ⟨by decide +kernel, _, by decide +kernel, rfl, by decide +kernel⟩

/-- An EAPOL frame of 64 bytes to a group address, and one that its lane takes; class 2 alone goes to lane 3. -/
def eapol : List Byte := leBytes 6 1 ++ leBytes 6 2 ++ beBytes 2 0x888E ++ List.replicate 46 0
def eapolFrame : List Byte := eapol ++ fcs eapol
def excDev : Ix9 := rset frameDev Fld.ETH_EXC_CFG 0 (2 ^ 4)
def lane3Pfc : Ix9 := regs dev [(Fld.ETH_PCP_LANE, 0, 3 * 2 ^ 6), (Fld.ETH_PFC_EN, 0, 2 ^ 3)]

theorem witness_FramesPassTheChecksInOrder_accepted :
    (∃ ip, ipView (ethView frame0).etype (ethView frame0).rest = some ip ∧
      rxLane frameDev 0 (fieldBE (ip.pay.drop 8) 0 1) (ethView frame0) ip = 0 ∧ meterAt frameDev (8192 + 8 * 0 + 0) = none ∧
      rxColour (ethView frame0) = .green ∧ num (portOf frameDev 0).rxFill 0 + okFrame.length ≤ shareBytes frameDev 0 0) ∧
    (64 ≤ eapolFrame.length ∧ eapolFrame.length ≤ rget excDev Fld.ETH_CFG_MAX_FRAME 0 ∧
      eapolFrame.take (eapolFrame.length - 4) = eapol ∧ fcs eapol = eapolFrame.drop (eapolFrame.length - 4) ∧
      rflag excDev Fld.ETH_MACSEC_CFG_EN 0 = false ∧ (ethView eapol).etype ≠ 0x8808 ∧ excClass (ethView eapol) = some 4 ∧
      flag (rget excDev Fld.ETH_EXC_CFG 0) 4 = true ∧ flag (fieldBE eapol 0 1) 0 = true ∧
      meterAt excDev (8192 + 8 * 0 + excLane excDev 0 (ethView eapol)) = none ∧ rxColour (ethView eapol) = .green) :=
  ⟨⟨_, rfl, by decide +kernel⟩, by decide +kernel⟩

theorem witness_PausesAndPreemptionFollowTheirTimers_quanta :
    3 < 8 ∧ flag (rget (count lane3Pfc Fld.ETH_RX_PFC 0) Fld.ETH_PFC_EN 0) 3 = true ∧ flag 4 2 = true ∧
    (∀ c < 8, flag 4 c = true → pcpLane (count lane3Pfc Fld.ETH_RX_PFC 0) 0 c = 3) ∧
    (((List.range 8).filter (flag 4)).map (fun c => (([0, 0, 5] : List Nat)[c]?).getD 0)).foldl max 0 ≠ 0 ∧
    (((List.range 8).filter (flag 4)).map (fun c => (([] : List Nat)[c]?).getD 0)).foldl max 0 = 0 := by decide +kernel

/-- Port 0 that pauses lane 3 with 40,000 and with 0 bytes held for it. -/
def pauseDev (fill : Nat) : Ix9 := portDev { pausing := [3], rxFill := [(3, fill)] }

theorem witness_PausesAndPreemptionFollowTheirTimers :
    (isNative dev 0 = false ∧ portExists dev 0 = true ∧
      rget (regs dev [(Fld.ETH_LS_STATUS_LANES, 0, 8)]) Fld.ETH_LS_STATUS_LANES 0 ≠ 0) ∧
    (wrote dev 0 Fld.ETH_GRP_CFG_MODE 0 = true ∧ lanesFitted dev.code 0 ≠ 0) ∧
    (∀ lane < 8, (List.range 8).filter (fun c => flag 255 c && pcpLane dev 0 c == lane) = [] ∨
      flag (rget dev Fld.ETH_PFC_EN 0) lane = false) ∧
    3 ∈ (portOf (pauseDev 0) 0).pausing ∧ pfcReady (pauseDev 0) 0 = true ∧
    num (portOf (pauseDev 0) 0).rxFill 3 + 32768 ≤ pfcLevel (regs (pauseDev 0) [(Fld.LINK_CRED_SHARE, 0, 64 * 2 ^ 24)]) 0 3 ∧
    pfcLevel (pauseDev 5000000) 0 3 < num (portOf (pauseDev 5000000) 0).rxFill 3 + 32768 ∧
    rget (regs dev [(Fld.ETH_PREEMPT_STATUS_VERIFY, 0, 1)]) Fld.ETH_PREEMPT_STATUS_VERIFY 0 = 1 ∧
    (portOf dev 0).pre.attempts < 3 ∧ 3 ≤ (portOf (portDev { pre := { attempts := 3 } }) 0).pre.attempts := by decide +kernel

/-- Group 0 with automatic lane sparing off; 0 over its window threshold. -/
def spareDev (x : Spare) (l : List (Fld × Nat × Nat)) : Ix9 := { regs dev l with net := { spare := [(0, x)] } }
/-- Port 0 up on eight lanes with shedding enabled: dwell 100 µs. -/
def shedDev (low : Nat) : Ix9 :=
  { regs dev [(Fld.ETH_STATUS_UP, 0, 1), (Fld.ETH_LS_EN, 0, 1), (Fld.ETH_LS_DWELL, 0, 1)] with net := { ports := [(0, { shedLow := low })] } }

theorem witness_LanesAreSparedAndShed :
    (7 < 8 ∧ laneInUse dev 0 7 = true ∧ rflag (regs dev [(Fld.ETH_SPARE_CFG_AUTO, 0, 1)]) Fld.ETH_SPARE_CFG_AUTO 0 = true ∧
      spareOf dev 0 = {} ∧ rflag dev Fld.ETH_SPARE_MAP_USED 0 = false ∧
      rflag dev Fld.ETH_LS_STATUS_RETRAINING (lanePort dev 0 7) = false) ∧
    (wrote dev 0 Fld.ETH_SPARE_CTRL_REQ 0 = true ∧ portExists (rset dev Fld.ETH_SPARE_CTRL_LANE 0 7) (lanePort (rset dev Fld.ETH_SPARE_CTRL_LANE 0 7) 0 (7 % 8)) = true ∧
      rflag (rset dev Fld.ETH_SPARE_CTRL_LANE 0 7) Fld.ETH_SPARE_MAP_USED 0 = false ∧ spareOf dev 0 = {} ∧
      rflag (rset dev Fld.ETH_SPARE_CTRL_LANE 0 7) Fld.ETH_LS_STATUS_RETRAINING (lanePort (rset dev Fld.ETH_SPARE_CTRL_LANE 0 7) 0 (7 % 8)) = false) ∧
    (spareOf (spareDev { busy := some 7 } []) 0).busy = some 7 ∧
    (8 ≤ 8 ∧ rflag (regs dev [(Fld.ETH_SPARE_CFG_AUTO, 0, 0)]) Fld.ETH_SPARE_CFG_AUTO 0 = false ∧
      laneInUse (regs dev [(Fld.ETH_SPARE_CFG_AUTO, 0, 0)]) 0 7 = true ∧
      5 ≤ rget (regs dev [(Fld.ETH_SPARE_CFG_AUTO, 0, 0), (Fld.ETH_SPARE_CFG_THRESH, 0, 5)]) Fld.ETH_SPARE_CFG_THRESH 0 ∧
      rget (regs dev [(Fld.ETH_SPARE_CFG_AUTO, 0, 0), (Fld.ETH_SPARE_CFG_THRESH, 0, 5)]) Fld.ETH_SPARE_CFG_THRESH 0 < 6) ∧
    (dev.code < 2 ∧ rflag (shedDev 0) Fld.ETH_LS_EN 0 = true ∧ isNative (shedDev 0) 0 = false ∧ portUp (shedDev 0) 0 = true ∧
      rflag (shedDev 0) Fld.ETH_LS_STATUS_RETRAINING 0 = false ∧ portLanes (shedDev 0) 0 = laneWidth (shedDev 0) (0 / 8) ∧
      max 0 0 * 16 < rget (shedDev 0) Fld.ETH_LS_THRESH 0 * portRate (shedDev 0) 0 ∧
      (rget (shedDev 9) Fld.ETH_LS_DWELL 0 * 10 ≤ (portOf (shedDev 9) 0).shedLow + 1 ∧ 1 < portLanes (shedDev 9) 0 ∧
        minLanes (shedDev 9) 0 ≤ portLanes (shedDev 9) 0 / 2) ∧
      (portOf (shedDev 8) 0).shedLow + 1 < rget (shedDev 8) Fld.ETH_LS_DWELL 0 * 10) ∧
    (portOf (portDev { lsTarget := some 4 }) 0).lsTarget = some 4 ∧
    (spareOf ((List.range 8).foldl (fun d lane => shedQueue d 0 lane)
      (portEvent (updPort (rset (rset (portDev { lsTarget := some 4 }) Fld.ETH_LS_STATUS_RETRAINING 0 0) Fld.ETH_LS_STATUS_LANES 0 4) 0
        (fun x => { x with lsTarget := none, shedLow := 0 })) 0 4 4)) (0 / 8)).wait = none ∧
    (wrote dev 0 Fld.ETH_TS_SEC 0 = true ∧ (portOf (portDev { tsFifo := [(1, 2, 3, 4, 5)] }) 0).tsFifo = (1, 2, 3, 4, 5) :: []) := by
  decide +kernel

/-- Group 5 of function 0 on tile 0, epoch 1, this member Bib 1 of two; and a Heat of it. -/
def ep0 : GroupEp := { bib := 1, n := 2, stageWin := 3, epoch := 1, tag := 42, table := [⟨7, 3, 77⟩, ⟨0xFFFFFF, 0, 0⟩] }
def group0 : Group := { owner := 0, tile := 0, ep := ep0 }
def heatE (slots : List Nat) : Ix9 := { withE rxDev 0 slots with h := { groups := [(5, group0)] } }

theorem witness_HeatEntriesEnterTheEngine : ∀ op ∈ [0x20, 0x21, 0x22, 0x23, 0x24, 0x25, 0x26, 0x27],
    ∃ q e g, startedEntry (heatE [hdr op 5 0 0 0]) op 1 0 = some (q, e) ∧
      look (heatE [hdr op 5 0 0 0]).h.groups (e.object % 4096) = some g ∧ g.owner = q.func ∧ g.tile = q.tile ∧
      startSeq g e = (0, 1) := by
  intro op h
  refine ⟨_, _, group0, startedQ rfl ?_, ?_, rfl, rfl, rfl⟩ <;> revert op <;> decide

theorem witness_HeatEntriesEnterTheEngine_entering :
    look (heatE []).h.groups 5 = some group0 ∧ look group0.recorded 0 = none ∧ tableDown (heatE []) group0 = false := by
  decide +kernel

/-- An OP_GROUP_SET: ACTION in OPFLAGS, Bib 1 of two, window 3, EPOCH 2; its member table in host memory. -/
def groupEnt (action : Nat) : Entry :=
  { ent [hdr 0x28 5 0 0 action, 0, 1 + 2 ^ 16 + 3 * 2 ^ 32 + 2 * 2 ^ 56 + 42 * 2 ^ 64, 0] with bufs := [{ segs := [hostSeg 0 32] }] }
def groupBytes : List Byte := leBytes 16 (7 + 3 * 2 ^ 32 + 77 * 2 ^ 64) ++ leBytes 16 0xFFFFFF
def groupDev (action : Nat) (groups : Tbl Group) : Ix9 :=
  { rxDev with q := { sqs := [(1, sqOf 0 (groupEnt action))] }, h := { groups := groups }
               funcs := [(0, { limit := [(rHEAT, 1)] })]
               c := conns7 ((connIn csREADY).set 0 6 4 4)
               x := { winReady := true, wins := [(3, { v := true, wr := true, pd := 9, rkey := 77, pages := 16384 })] } }

theorem witness_GroupsAreCreatedAdvancedAndDestroyed :
    (∃ q e, startedEntry (groupDev 2 [(5, group0)]) 0x28 1 0 = some (q, e) ∧ e.opflags % 4 = 2 ∧ look (groupDev 2 [(5, group0)]).h.groups (e.object % 4096) = some group0 ∧
      group0.owner = q.func ∧ group0.dying = none) ∧
    (∃ q e, startedEntry (groupDev 0 []) 0x28 1 0 = some (q, e) ∧
      readSegs [] (groupDev 0 []) ((e.bufs.head?.map (·.segs)).getD []) (.ok groupBytes) = .ok groupBytes ∧
      groupCheck (groupDev 0 []) q (e.opflags % 4) none (groupEpOf e groupBytes) = none ∧ e.opflags % 4 = 0 ∧
      quotaAllows (groupDev 0 []) q.func rHEAT 1 = true) ∧
    (∃ q e, startedEntry (groupDev 1 [(5, group0)]) 0x28 1 0 = some (q, e) ∧ e.opflags % 4 = 1 ∧
      groupCheck (groupDev 1 [(5, group0)]) q (e.opflags % 4) (some group0) (groupEpOf e groupBytes) = none) :=
  ⟨⟨_, _, rfl, by decide, rfl, rfl, rfl⟩,
    ⟨_, _, rfl, by decide +kernel, by decide +kernel, by decide, by decide⟩, _, _, rfl, by decide, by decide +kernel⟩

/-- A control message of kind `kind` from Bib 0 for Heat 0 of the group. -/
def ctrlMsg (kind lap a : Nat) : Ctrl := { kind, epoch := 1, tag := 42, seq := 0, lap, sender := 0, a }
/-- A Heat of the group with a transfer to Bib 0 in Lap 3 and multicast transfers both ways. -/
def xferUp : Xfer := { lap := 3, peer := 0, send := true, space := .partial_, lo := 0, hi := 4 }
def xferIn : Xfer := { lap := 9, peer := 0, send := false, space := .result, lo := 0, hi := 4, mc := true, done := true }
def xferOut : Xfer := { lap := 8, peer := 0, send := true, space := .result, lo := 0, hi := 4, mc := true, n := 8 }
def heat0 : Heat := { group := 5, ep := ep0, tile := 0, seq := 0, op := 0x20, hash := 99, xfers := [xferUp, xferIn, xferOut] }
def heatDev (h : Heat) : Ix9 := { rxDev with h := { groups := [(5, group0)], heats := [(heatKey 5 1 0, h)] } }
/-- The hypotheses all clauses share. -/
abbrev reaches (h : Heat) (c : Ctrl) : Prop :=
  openCtrl (heatDev h) ((pkt0 0x11 (Ctrl.encode c)).seal) = (heatDev h, some (0, c)) ∧ ctrlHeat (heatDev h) 0 c = some (heatKey 5 1 0, h)
abbrev reachesHeat (h : Heat) (kind lap a : Nat) : Prop := reaches h (ctrlMsg kind lap a)
/-- `heat0` with its multicast input not done, chunks of it taken, and bytes that landed in slot 7. -/
def markHeat (taken : Tbl (List Byte)) (got : Nat) : Heat :=
  { heat0 with xfers := [{ xferIn with done := false, chunks := taken }], mcGot := [(7, got)] }

theorem witness_ControlMessagesActOnTheirHeat :
    (islandReady (heatDev heat0) (iCOLL 0) = true ∧ heat0.aborted = none ∧ heat0.finished = false ∧ heat0.sentUp = false) ∧
    (reachesHeat heat0 1 3 99 ∧ (∀ x ∈ heat0.xfers, x.mc = true → x.lap ≠ 3) ∧ 99 = heat0.hash ∧ heat0.op ≠ 0x26 ∧
      findAt heat0.xfers (fun x => x.send && x.lap == 3 && x.peer == 0) = some (0, xferUp)) ∧
    (reachesHeat heat0 1 8 99 ∧ xferOut ∈ heat0.xfers ∧ xferOut.mc = true ∧ xferOut.lap = 8) ∧
    (reachesHeat heat0 1 3 98 ∧ 98 ≠ heat0.hash ∧ heat0.op ≠ 0x30) ∧
    reachesHeat heat0 2 0xFFFE 1 ∧ reachesHeat heat0 3 0xFFFF 0 ∧ 0 ∉ heat0.ups ∧
    (reachesHeat { heat0 with sentUp := true } 4 0xFFFF 0 ∧ heat0.decision = none ∧ heat0.fast = false ∧ (ctrlMsg 4 0xFFFF 0).status = 0) ∧
    (reachesHeat { heat0 with decision := some (1, 2) } 5 0xFFFF 0 ∧
      heatAt (heatDev { heat0 with decision := some (1, 2) }) (heatKey 5 1 0) = some { heat0 with decision := some (1, 2) }) ∧
    (reachesHeat heat0 6 9 7 ∧ heat0.xfers.find? (fun x => x.mc && !x.send) = some xferIn ∧ xferIn.done = true) ∧
    (reachesHeat (markHeat [(7, [])] 0) 6 9 7 ∧ ∃ x, (markHeat [(7, [])] 0).xfers.find? (fun x => x.mc && !x.send) = some x ∧
      has x.chunks 7 = true) ∧
    (∃ x, (markHeat [] 4).xfers.find? (fun x => x.mc && !x.send) = some x ∧ x.done = false ∧ has x.chunks 7 = false ∧
      reaches (markHeat [] 4) { ctrlMsg 6 9 7 with b := 4 } ∧ 4 ≤ num (markHeat [] 4).mcGot (7 % 8) ∧
      reaches (markHeat [] 4) { ctrlMsg 6 9 7 with b := 5 } ∧ num (markHeat [] 4).mcGot (7 % 8) < 5) ∧
    (reachesHeat heat0 7 8 0 ∧ findAt heat0.xfers (fun x => x.mc && x.send) = some (2, xferOut) ∧ heat0.ep.peer 0 = some ⟨7, 3, 77⟩ ∧
      0 < xferOut.n ∧ xferOut.n ≤ 0 + 8) := by
  and_intros <;> decide +kernel

def timerHeat : Heat :=
  { heat0 with repeats := 1, aborted := some ⟨ST_HEAT_ABORTED, 1, 0, 3, 0, none, false⟩, repeatTo := [0] }
def queryHeat (n : Nat) : Heat := { heat0 with queries := some n }
def repairHeat : Heat := { heat0 with ep := { ep0 with bib := 0, dataMc := some 4 }, xfers := [xferOut] }

theorem witness_HeatTimersRepeatAndEnd :
    (heatAt (heatDev timerHeat) (heatKey 5 1 0) = some timerHeat ∧ timerHeat.aborted.isSome = true ∧ timerHeat.repeats ≠ 0) ∧
    ((queryHeat 1).queries = some (0 + 1) ∧ (queryHeat 1).tree0.parent (queryHeat 1).ep.bib = some 0 ∧ (queryHeat 0).queries = some 0) ∧
    ({ heat0 with finished := true } : Heat).finished = true ∧
    (repairHeat.xfers.find? (fun x => x.mc && x.send) = some xferOut ∧ repairHeat.ep.dataMc = some 4 ∧ xferOut.n ≠ 0 ∧
      repairHeat.aborted = none ∧ (∃ c ∈ repairHeat.rooted.children repairHeat.ep.bib, (c, 7) ∉ repairHeat.mcFreed) ∧
      ((List.range xferOut.n).filter (fun i => i % 8 == 7)).getLast? = some 7) ∧
    (let h := { heat0 with sentUp := true, windowEnd := [(0xFFFF, 0)] }
     h.finished = false ∧ h.aborted = none ∧ has h.windowEnd 0xFFFF = true ∧ h.sentUp = true ∧ h.decision = none) ∧
    (let h := { heat0 with ep := { ep0 with bib := 0 }, visible := true, windowEnd := [(0xFFFE, 0)] }
     has h.windowEnd 0xFFFE = true ∧ h.sentUp = false ∧ h.visible = true ∧
      (h.tree0.children h.ep.bib).find? (fun b => !h.ups.contains b) = some 1) ∧
    (heat0.finished = false ∧ heat0.aborted = none ∧ 0xFFFD < 0xFFFE ∧ has ({ heat0 with windowEnd := [(0xFFFD, 0)] } : Heat).windowEnd 0xFFFD = true ∧
      ({ heat0 with xfers := [{ xferIn with done := false, lap := 0xFFFD }] } : Heat).xfers.find?
        (fun x => !x.send && !x.done && x.lap == 0xFFFD) = some { xferIn with done := false, lap := 0xFFFD }) := by
  refine ⟨by decide +kernel, by decide +kernel, rfl, ⟨by decide, rfl, by decide, rfl, ⟨1, by decide, by decide⟩, by decide⟩, ?_⟩
  decide +kernel

/-- A sequence object of function 0 on tile 0: one layer, one head, 64 dimensions, format 2, 1,025 tokens, 16 blocks. -/
def seqBytes : List Byte := leBytes 64 (2 * 2 ^ 16 + 1025 * 2 ^ 32 + 16 * 2 ^ 96)
def seqEnt (action : Nat) : Entry := { ent [hdr 0x32 4 0 0 action, 0] with bufs := [{ segs := [hostSeg 0 64] }] }
def seqDev (e : Entry) (seqs : Tbl SeqObj) : Ix9 :=
  { dev with q := { sqs := [(1, sqOf 0 e)] }, funcs := [(0, { limit := [(rSEQ, 1)] })], lm := { maps := [(0, [0])] },
             h := { seqs := seqs, groups := [(5, group0)] } }
def seqObj : SeqObj := seqOf (sqOf 0 (seqEnt 0)) seqBytes

theorem witness_AttentionEntries_objects :
    (∃ q e, startedEntry (seqDev (seqEnt 0) []) 0x32 1 0 = some (q, e) ∧
      look (seqDev (seqEnt 0) []).h.seqs (e.object % 65536) = none ∧
      readSegs [] (seqDev (seqEnt 0) []) ((e.bufs.head?.map (·.segs)).getD []) (.ok seqBytes) = .ok seqBytes ∧
      1 ≤ seqObj.cap ∧ seqObj.cap ≤ 16384 ∧ seqCheck (seqDev (seqEnt 0) []) q none (seqOf q seqBytes) = none ∧ e.opflags % 4 = 0 ∧
      quotaAllows (seqDev (seqEnt 0) []) q.func rSEQ 1 = true) ∧
    (∃ q e, startedEntry (seqDev (seqEnt 1) [(4, seqObj)]) 0x32 1 0 = some (q, e) ∧
      e.opflags % 4 = 1 ∧ look (seqDev (seqEnt 1) [(4, seqObj)]).h.seqs (e.object % 65536) = some seqObj ∧
      seqCheck (seqDev (seqEnt 1) [(4, seqObj)]) q (some seqObj) (seqOf q seqBytes) = none ∧ seqObj.owner = q.func ∧ seqObj.tile = q.tile) ∧
    (∃ q e, startedEntry (seqDev (seqEnt 2) [(4, seqObj)]) 0x32 1 0 = some (q, e) ∧ e.opflags % 4 = 2) :=
  ⟨⟨_, _, rfl, rfl, by decide +kernel⟩, ⟨_, _, rfl, by decide, rfl, by decide +kernel⟩, _, _, rfl, by decide⟩

/-- An attention request on object 4: decode local, prefill local, decode in scatter mode over group 5. -/
def attEnt (op scatter : Nat) : Entry := ent [hdr op 4 0 (2 * 2 ^ 12 + 2 * 2 ^ 16 + scatter * 2 ^ 26) 0, 0, 0, 0, 0]
def groupObj : SeqObj := { seqObj with group := some 5 }

theorem witness_AttentionEntries_requests :
    (∃ q e, startedEntry (seqDev (attEnt 0x30 0) [(4, seqObj)]) 0x30 1 0 = some (q, e) ∧
      look (seqDev e [(4, seqObj)]).h.seqs (e.object % 65536) = some seqObj ∧ seqObj.owner = q.func ∧ seqObj.tile = q.tile ∧
      maraReady (seqDev e [(4, seqObj)]) = true ∧ attGrouped e seqObj = false) ∧
    (∃ q, startedEntry (seqDev (attEnt 0x31 0) [(4, seqObj)]) 0x31 1 0 = some (q, attEnt 0x31 0) ∧ attGrouped (attEnt 0x31 0) seqObj = false) ∧
    (attGrouped (attEnt 0x30 1) groupObj = true ∧ (attEnt 0x30 1).op = 0x30 ∧
      look (seqDev (attEnt 0x30 1) [(4, groupObj)]).h.groups (groupObj.group.getD 0) = some group0 ∧
      startSeq group0 (attEnt 0x30 1) = (0, 1)) ∧
    (∃ q x, startedEntry (seqDev (attEnt 0x31 0) [(4, groupObj)]) 0x31 1 0 = some (q, attEnt 0x31 0) ∧
      attGrouped (attEnt 0x31 0) groupObj = true ∧ startSeq group0 (attEnt 0x31 0) = (0, 1) ∧
      batonStream [] (seqDev (attEnt 0x31 0) []) { groupObj with tokens := 0 } (attOf (attEnt 0x31 0) 0) group0.ep.bib = .inr x) :=
  ⟨⟨_, _, rfl, rfl, by decide +kernel⟩, ⟨_, rfl, by decide⟩,
    ⟨by decide, by decide, rfl, rfl⟩, _, _, rfl, by decide, rfl, rfl⟩

/-- A local request without tokens on object 4: an island has no block row to read. -/
def att0 (done : List Nat) : Att := { attOf (attEnt 0x30 0) 0 with done := done }
def attHeat (done : List Nat) : Heat := { Heat.ofAtt seqObj (att0 done) 1 (attEnt 0x30 0) with data := some [], att := some (att0 done) }

theorem witness_AttentionIslands : ∀ done ∈ [[], [1, 2, 3]],
    ∃ qb p, (attHeat done).att = some (att0 done) ∧ look (seqDev (attEnt 0x30 0) [(4, seqObj)]).h.seqs (att0 done).seq = some seqObj ∧
      attQueries (attHeat done) = some qb ∧ shardAt (attHeat done) (att0 done) = some (0, none) ∧ localBase ≤ localBase ∧
      (attHeat done).finished = false ∧ (attHeat done).aborted = none ∧ (attHeat done).written = false ∧
      (att0 done).done.contains 0 = false ∧ 0 < tilesOf dev.code ∧ (att0 done).shards = [] ∧ look (att0 done).islands 0 = none ∧
      islandPass seqObj (att0 done) (att0 done).tokens seqObj.first (shardRow [] (seqDev (attEnt 0x30 0) [(4, seqObj)]) seqObj (att0 done).layer)
        (queryRows seqObj (att0 done) qb) (islandRows (att0 done).tokens 0)
        { recs := List.replicate (attRows seqObj (att0 done)) (freshRow seqObj.dim) } = .inr p ∧
      ((∃ t < tilesOf dev.code, t ≠ 0 ∧ (att0 done).done.contains t = false) ∨
        ∀ t < tilesOf dev.code, t = 0 ∨ (att0 done).done.contains t = true) := by
  intro done h
  rcases List.mem_cons.1 h with rfl | h
  · exact ⟨[], _, rfl, rfl, rfl, rfl, Nat.le_refl _, rfl, rfl, rfl, rfl, by decide, rfl, rfl, rfl, .inl ⟨1, by decide, by decide, rfl⟩⟩
  · rcases List.mem_cons.1 h with rfl | h
    · exact ⟨[], _, rfl, rfl, rfl, rfl, Nat.le_refl _, rfl, rfl, rfl, rfl, by decide, rfl, rfl, rfl, .inr (by decide)⟩
    · nomatch h

/-- A query header that opens a scatter Heat at a holder of object 4 (R355): tag 0, layer 0, one head, one query. -/
def header0 : List Byte := leBytes 32 (2 * 2 ^ 80)

theorem witness_ScatterHolders :
    look (seqDev (attEnt 0x30 0) [(4, groupObj)]).h.groups 5 = some group0 ∧
    has (seqDev (attEnt 0x30 0) [(4, groupObj)]).h.heats (heatKey 5 1 0) = false ∧
    notStarted group0 { kind := 0, epoch := 1, seq := 0 } = true ∧ present dev uMARATHON = true ∧
    (seqDev (attEnt 0x30 0) [(4, groupObj)]).h.seqs.find? (fun (_, x) => x.group == some 5 && x.tag == fieldLE header0 0 4) =
      some (4, groupObj) ∧
    groupObj.dim = fieldLE header0 5 1 ∧ groupObj.heads = fieldLE header0 6 1 + 1 ∧ fieldLE header0 4 1 < groupObj.layers ∧
    fieldLE header0 12 3 + (fieldLE header0 8 2 % 4096 + 1) ≤ 16777216 := by decide +kernel

/-- Landing memory in the midst of its repairs: stack 1, channel 2, bank 3, row 4, pin 5. -/
def lmDev (l : Lm) : Ix9 := { dev with lm := l }
def repairRegs : Ix9 :=
  regs dev [(Fld.LM_REPAIR_CTRL_CHANNEL, 1, 2), (Fld.LM_REPAIR_CTRL_BANK, 1, 3), (Fld.LM_REPAIR_ROW, 1, 4), (Fld.LM_REPAIR_CTRL_PIN, 1, 5)]

theorem witness_LandingMemoryIsScrubbedAndRepaired :
    ((lmDev { scrub := 0 }).lm.scrub + 1 < unitCount (lmDev { scrub := 0 }) * (unitBytes / 64)) ∧
    (unitCount dev * (unitBytes / 64) ≠ 0 ∧
      (lmDev { scrub := unitCount dev * (unitBytes / 64) - 1 }).lm.scrub + 1 = unitCount dev * (unitBytes / 64)) ∧
    (1 < lmStacks repairRegs ∧ wrote repairRegs 0 Fld.LM_REPAIR_CTRL_ROW_REQ 1 = true ∧ rget repairRegs Fld.LM_REPAIR_CTRL_CHANNEL 1 = 2 ∧
      rget repairRegs Fld.LM_REPAIR_CTRL_BANK 1 = 3 ∧ rget repairRegs Fld.LM_REPAIR_ROW 1 = 4 ∧
      has repairRegs.lm.sparing (rowKey 1 2 3 4) = false ∧ rowKey 1 2 3 4 ∉ repairRegs.lm.remapped ∧
      num (lmDev { rowSpares := [(bankKey 1 2 3, 7)] }).lm.rowSpares (bankKey 1 2 3) < 8) ∧
    look (lmDev { sparing := [(rowKey 1 2 3 4, 2)] }).lm.sparing (rowKey 1 2 3 4) = some 2 ∧
    look (lmDev { sparing := [(rowKey 1 2 3 4, 4)] }).lm.sparing (rowKey 1 2 3 4) = some 4 ∧
    (wrote repairRegs 0 Fld.LM_REPAIR_CTRL_PIN_REQ 1 = true ∧ has repairRegs.lm.steered (chanKey 1 2) = false ∧
      has repairRegs.lm.steering (chanKey 1 2) = false) ∧
    (let l : Lm := { pinErr := [(chanKey 1 2 * 256 + 5, 1024), (5, 0)] }
     (lmDev l).lm.pinErr.filter (fun x => decide (rget (lmDev l) Fld.LM_REPAIR_PIN_THRESH ≤ x.2)) = (chanKey 1 2 * 256 + 5, 1024) :: [] ∧
      (chanKey 1 2 * 256 + 5) / 256 / 16 = 1 ∧ (chanKey 1 2 * 256 + 5) / 256 % 16 = 2) ∧
    has (lmDev { steered := [(chanKey 1 2, 6)] }).lm.steered (chanKey 1 2) = true ∧
    (∀ x ∈ (lmDev { pinErr := [(5, 0)] }).lm.pinErr, x.2 < rget dev Fld.LM_REPAIR_PIN_THRESH) ∧
    look (lmDev { steering := [(chanKey 1 2, (5, 2))] }).lm.steering (chanKey 1 2) = some (5, 2) ∧
    look (lmDev { steering := [(chanKey 1 2, (5, 4))] }).lm.steering (chanKey 1 2) = some (5, 4) ∧
    look (lmDev { zeroing := [(4000, 0)] }).lm.zeroing 4000 = some 0 := by decide +kernel

/-- Channel 3 in state `st` with the work of entry (1, 0). -/
def chan0 : Chan := { sq := 1, slot := 0, func := 0, asid := 0, chain := true }
def chanDev (slots : List Nat) (ch : Chan) (state : Nat) : Ix9 :=
  let d := mapE slots
  setChan { d with stride := [(3, ch)], x := { d.x with leaves := [(xisle (chanTile d 3), [leaf0])] } } 3 state

theorem witness_StrideEntries :
    ∀ x ∈ [[hdr 1 3 0 0 0], [hdr 2 3 0 0 0], [hdr 3 3 0 0 0, 64], [hdr 3 3 0 0 0, 63]],
      ∃ op q e, startedEntry (chanDev x chan0 chRUN) op 1 0 = some (q, e) ∧ chanOfEntry (chanDev x chan0 chRUN) 1 0 = some 3 ∧
        (op = 1 ∨ op = 2 ∨ (op = 3 ∧ flag e.opflags 0 = false ∧ (e.operandAt 1 % 64 = 0 ∨ e.operandAt 1 % 64 ≠ 0))) := by
  intro x h
  refine ⟨(ent x).op, _, _, startedQ rfl rfl, rfl, ?_⟩
  revert x
  decide

/-- A descriptor of 64 bytes to move from 0 to 0 whose V is set, and the channel that reads it at address 0. -/
def descBytes (last : Nat) : List Byte := leBytes 48 (64 * 2 ^ 128 + 2 ^ 320 + last * 2 ^ 322)
def readChan : Chan := { chan0 with next := some 0 }
def endRun : DescRun := { k := 0, addr := some 0, desc := descOf (descBytes 1), started := true, ended := true }
def endChan : Chan := { chan0 with runs := [endRun] }

/-- The one run of an OP_FILL or OP_COPY entry on 64 bytes of host memory, and its channel taken up. -/
def moveRun (op : Nat) : DescRun :=
  { k := 0, addr := none, desc := { descOf (descBytes 1) with op := op }, started := true, src := [hostSeg 0 64], dst := [hostSeg 64 64] }
def moveBase (op : Nat) : Ix9 := chanDev [hdr (op + 1) 3 0 0 0] { chan0 with chain := false, runs := [moveRun op] } chRUN
def moveDev (op : Nat) : Ix9 :=
  updEntry (updChan (moveBase op) 3 (fun ch => { ch with begun := true })) 1 0 (fun e => { e with phase := 1 })

theorem witness_StrideEntries_moves : ∀ op ∈ [0, 1],
    ∃ q e ch, startedEntry (moveBase op) (op + 1) 1 0 = some (q, e) ∧ chanOfEntry (moveBase op) 1 0 = some 3 ∧
      (∃ f, strideFuel (moveDev op) 3 = f + 1) ∧ look (strideStart (moveDev op) 3).stride 3 = some ch ∧
      chanState (strideStart (moveDev op) 3) 3 = chRUN ∧ ch.msg = none ∧ ch.begun = true ∧ movingRun ch = some (moveRun op) ∧
      pieceRoom (moveRun op) = some 64 ∧ (moveRun op).desc.op = op ∧
      sideNext (strideStart (moveDev op) 3) 3 ch (moveRun op) true = (strideStart (moveDev op) 3, .seg (hostSeg 64 64)) ∧
      sideNext (strideStart (moveDev op) 3) 3 ch (moveRun op) false = (strideStart (moveDev op) 3, .seg (hostSeg 0 64)) := by
  intro op h
  refine ⟨_, _, { chan0 with chain := false, runs := [moveRun op], begun := true }, startedQ rfl ?_, ?_⟩
  · revert op
    decide
  · rcases List.mem_cons.1 h with rfl | h
    · exact ⟨rfl, ⟨_, rfl⟩, by decide +kernel⟩
    · rcases List.mem_cons.1 h with rfl | h
      · exact ⟨rfl, ⟨_, rfl⟩, by decide +kernel⟩
      · nomatch h

/-- The segment that a side's translation gave. -/
def segOf (x : Side) : Seg :=
  match x with
  | .seg s => s
  | _ => hostSeg 0 0
def hostSeg0 (d : Ix9) (ch : Chan) (va : Nat) (write : Bool) : Seg := segOf (chanXlate d ch 3 0 0 va write).2
def isRemote (g : Seg) : Bool :=
  match g.phys.target with
  | .remote _ _ _ => true
  | _ => false
theorem not_remote {g : Seg} (h : isRemote g = false) : ∀ n w key, g.phys.target ≠ .remote n w key := by
  intro n w key e
  simp [isRemote, e] at h

theorem witness_StrideDescriptors :
    (∃ d g, look (chanDev [] readChan chRUN).stride 3 = some readChan ∧ chanState (chanDev [] readChan chRUN) 3 = chRUN ∧
      readChan.msg = none ∧ readChan.fin = none ∧ readChan.runs.length < 2 ∧ (∀ r ∈ readChan.runs, r.ended = true) ∧
      chanXlate (chanDev [] readChan chRUN) readChan 3 0 0 0 false = (d, .seg g) ∧ (∀ n w key, g.phys.target ≠ .remote n w key) ∧
      memRead [] d g.phys 48 (.ok (descBytes 1)) = .ok (descBytes 1) ∧ look d.stride 3 = some readChan) ∧
    ((descOf (descBytes 1)).v = true ∧ descMalformed (descOf (descBytes 1)) = false ∧ (descOf (descBytes 1)).last = true ∧
      (descOf (descBytes 0)).v = true ∧ (descOf (descBytes 0)).last = false ∧ (descOf (descBytes 0)).next % 64 = 0) ∧
    (∃ d g e, look (chanDev [] endChan chRUN).stride 3 = some endChan ∧ endChan.runs = endRun :: [] ∧ endRun.addr = some 0 ∧
      endRun.ended = true ∧ endRun.acks = 0 ∧ endRun.back = none ∧ endChan.msg = none ∧ chanState (chanDev [] endChan chRUN) 3 ≠ chPAUSED ∧
      chanXlate (chanDev [] endChan chRUN) endChan 3 0 endRun.desc.tag (0 + 0x30) true = (d, .seg g) ∧
      (∀ n w key, g.phys.target ≠ .remote n w key) ∧ memWrite d g.phys endRun.wb = (e, false)) :=
  ⟨⟨(chanXlate (chanDev [] readChan chRUN) readChan 3 0 0 0 false).1, hostSeg0 (chanDev [] readChan chRUN) readChan 0 false, by decide +kernel, by decide +kernel, rfl, rfl,
      by decide, by decide, by decide +kernel, not_remote (by decide +kernel), by decide +kernel, by decide +kernel⟩,
    by decide +kernel,
    (chanXlate (chanDev [] endChan chRUN) endChan 3 0 0 0x30 true).1, hostSeg0 (chanDev [] endChan chRUN) endChan 0x30 true, _, by decide +kernel, rfl, rfl, rfl, rfl, rfl, rfl,
      by decide +kernel, by decide +kernel, not_remote (by decide +kernel), rfl⟩

/-- Channel 3 of function 0 at work on a descriptor that waits for a request, with one request counted. -/
def waitRun : DescRun := { k := 0, addr := some 0, desc := { descOf (descBytes 1) with waitReq := true }, started := true }
def waitChan : Chan := { chan0 with runs := [waitRun] }
def waitDev : Ix9 := regs (chanDev [] waitChan chRUN) [(Fld.STRIDE_CH_REQS, 3, 1), (Fld.STRIDE_CH_CFG_BURST_LOG2, 3, 24)]

theorem witness_StrideChannelsArePacedAndControlled :
    (∀ n ∈ [65534, 65535], 5 < 0x3F ∧ 3 < 128 ∧
      rget (regs dev [(Fld.STRIDE_CH_CFG_REQ_LINE, 3, 5), (Fld.STRIDE_CH_REQS, 3, n)]) Fld.STRIDE_CH_CFG_REQ_LINE 3 = 5 ∧
      rget (regs dev [(Fld.STRIDE_CH_CFG_REQ_LINE, 3, 5), (Fld.STRIDE_CH_REQS, 3, n)]) Fld.STRIDE_CH_REQS 3 = n) ∧
    (lineExists dev 0 = true ∧ lineExists dev 16 = true ∧ lineExists dev 33 = true ∧ lineExists dev 34 = true) ∧
    (15 < 16 ∧ flag (rget dev Fld.STRIDE_DREQ_POL) 15 ≠ true) ∧
    (look waitDev.stride 3 = some waitChan ∧ chanState waitDev 3 = chRUN ∧ rget waitDev Fld.STRIDE_CH_REQS 3 ≠ 0 ∧
      movingRun waitChan = some waitRun ∧ waitRun.desc.waitReq = true ∧ waitRun.burst = none ∧
      8 ≤ rget waitDev Fld.STRIDE_CH_CFG_BURST_LOG2 3 ∧ rget waitDev Fld.STRIDE_CH_CFG_BURST_LOG2 3 ≤ 24) ∧
    (regReach waitDev 0 = true ∧ 3 < 128 ∧ level40 waitDev = false ∧
      rget (regs waitDev [(Fld.STRIDE_CH_CFG_OWNER, 3, 0)]) Fld.STRIDE_CH_CFG_OWNER 3 = 0 ∧
      chanState (chanDev [] chan0 chPAUSED) 3 = chPAUSED ∧ chanState (chanDev [] chan0 chPAUSING) 3 = chPAUSING ∧
      rflag (regs waitDev [(Fld.STRIDE_CH_CFG_IX4_STOP, 3, 1)]) Fld.STRIDE_CH_CFG_IX4_STOP 3 = true) ∧
    (look (chanDev [] chan0 chPAUSED).stride 3 = some chan0 ∧ chan0.chain = true ∧ (∀ r ∈ chan0.runs, r.resv = false) ∧
      level40 (rset waitDev Fld.BEHAV_LEVEL_CURRENT 0 0x40) = true) ∧
    (look (chanDev [] chan0 chPAUSING).stride 3 = some chan0 ∧ chan0.msg = none ∧ (∀ r ∈ waitChan.runs, r.ended = false) ∧
      rflag (setChan (chanDev [] chan0 chPAUSING) 3 chPAUSED) Fld.STRIDE_CH_STATUS_STOP_PENDING 3 = false) := by decide +kernel

/-- Queue 1 of function 0 (its admin queue where `adm`) with the started entry `e`. -/
def withQ (d : Ix9) (adm : Bool) (e : Entry) : Ix9 := { d with q := { d.q with sqs := [(1, { sqOf 0 e with admin := adm })] } }
def keyEnt (op object flags oparg1 : Nat) : Entry := { ent [hdr op object 4 oparg1 flags] with bufs := [{ segs := [hostSeg 0 48] }] }
/-- Slot 2 holds tenant key 99 of function 0; connection 7 is encrypted. -/
def keyDev (state : Nat) (e : Entry) : Ix9 :=
  { withQ dev false e with
    ciph := { drk := some 1, slots := [(2, (99, 0))] }
    c := conns7 { ((connIn state).set 0 8 8 1) with epAcked := true } }
/-- The lookup finds a queue and an entry, and they meet `f`. -/
def sat (p : Option (Sq × Entry)) (f : Sq → Entry → Bool) : Bool :=
  match p with
  | some (q, e) => f q e
  | none => false

theorem witness_KeysAreBoundRotatedAndRetired :
    sat (startedEntry (keyDev csRESET (keyEnt 0x50 3 0 0)) 0x50 1 0) (fun _ e =>
      decide (keyKind e = 0 ∧ readBuf [] (keyDev csRESET (keyEnt 0x50 3 0 0)) 1 0 0 e (.ok (leBytes 48 5)) =
          (keyDev csRESET (keyEnt 0x50 3 0 0), some (leBytes 48 5)) ∧ (keyDev csRESET (keyEnt 0x50 3 0 0)).ciph.drk = some 1 ∧
        has (keyDev csRESET (keyEnt 0x50 3 0 0)).ciph.slots e.object = false)) = true ∧
    sat (startedEntry (keyDev csINIT (keyEnt 0x50 7 1 0)) 0x50 1 0) (fun q e =>
      decide (keyKind e = 1 ∧ keyConnOk (keyDev csINIT (keyEnt 0x50 7 1 0)) q e.object = true ∧
        (connOf (keyDev csINIT (keyEnt 0x50 7 1 0)) e.object).state = csINIT ∧
        (connOf (keyDev csINIT (keyEnt 0x50 7 1 0)) e.object).enc = true)) = true ∧
    sat (startedEntry (keyDev csREADY (keyEnt 0x50 0x80 2 0)) 0x50 1 0) (fun _ e =>
      decide (2 ≤ keyKind e ∧ readBuf [] (keyDev csREADY (keyEnt 0x50 0x80 2 0)) 1 0 0 e (.ok (leBytes 48 5)) =
          (keyDev csREADY (keyEnt 0x50 0x80 2 0), some (leBytes 48 5)))) = true ∧
    sat (startedEntry (keyDev csREADY (keyEnt 0x51 7 0 0)) 0x51 1 0) (fun q e =>
      decide (keyKind e = 0 ∧ keyConnOk (keyDev csREADY (keyEnt 0x51 7 0 0)) q e.object = true ∧
        (connOf (keyDev csREADY (keyEnt 0x51 7 0 0)) e.object).epAcked = true)) = true ∧
    sat (startedEntry (keyDev csREADY (keyEnt 0x51 0x80 1 0)) 0x51 1 0) (fun _ e =>
      decide (keyKind e ≠ 0)) = true ∧
    sat (startedEntry (keyDev csREADY (keyEnt 0x52 2 0 0)) 0x52 1 0) (fun _ e =>
      decide (keyKind e = 0 ∧ slotUsers (keyDev csREADY (keyEnt 0x52 2 0 0)) e.object = [])) = true ∧
    sat (startedEntry (keyDev csREADY (keyEnt 0x52 2 4 0)) 0x52 1 0) (fun _ e =>
      decide (keyKind e = 0 ∧ flag e.opflags 2 = true)) = true ∧
    sat (startedEntry (keyDev csREADY (keyEnt 0x52 0x80 1 0)) 0x52 1 0) (fun _ e =>
      decide (keyKind e ≠ 0 ∧ (saOf e).2.1 = true ∧ (saOf e).2.2.2 ≠ (portOf (keyDev csREADY (keyEnt 0x52 0x80 1 0)) (saOf e).1).txAn)) = true :=
  by decide +kernel

/-- Whether a blob opens: never one of another VERSION; else as the free function has it, and both clauses are met by a value. -/
theorem witness_KeysAreBoundRotatedAndRetired_blob : openBlob 1 (leBytes 48 5) = none ∧
    ∀ b : List Byte, (b[4]?).getD 0#8 = 1#8 → openBlob 1 b = Config.aesKwOpen (sealKey 1 (b.take 8)) (b.drop 8) :=
  ⟨rfl, fun b h => by simp [openBlob, h]⟩

/-- Channel `c` carries a request to the firmware whose words are these. -/
def fwDev (c : Nat) (ws : List Nat) : Ix9 :=
  (List.range ws.length).foldl (fun d i => rset d Fld.MBOX_DATA (c * 16 + i) (ws.getD i 0))
    (regs dev [(Fld.MBOX_STATUS_CLAIMED, c, 1), (Fld.MBOX_STATUS_BUSY, c, 1)])
/-- The Vault's entropy source and generator passed their tests. -/
def drbgOk (d : Ix9) : Ix9 := regs d [(Fld.VAULT_STATUS_ES_OK, 0, 1), (Fld.VAULT_STATUS_DRBG_OK, 0, 1)]
def vaultDev : Ix9 := { drbgOk (fwDev 32 [1, 2]) with ciph := { drk := some 1 } }
def kfDev : Ix9 := { drbgOk dev with
  c := conns7 ((connIn csREADY).set 0 8 8 1)
  ciph := { drk := some 1, slots := [((connIn csREADY).tenant, (99, 0))], fetching := [(0, ⟨7, 1, 0, true⟩)] } }

theorem witness_VaultFetchesSealsAndTestsItself :
    (fwRequest vaultDev 32 0x01 = true ∧
      ((List.range 8).foldl (fun d i => rset d Fld.MBOX_DATA (32 * 16 + 2 + i) 0) vaultDev).ciph.drk = some 1 ∧
      vaultReady ((List.range 8).foldl (fun d i => rset d Fld.MBOX_DATA (32 * 16 + 2 + i) 0) vaultDev) = true) ∧
    ((0, KeyId.mk 7 1 0 true) ∈ kfDev.ciph.fetching ∧
      (rootKey (updCiph kfDev (fun c => { c with fetching := [] })) (connOf kfDev 7)).isSome = true ∧
      vaultReady (updCiph kfDev (fun c => { c with fetching := [] })) = true) ∧
    (connOf { dev with c := conns7 { connIn csREADY with tagFails := (3, 0) } } 7).tagFails.1 ≠ 0 ∧
    rflag (drbgOk dev) Fld.VAULT_STATUS_ES_OK = true ∧
    (rflag (rset dev Fld.VAULT_STATUS_ES_OK 0 0) Fld.VAULT_STATUS_ES_OK = false ∧
      islandReady (rset dev Fld.VAULT_STATUS_ES_OK 0 0) 0 = true) := by decide +kernel

/-- OP_QUOTA_SET of function 1: RES, SUB in the header, VALUE in slot 1. -/
def quotaEnt (res sub val : Nat) : Entry := ent [hdr 0x65 1 res sub 0, val]
def quotaSetDev (adm : Bool) (res sub val : Nat) : Ix9 := withQ dev adm (quotaEnt res sub val)
def quotaGetDev : Ix9 := withQ dev true { ent [hdr 0x66 1 0 0 0, 0] with bufs := [{ segs := [hostSeg 0 256] }] }
def resettingDev (paths : Tbl PathSt) : Ix9 := { dev with funcs := [(16, { resetting := true })], paths := paths }
/-- A path with a write for a fault record of function 16 not yet acknowledged. -/
def faultPaths : Tbl PathSt := [(0, { writing := [.fault 16] })]

theorem witness_QuotasAndFunctionResets :
    sat (startedEntry (quotaSetDev true rSQ 0 0) 0x65 1 0) (fun q e =>
      decide (quotaCheck (quotaSetDev true rSQ 0 0) q e = none ∧ e.qsRes ≠ rWEIGHT)) = true ∧
    sat (startedEntry (quotaSetDev true rWEIGHT 1 4) 0x65 1 0) (fun q e =>
      decide (quotaCheck (quotaSetDev true rWEIGHT 1 4) q e = none ∧ e.qsRes = rWEIGHT)) = true ∧
    sat (startedEntry (quotaSetDev false rSQ 0 0) 0x65 1 0) (fun q e =>
      decide (quotaCheck (quotaSetDev false rSQ 0 0) q e = some (ST_BAD_ENTRY, 0xA0, 0))) = true ∧
    sat (startedEntry quotaGetDev 0x66 1 0) (fun q e =>
      decide (q.admin = true ∧ q.func = 0 ∧ funcExists (e.object % 2 ^ 10) = true ∧
        (writeSegs quotaGetDev e.segs (quotaRecords quotaGetDev (e.object % 2 ^ 10))).2 = false)) = true ∧
    (funcExists 16 = true ∧ (funcOf dev 16).resetting = false) ∧
    (wrote dev 0 Fld.FUNC_RESET_GO 0 = true ∧ rflag dev Fld.FUNC_RESET_STATUS_BUSY = false ∧ funcExists 16 = true) ∧
    (hostRunning dev = true ∧ 16 ≠ fIF0) ∧
    (hostRunning { dev with io := { vfEnable := [0] } } = true ∧ 0 ∈ ({ dev with io := { vfEnable := [0] } } : Ix9).io.vfEnable) ∧
    ((funcOf (resettingDev faultPaths) 16).resetting = true ∧ funcWrites (resettingDev faultPaths) 16 = true) ∧
    ((funcOf (resettingDev []) 16).resetting = true ∧ funcWrites (resettingDev []) 16 = false ∧
      rget (updFunc (funcZero (funcDiscard (rset (resettingDev []) Fld.FUNC_RESET_ID 0 16) 16) 16) 16 (fun fn => { fn with resetting := false }))
        Fld.FUNC_RESET_ID = 16 ∧
      rget (updFunc (funcZero (funcDiscard (resettingDev []) 16) 16) 16 (fun fn => { fn with resetting := false })) Fld.FUNC_RESET_ID ≠ 16) :=
  by decide +kernel

/-- Channel 3 of function 0, claimed, and a request of function 0 to function 4 (IF0) in it. -/
def mboxDev : Ix9 := regs dev [(Fld.MBOX_STATUS_CLAIMED, 3, 1), (Fld.MBOX_STATUS_BUSY, 3, 1), (Fld.MBOX_CTRL_TARGET, 3, 1)]

/-- Service cores that run; a management island that is down. -/
def svcUp : Ix9 := rset dev Fld.SVC_STATUS_RUNNING 0 0xFFFFFFFF
def mgmtDown : Ix9 := { dev with ready := dev.ready.filter (· != 0) }

theorem witness_MailboxRequestsRunTheirCourse :
    mboxReach dev 0 3 = true ∧
    (mboxIsTarget (mboxClaim dev 0 3) 0 3 = false ∧ mboxOwner (mboxClaim dev 0 3) 3 = 0 ∧ mboxBusy (mboxClaim dev 0 3) 3 = false) ∧
    (∀ t ∈ [0, 1], mboxTarget (rset (rset (mboxClaim dev 0 3) Fld.MBOX_CTRL_IRQ 3 1) Fld.MBOX_CTRL_TARGET 3 t) 3 = t ∧
      mboxReady (rset (rset (mboxClaim svcUp 0 3) Fld.MBOX_CTRL_IRQ 3 1) Fld.MBOX_CTRL_TARGET 3 t) t = true) ∧
    rflag (rset (rset (rset (mboxClaim dev 0 3) Fld.MBOX_CTRL_IRQ 3 1) Fld.MBOX_CTRL_TARGET 3 0) Fld.MBOX_STATUS_BUSY 3 1)
      Fld.FW_STATUS_ACTIVATING = false ∧
    (mboxReach mgmtDown 0 3 = true ∧ mboxOwner (mboxClaim mgmtDown 0 3) 3 = 0 ∧
      mboxReady (rset (rset (mboxClaim mgmtDown 0 3) Fld.MBOX_CTRL_IRQ 3 1) Fld.MBOX_CTRL_TARGET 3 0) 0 = false) ∧
    (mboxReach mboxDev fIF0 3 = true ∧ mboxIsTarget mboxDev fIF0 3 = true) ∧
    (mboxReach (fwDev 3 [0x55]) 0 3 = true ∧ fwAsked (fwDev 3 [0x55]) 3 = true ∧ fwKnown (mboxWord (fwDev 3 [0x55]) 3 0) = false) ∧
    (3 < 64 ∧ mboxBusy mboxDev 3 = true) := by decide +kernel

def logDev : Ix9 := { fwDev 32 [0x100, 0] with rcv := { log := [(1, 2, 3)] } }
/-- A context entry of ASID 8 of function 4 in IF0's landing space, V 0. -/
def ctxCells : List Host.Cell := [(2, 4)]
def if0Dev : Ix9 :=
  { regs (fwDev 3 [0x10, 0, 8, 0, 0]) [(Fld.MBOX_STATUS_OWNER, 3, fIF0)] with
    nvm := { asids := (8, 8) }, lm := { maps := [(fIF0, [0])] } }

theorem witness_FirmwareAnswersItsCommands :
    fwRequest (fwDev 3 [0x02]) 3 0x02 = true ∧
    (fwRequest logDev 32 0x100 = true ∧ logDev.rcv.log[mboxWord logDev 32 1]? = some (1, 2, 3)) ∧
    (fwRequest (fwDev 32 [0x110, 0, 0, 0, 512]) 32 0x110 = true ∧ mboxWord (fwDev 32 [0x110, 0, 0, 0, 512]) 32 4 ≤ 2 ^ 23 ∧
      memRead [] (fwDev 32 [0x110, 0, 0, 0, 512]) {} 512 (.ok (leBytes 512 7)) = .ok (leBytes 512 7)) ∧
    (fwRequest (rset (fwDev 32 [0x111]) Fld.FW_STATUS_STAGED 0 1) 32 0x111 = true ∧
      rflag (rset (fwDev 32 [0x111]) Fld.FW_STATUS_STAGED 0 1) Fld.FW_STATUS_STAGED = true) ∧
    fwRequest (fwDev 32 [0x112]) 32 0x112 = true ∧
    (fwRequest if0Dev 3 0x10 = true ∧ mboxOwner if0Dev 3 = fIF0 ∧ flag (mboxWord if0Dev 3 1) 0 = false ∧
      if0Dev.nvm.asids.1 ≤ mboxWord if0Dev 3 2 ∧ mboxWord if0Dev 3 2 < if0Dev.nvm.asids.1 + if0Dev.nvm.asids.2 ∧
      lmRead ctxCells if0Dev fIF0 (mboxWord if0Dev 3 3 + mboxWord if0Dev 3 4 * 2 ^ 32) 32 = .ok (leBytes 32 (4 * 2 ^ 16)) ∧
      bits (leNat (leBytes 32 (4 * 2 ^ 16))) 25 16 = fIF0) := by decide +kernel

/-- An image of kind `kind` with this LEVELS and no payload, and a device that trusts its signing key and runs slot `run`. -/
def imageBytes (kind levels : Nat) : List Byte := leBytes 512 (0x39524C4B + kind * 2 ^ 32 + levels * 2 ^ 128)
def imageDev (kind run : Nat) : Ix9 :=
  { rset dev Fld.FW_STATUS_RUNNING 0 run with nvm := { imageKey := Config.hash (((imageBytes kind 7).drop 0x40).take 97) } }

/-- Whether an image verifies: never one of another kind; else as the free function has it, and every clause is met by a value. -/
theorem witness_FirmwareAnswersItsCommands_image :
    imageOk (imageDev 1 0) 1 (imageBytes 2 7) = false ∧
    (∀ kind ∈ [1, 2], imageOk (imageDev kind 0) kind (imageBytes kind 7) =
      Config.verify (imageDev kind 0).nvm.imageKey ((imageBytes kind 7).take 0xC0) (((imageBytes kind 7).drop 0xC0).take 96)) ∧
    hasLevel (leNat (((imageBytes 1 7).drop 0x10).take 4)) 0x40 = true ∧ hasLevel (leNat (((imageBytes 1 0).drop 0x10).take 4)) 0x40 = false ∧
    otherSlot (imageDev 1 1) = 0 ∧ otherSlot (imageDev 1 0) ≠ 0 := by
  refine ⟨?_, ?_, by decide +kernel⟩
  · have h : leNat (((imageBytes 2 7).drop 4).take 4) = 2 := by decide +kernel
    simp [imageOk, h]
  · intro kind h
    have hs : leNat ((imageBytes kind 7).take 4) = 0x39524C4B ∧ leNat (((imageBytes kind 7).drop 4).take 4) = kind ∧
        leNat (((imageBytes kind 7).drop 0x14).take 4) = 0 ∧ 0x200 ≤ (imageBytes kind 7).length := by
      revert kind
      decide +kernel
    simp [imageOk, hs, imageDev]

theorem witness_ManagementIslandActivatesAndRestarts :
    (({ regs dev [(Fld.FW_STATUS_ACTIVATING, 0, 1)] with boot := { activate := some 1 } } : Ix9).boot.activate = some 1 ∧
      rflag { regs dev [(Fld.FW_STATUS_ACTIVATING, 0, 1)] with boot := { activate := some 1 } } Fld.FW_STATUS_ACTIVATING = true) ∧
    (islandReady dev 0 = true ∧ rflag dev Fld.FW_STATUS_ACTIVATING = false) ∧
    ({ dev with boot := { mgmtEvent := some 2 } } : Ix9).boot.mgmtEvent = some 2 := by decide +kernel

/-- A device whose service cores wait for their image; an image of no payload; a transmit record of 64 bytes at offset 0. -/
def svcDev : Ix9 := { dev with boot := { svcWait := true, stage := 2 } }
def txDev : Ix9 := { dev with io := { dev.io with excTaken := 128 }, lm := { maps := [(fIF0, [0])] } }
/-- A transmit ring of this PROD, nothing of it taken. -/
def takeDev (prod : Nat) : Ix9 := { rset dev Fld.EXC_TX_PROD 0 prod with lm := { maps := [(fIF0, [0])] } }
def hartDev : Ix9 := rset { dev with lm := { maps := [(fIF0, [0])] } } Fld.SVC_STATUS_RUNNING 0 0xFFFFFFFF

theorem witness_ServiceHartsRunAndTransmit :
    (wrote dev 0 Fld.SVC_CTRL_RESTART 0 = true ∧ unitReady dev uSVC = true ∧ 1 % 2 ^ tilesOf dev.code ≠ svcAll dev ∧
      15 % 2 ^ tilesOf dev.code = svcAll dev) ∧
    (svcDev.boot.svcWait = true ∧ 2 ≤ svcDev.boot.stage ∧ (funcOf svcDev fIF0).resetting = false ∧
      (stacksOf svcDev.code = 0 ∨ unitReady svcDev (uHBM 0) = true) ∧
      ((leBytes 512 0).drop 0x200).length + 0 ≤ svcSpace { svcDev with boot := { svcDev.boot with svcWait := false } }) ∧
    (hartRuns hartDev 0 = true ∧ (∃ p, hartPlace hartDev 0 1 = some p ∧ (memRead [] hartDev p 1 (.ok [0]) = .ok [0]) ∧
      (memWrite hartDev p [1]).2 = false) ∧
      hartPlace hartDev (2 ^ 60) 1 = none) ∧
    (funcOf dev fIF0).resetting = false ∧
    (rget txDev Fld.EXC_TX_CONS ≠ txDev.io.excTaken ∧ excTxWaits txDev 0 = false ∧ excTxHead [] txDev 0 = some 0 ∧ flag 0 31 = false ∧
      look txDev.net.txTimes 0 = none ∧
      (0 + excTxLen (rset (lmWrite txDev fIF0 0 (leBytes 8 (setBit 0 30 true))).1 Fld.EXC_TX_PROD 0 128) 0 0) % 2 ^ 32 ≠ 128) ∧
    ((0 + excTxLen (takeDev 64) 0 0) % 2 ^ 32 = rget (takeDev 64) Fld.EXC_TX_PROD ∧ excTxHead [] (takeDev 64) 0 = some 0 ∧
      (takeDev 64).io.excTaken = 0 ∧ excTxLen (takeDev 64) 0 0 ≤ (rget (takeDev 64) Fld.EXC_TX_PROD + 2 ^ 32 - 0) % 2 ^ 32 ∧
      0 < (rget (takeDev 64) Fld.EXC_TX_PROD + 2 ^ 32 - 0) % 2 ^ 32 ∧ rget (takeDev 0) Fld.EXC_TX_PROD = (takeDev 0).io.excTaken) :=
  ⟨by decide +kernel, by decide +kernel, ⟨by decide +kernel, ⟨{ target := .landing, func := fIF0 }, by decide +kernel, by decide +kernel, by decide +kernel⟩, by decide +kernel⟩,
    by decide +kernel, by decide +kernel⟩

def openDev : Ix9 := { quotaE [] with mon := { unlocked := true } }
def nonceDev : Ix9 := { dev with mon := { nonce := some 5 } }

theorem witness_MonitorCommandsAnswer :
    sbListens dev = true ∧
    (1 ≤ 2 ∧ 2 ≤ 256 ∧ ∀ i < 2, sbAddr dev (0 + 4 * i) = none) ∧
    (24 < 25 ∧ present dev 24 = true) ∧
    (3 < 4 ∧ islandReady dev (iSVC 3) = true) ∧
    (3000000 ∈ [115200, 230400, 460800, 921600, 1000000, 1500000, 2000000, 3000000]) ∧
    (sbListens openDev = true ∧ openDev.mon.unlocked = true ∧ sbAddr openDev 0 = none ∧ (∃ q, sqAt openDev 1 = some q) ∧ 3 < tilesOf openDev.code) ∧
    (dev.nvm.debug = false ∧ dev.mon.unlocked = false) ∧
    (openDev.now + 1000 * 5 < 2 ^ 64 ∧ funcExists 16 = true ∧ rflag openDev Fld.FUNC_RESET_STATUS_BUSY = false ∧ 6 < 7) ∧
    (nonceDev.mon.lockout = false ∧ (leBytes 96 0).length = 96 ∧ 1440 ≤ 1440 ∧ nonceDev.mon.nonce = some 5 ∧
      (Config.verify nonceDev.nvm.unlockKey (unlockText nonceDev 5 1440) (leBytes 96 0) = true ∨
        Config.verify nonceDev.nvm.unlockKey (unlockText nonceDev 5 1440) (leBytes 96 0) = false)) :=
  ⟨by decide +kernel, by decide +kernel, by decide +kernel, by decide +kernel, by decide, ⟨by decide +kernel, rfl, by decide +kernel, ⟨_, rfl⟩, by decide +kernel⟩,
    by decide +kernel, by decide +kernel, by decide, rfl, by decide, rfl, Bool.eq_false_or_eq_true _⟩

def hangDev : Ix9 := { dev with q := { sqs := [(1, { func := 0, ring := { log2 := 6 }, lim := 2, consumed := 1 })] } }
def due1 : Due := { level := 1, target := 1 }
def resetDev (left : List (Nat × Nat)) : Ix9 := { dev with rcv := { resets := [{ due := due1, left := left }] } }

theorem witness_ErrorsAndResetRequestsAreTaken :
    (0 < tilesOf hangDev.code ∧ pendingWork hangDev (.engine 0 0) = true) ∧
    ((∃ q, sqAt hangDev 1 = some q) ∧ pendingWork hangDev (.queue 1) = true) ∧
    (∃ i, (fittedIslands hangDev.code).contains i = true ∧ pendingWork hangDev (.island i) = true) ∧
    ((fittedIslands dev.code).contains 12 = true ∧ (fittedIslands dev.code).contains 31 = true ∧
      (fittedIslands dev.code).contains 0 = true ∧ (fittedIslands dev.code).contains 11 = true) ∧
    (wrote dev 0 Fld.ENG_RESET_GO 0 = true ∧ wrote dev 0 Fld.QUEUE_RESET_GO 0 = true ∧ wrote dev 0 Fld.RESET_CTRL_WARM 0 = true ∧
      wrote dev 0 Fld.RESET_CTRL_COLD 0 = true) ∧
    (∃ r, (resetDev []).rcv.resets.find? (fun r => r.due.level == 1 && r.due.target == 1) = some r ∧
      ∀ x ∈ r.left, stillRuns (resetDev []) x = false) :=
  ⟨by decide +kernel, ⟨⟨_, rfl⟩, by decide +kernel⟩, ⟨12, by decide +kernel⟩, by decide +kernel, by decide +kernel, { due := due1 }, by decide +kernel, by decide⟩

def downDev : Ix9 := rset dev Fld.PCIE_LINK_STATUS_DL_UP 0 0
def evacDev (v : Evac) : Ix9 := { dev with rcv := { evac := some v } }
def bankDev : Ix9 := { dev with rcv := { bank0 := { armed := true, units := [uMGMT] } } }

theorem witness_HostLossPhotoFinishAndEvacuation :
    (onlyCold { dev with boot := { dev.boot with perstLow := true } } = false ∧
      rflag (rset dev Fld.RESET_CFG_PERST_WARM 0 1) Fld.RESET_CFG_PERST_WARM = true ∧
      rflag (rset dev Fld.RESET_CFG_PERST_WARM 0 0) Fld.RESET_CFG_PERST_WARM = false ∧ islandReady dev 7 = true) ∧
    ({ dev with boot := { hold := true } } : Ix9).boot.hold = true ∧
    (rflag dev Fld.PCIE_LINK_STATUS_DL_UP 0 = true ∧
      rflag (errorAt dev { unit := uHOST, code := 0x08, level := 2, island := 7 } none) Fld.PCIE_LINK_STATUS_DL_UP 0 = true) ∧
    rflag dev Fld.HOST_STATUS_HOST_UP ≠ !rflag dev Fld.HOST_STATUS_HOST_UP ∧
    wrote dev 0 Fld.HOST_HB 0 = true ∧
    (rget (regs dev [(Fld.HOSTLL_CFG_HB_WINDOW, 0, 5), (Fld.HOST_STATUS_HOST_UP, 0, 1)]) Fld.HOSTLL_CFG_HB_WINDOW ≠ 0 ∧
      rflag (regs dev [(Fld.HOSTLL_CFG_HB_WINDOW, 0, 5), (Fld.HOST_STATUS_HOST_UP, 0, 1)]) Fld.HOST_STATUS_HOST_UP = true) ∧
    (islandReady (pathLost downDev .host) 7 = true ∧ (pathLost downDev .host).boot.perstLow = false) ∧
    (wrote dev 0 (photoFld 0 Fld.PHOTO_CTRL_ARM0 Fld.PHOTO_CTRL_ARM1) 0 = true ∧ wrote dev 0 (photoFld 1 Fld.PHOTO_CTRL_ARM0 Fld.PHOTO_CTRL_ARM1) 0 = true ∧
      (bankOf bankDev 0).armed = true ∧ (bankOf bankDev 0).units = [uMGMT] ∧ unitReady bankDev uMGMT = true) ∧
    (wrote dev 0 Fld.EVAC_CTRL_GO 0 = true ∧ evacCause (rset dev Fld.EVAC_CTRL_MODE 0 0) 0 0 false = some 0x01 ∧
      evacCause (rset dev Fld.EVAC_CTRL_MODE 0 0) 0 1 false = none ∧ evacCause (rset dev Fld.EVAC_CTRL_MODE 0 1) 0 1 true = some 0x05 ∧
      evacCause (regs dev [(Fld.EVAC_CTRL_MODE, 0, 1), (Fld.EVAC_STATUS_EVACUATED, 0, 1)]) 0 1 true = none) ∧
    (evacDev { src := 0, dst := 1, back := false }).rcv.evac = some { src := 0, dst := 1, back := false } ∧
    ∃ v, (evacDev { src := 0, dst := 1, back := false, drained := true, blocks := [3], moving := some 3 }).rcv.evac = some v ∧
      v.moving = some 3 ∧ v.blocks = 3 :: [] :=
  ⟨by decide +kernel, rfl, by decide +kernel, by cases rflag dev Fld.HOST_STATUS_HOST_UP <;> decide, by decide +kernel, by decide +kernel,
    by decide +kernel, by decide +kernel, by decide +kernel, rfl, _, rfl, rfl, rfl⟩

def bootDev (b : Boot) : Ix9 := { dev with boot := b }

theorem witness_ResetsAndBringUpGoTheirSteps :
    ((bootDev {}).boot.pwrOk = false ∧ (bootDev {}).boot.standby = 0) ∧
    (dev.boot.pwrOk = true ∧ dev.boot.standby = 0) ∧
    ((bootDev { pwrOk := true, stage := 1 }).boot.stage = 1 ∧ (bootDev { pwrOk := true, stage := 1 }).boot.hold = false ∧
      onlyCold (bootDev { pwrOk := true, stage := 1 }) = false ∧ (bootDev { pwrOk := true, stage := 1 }).boot.scan = false ∧
      slotBoots (bootDev { pwrOk := true, stage := 1 }) ((bootDev { pwrOk := true, stage := 1 }).nvm.boot % 2) = true) ∧
    (dev.boot.stage = 2 ∧ onlyCold dev = false ∧ dev.boot.scan = false ∧ present dev (uNETGRP 0) = true ∧ (uNETGRP 0) ≠ uMGMT ∧ (uNETGRP 0) ≠ uSVC ∧
      (uNETGRP 0) ∉ dev.boot.failed ∧ (unitIslands dev.code (uNETGRP 0)).filter (fun i => !dev.off.contains i) ≠ [] ∧
      (∃ i ∈ (unitIslands dev.code (uNETGRP 0)).filter (fun i => !dev.off.contains i), islandReady { dev with ready := [0] } i = false) ∧
      dev.rcv.resets = [] ∧ (uNETGRP 0) ≠ uCIPHER) ∧
    islandReady { dev with ready := [0] } 7 = false ∧
    ((bootDev { pwrOk := false, standby := 3 }).boot.standby = 3 ∧ (bootDev { pwrOk := false, standby := 3 }).boot.pwrOk = false ∧
      (bootDev { pwrOk := true, standby := 3 }).boot.pwrOk = true) ∧
    (present dev uCIPHER = true ∧ uCIPHER ≠ uMGMT ∧ uCIPHER ≠ uSVC ∧
      ∃ i ∈ (unitIslands dev.code uCIPHER).filter (fun i => !dev.off.contains i), islandReady { dev with ready := [0] } i = false) ∧
    ((funcOf (updFunc dev 0 (fun fn => { fn with msixEnable := true, msixMask := true })) 0).pba = [] ∧ 0 ≤ 3 ∧
      0 ∈ ({ dev with io := { vfEnable := [0] } } : Ix9).io.vfEnable ∧ funcExists 5000 = false) ∧
    (islandReady dev 7 = true ∧ dev.boot.perstLow = false ∧ funcExists 0 = true ∧ 0 ≠ fIF0) ∧
    (regReach dev 0 = true ∧ islandReady dev 0 = true ∧ rflag dev Fld.BEHAV_LEVEL_BUSY = false ∧ rflag dev Fld.FW_STATUS_ACTIVATING = false ∧
      hasLevel (((slotImage dev (rget dev Fld.FW_STATUS_RUNNING)).map (·.levels)).getD 0) 0x40 = true) ∧
    rflag (rset dev Fld.BEHAV_LEVEL_BUSY 0 1) Fld.BEHAV_LEVEL_BUSY = true := by
  decide +kernel

/-- A device of ordering code 2, whose wake block may wake it by a link change; in standby; and one that has seen the event. -/
def wakeDev : Ix9 := regs { dev with code := 2 } [(Fld.ETH_WAKE_CFG_LINK_EN, 0, 1), (Fld.LINK_CFG_NATIVE, 0, 0)]
def standbyDev (n : Nat) (wake : Option Nat) : Ix9 := { wakeDev with boot := { dev.boot with standby := n, wake := wake } }
def cappedDev : Ix9 := regs dev [(Fld.PWR_CAP_EN, 0, 1), (Fld.PWR_CAP_LIMIT, 0, 40)]
/-- A temperature one step below the throttle point, and the trip point, in sixteenths of a degree. -/
def warmT : Nat := rget dev Fld.THERM_CFG_THROTTLE * 16 - 16
def tripT : Nat := rget dev Fld.THERM_CFG_TRIP * 16
/-- `cappedDev` with these grants; a device with one tile with these grants of its classes. -/
def grantDev (cap : Tbl Nat) : Ix9 := { cappedDev with pw := { cap := cap } }
def oneTile (therm : Tbl Nat) : Ix9 := { dev with code := 2, pw := { therm := therm } }

theorem witness_ClocksHeatAndStandbyTakeEffect_clocks :
    (∀ c ∈ [1, 2, 3], flag (rget dev Fld.CLK_STATUS_LOST) c = false) ∧
    (∀ c ∈ [0, 1, 2, 3, 4], flag (rget (rset dev Fld.CLK_STATUS_LOST 0 31) Fld.CLK_STATUS_LOST) c = true) := by decide +kernel

theorem witness_ClocksHeatAndStandbyTakeEffect_grants :
    (let d := rset (grantDev [(0, 6), (1, 4), (2, 4), (3, 4)]) Fld.PWR_MEAS 0 60000
     capLimit d * 10 < 60000 ∧ ([0, 1, 2, 3].map (capOrder d)).find? (fun c => classAnywhere d c && clockFloor c < capClock d c) = none) ∧
    (let d := rset (grantDev [(0, 23)]) Fld.PWR_MEAS 0 0
     0 + rget (rset d Fld.PWR_STATUS_CAP_FLOOR 0 0) Fld.PWR_CAP_HYST * 10 < capLimit d * 10 ∧
      ([3, 2, 1, 0].map (capOrder d)).find? (fun c => classAnywhere d c && capClock d c < clockMax d c) = some 0) ∧
    (tilesOf (oneTile []).code = 1 ∧
      (∃ i ∈ [2, 0, 1, 6, 7], (rget (oneTile []) Fld.THERM_CFG_THROTTLE : Int) * 16 ≤ signed 16 (((List.replicate 8 (warmT + 16))[i]?).getD 0)) ∧
      (([0, 1, 2, 3].map (capOrder (oneTile []))).find? (fun c =>
        classFitted (oneTile []) 0 c && clockFloor c < grantClock (oneTile []) 0 c)).isSome = true) ∧
    ((∀ i ∈ [2, 0, 1, 6, 7], signed 16 (([] : List Nat)[i]?.getD 0) < (rget (oneTile [(3, 15)]) Fld.THERM_CFG_THROTTLE : Int) * 16 - 48) ∧
      ([3, 2, 1, 0].map (capOrder (oneTile [(3, 15)]))).find? (fun c =>
        classFitted (oneTile [(3, 15)]) 0 c && thermClock (oneTile [(3, 15)]) 0 c < clockMax (oneTile [(3, 15)]) c) = some 3) := by
  decide +kernel

theorem witness_ClocksHeatAndStandbyTakeEffect :
    flag (rget dev Fld.CLK_STATUS_LOST) 0 = false ∧
    flag (rget (rset dev Fld.CLK_STATUS_LOST 0 25) Fld.CLK_STATUS_LOST) 4 = true ∧
    (rflag (rset dev Fld.PWR_CAP_EN 0 0) Fld.PWR_CAP_EN = false ∧ rflag (rset cappedDev Fld.PWR_MEAS 0 60000) Fld.PWR_CAP_EN = true ∧
      capLimit (rset cappedDev Fld.PWR_MEAS 0 60000) * 10 < 60000 ∧
      (([0, 1, 2, 3].map (capOrder (rset cappedDev Fld.PWR_MEAS 0 60000))).find? (fun c =>
        classAnywhere (rset cappedDev Fld.PWR_MEAS 0 60000) c && clockFloor c < capClock (rset cappedDev Fld.PWR_MEAS 0 60000) c)).isSome = true) ∧
    (∀ i < 8, (rget dev Fld.THERM_CFG_THROTTLE : Int) * 16 - 48 ≤ signed 16 (((List.replicate 8 warmT)[i]?).getD 0) ∧
      signed 16 (((List.replicate 8 warmT)[i]?).getD 0) < (rget dev Fld.THERM_CFG_THROTTLE : Int) * 16) ∧
    (islandReady dev 0 = true ∧ ({ dev with io := { i3c := some 8 } } : Ix9).io.i3c.isSome = true) ∧
    (rflag dev Fld.PWR_STATUS_TRIPPED = false ∧ dev.boot.pwrOk = true ∧ dev.boot.standby = 0 ∧
      (rget dev Fld.THERM_CFG_TRIP : Int) * 16 ≤ signed 16 tripT) ∧
    (wrote wakeDev 0 Fld.PWR_CTRL_STANDBY 0 = true ∧ islandReady wakeDev 0 = true ∧ present wakeDev uWAKE = true ∧ wakeEnabled wakeDev = true ∧
      isNative wakeDev 0 = false ∧ flag (rget wakeDev Fld.CLK_STATUS_LOST) 4 = false) ∧
    ((standbyDev 1 none).boot.standby = 1 ∧ ∀ x ∈ (standbyDev 1 none).funcs, x.2.resetting = false) ∧
    ((standbyDev 3 none).boot.standby = 3 ∧ (standbyDev 3 none).boot.wake = none ∧ wakeCauses (standbyDev 3 none) .linkChange ≠ 0) ∧
    ((standbyDev 3 (some 1)).boot.wake.isSome = true ∧ (standbyDev 3 (some 1)).boot.pwrOk = true) := by
  decide +kernel

/-- A request that acknowledges message 5, as a deferrable memory write where `dm`, after `n` retry statuses. -/
def ackReq (dm : Bool) (n : Nat) : AckReq := ⟨[.msi 5], dm, n, {}, []⟩
/-- A host path with one request outstanding: a deferrable memory write where `dm`, else a read-back; and a write behind it. -/
def ackDev (dm : Bool) : Ix9 :=
  { dev with paths := [(0, { reqs := [ackReq dm 0], port := [.event 2 1], waiting := [.fault 0] })] }
def ackDown : Ix9 := { downDev with paths := (ackDev true).paths }
def lmAckDev : Ix9 := { dev with paths := [(100, { port := [.heat 4] })] }

theorem witness_AcknowledgementsEndOrFail :
    ((takeReq (ackDev true) .host true).1 = some (ackReq true 0) ∧ (takeReq (ackDev false) .host false).1 = some (ackReq false 0)) ∧
    (∀ n ∈ [2, 3], (pathSt { dev with paths := [(0, { reqs := [ackReq true n] })] } .host).reqs.find? (·.dmwr) = some (ackReq true n)) ∧
    (pathSt (count (ackDev false) Fld.PCIE_CPL_TIMEOUTS (pathKey .host)) .host).reqs = ackReq false 0 :: [] ∧
    ((pathSt (ackDev true) .host).waiting ≠ [] ∧ (pathSt (ackDev true) .host).reqs.length < 16) ∧
    pathUp lmAckDev .landing = true ∧ cachedConn (readBack [] { dev with c := conns7 (connIn csREADY) } 7 0 (.ok [])) 7 = true ∧
    (pathSt lmAckDev .landing).port = .heat 4 :: [] ∧
    (Path.host ≠ Path.landing ∧ pathUp (ackDev true) .host = true ∧ (pathSt (ackDev true) .host).port = .event 2 1 :: []) ∧
    pathUp ackDown .host = false := by
  decide +kernel

/-- Accelerator port 0 (or 1) as a root port, its sublinks down. -/
def rootDev : Ix9 := regs dev [(Fld.ACC_PORT_STATUS_EP, 0, 0), (Fld.ACC_PORT_STATUS_BIF, 0, 1), (Fld.PCIE_LINK_STATUS_DL_UP, 2, 0)]
def endDev : Ix9 := regs rootDev [(Fld.ACC_PORT_STATUS_EP, 0, 1)]
def rootUp : Ix9 := regs rootDev [(Fld.PCIE_LINK_STATUS_DL_UP, 2, 1)]
def dbDev (en : Nat) : Ix9 := regs rootUp [(Fld.ACC_DB_EN, 0, en), (Fld.ACC_DB_FUNC, 0, 3)]

theorem witness_AcceleratorPortsFollowTheirLinks :
    (accExists rootDev 0 0 = true ∧ accExists rootDev 0 1 = true ∧ accExists endDev 0 0 = true) ∧
    (islandReady rootDev 8 = true ∧ 2 ∉ rootDev.io.dpc ∧ rflag rootDev Fld.PCIE_LINK_STATUS_DL_UP 2 = false ∧
      isRoot (regs rootDev [(Fld.PCIE_LINK_STATUS_DL_UP, 2, 1)]) 0 = true ∧ isRoot (regs endDev [(Fld.PCIE_LINK_STATUS_DL_UP, 2, 1)]) 0 = false) ∧
    2 ∈ ({ rootUp with io := { scanning := [2] } } : Ix9).io.scanning ∧
    rflag rootUp Fld.PCIE_LINK_STATUS_DL_UP 2 = true ∧
    (isRoot rootUp 0 = true ∧ wrote rootUp 0 Fld.ACC_PORT_CTRL_RESCAN 0 = true ∧ wrote rootUp 0 Fld.ACC_PORT_CTRL_DPC_RELEASE 0 = true ∧
      wrote rootDev 0 Fld.ACC_CFG_DATA 0 = true ∧ rflag rootUp Fld.PCIE_LINK_STATUS_DL_UP (subKey 0 (rget rootUp Fld.ACC_CFG_ADDR_SUBLINK 0)) = true ∧
      rflag rootDev Fld.PCIE_LINK_STATUS_DL_UP (subKey 0 (rget rootDev Fld.ACC_CFG_ADDR_SUBLINK 0)) = false) ∧
    (rflag (dbDev 1) Fld.PCIE_LINK_STATUS_DL_UP 2 = true ∧ rflag (dbDev 1) Fld.ACC_DB_EN 0 = true ∧ rget (dbDev 1) Fld.ACC_DB_FUNC 0 ≤ 3 ∧
      65535 < 65536 ∧ rflag (dbDev 0) Fld.ACC_DB_EN 0 = false) ∧
    (islandReady rootUp 8 = true ∧
      let d := errorAt (count rootUp Fld.PCIE_AER_MSGS 2) { unit := uACCEL 0, code := 0x0A, island := 8 } none
      accExists d 0 0 = true ∧ isRoot d 0 = true ∧ rflag d Fld.PCIE_LINK_STATUS_DL_UP 2 = true) ∧
    (let d := { dbDev 1 with q := { sqs := [(1, { func := 3, ring := { log2 := 6 }, db := 65535 })] } }
     (sqByDb d 3 65535).isSome = true ∧ (funcOf d 3).resetting = false ∧ 0 < 64 ∧ 64 ≤ 0 + 2 ^ 6) ∧
    (let d := regs endDev [(Fld.PCIE_LINK_STATUS_DL_UP, 2, 1), (Fld.ACC_DB_EN, 0, 1), (Fld.ACC_DB_FUNC, 0, 3)]
     isRoot d 0 = false ∧ rflag d Fld.PCIE_LINK_STATUS_DL_UP 2 = true ∧ rflag d Fld.ACC_DB_EN 0 = true ∧ rget d Fld.ACC_DB_FUNC 0 ≤ 3) := by
  decide +kernel

theorem witness_AbsentUnitsReadZeroAndIgnoreWrites :
    uWAKE < 25 ∧ present dev uWAKE = false ∧ 0x2000000 + uWAKE * 0x100000 ≤ 0x2000000 + uWAKE * 0x100000 + 0xFFFFC ∧
      0x2000000 + uWAKE * 0x100000 + 0xFFFFC < 0x2000000 + (uWAKE + 1) * 0x100000 ∧
      regSized (0x2000000 + uWAKE * 0x100000 + 0xFFFFC) 4 = true := by decide +kernel

/-- The address of a counter that clears when it is read. -/
def rcAddr : Nat := 33587456
/-- An address of PF0's queue status words. -/
def statusAddr : Nat := 0x400000

theorem witness_RegistersAreReadAndWrittenByFunctions :
    (regReach { dev with ready := [] } 0 = false ∧ regReach dev 0 = true) ∧
    (inDoorbells 0 (dbBase 0) = true ∧ inDoorbells 0 0x100 = false ∧ regSized 0x100 4 = true ∧ msixOffset 0 false 0x100 = none ∧
      inStatus 0 0x100 = false ∧ photoWindow dev 0 0x100 = none) ∧
    (msixOffset 0 true 0 = some 0 ∧ regSized 0 4 = true ∧ regSized 0 8 = true ∧ inStatus 0 statusAddr = true ∧
      inDoorbells 0 statusAddr = false ∧ regSized statusAddr 4 = true ∧ msixOffset 0 false statusAddr = none) ∧
    (readsDown dev 0 0x100 4 = false ∧ 0x100 < 0x2000000) ∧
    (inDoorbells 0 rcAddr = false ∧ inStatus 0 rcAddr = false ∧ regSized rcAddr 4 = true ∧ msixOffset 0 false rcAddr = none ∧
      photoWindow dev 0 rcAddr = none ∧ (fieldHits dev 0 rcAddr 4).map (fun x => (x.1.acc, wholly x.1 x.2.2 rcAddr 4)) = [(.rc, true)]) :=
  by decide +kernel

theorem witness_SidebandAnswers :
    (islandReady dev 0 = true ∧ spdmReach dev 0 = true ∧ spdmReach dev 3 = true ∧
      spdmReach { dev with io := { i3c := some 8 } } 8 = true) ∧
    rflag dev Fld.FW_STATUS_ACTIVATING = false ∧
    rflag (rset dev Fld.FW_STATUS_ACTIVATING 0 1) Fld.FW_STATUS_ACTIVATING = true ∧
    (dev.mon.unlocked = false ∧ dev.nvm.debug = false) ∧
    (dev.io.i3c = none ∧ 127 < 128) := by decide +kernel

/-! ## Commands that are not well formed: one operand just beyond its range -/

/-- Operands beyond their ranges. -/
theorem illFormed_operands_1 : ∀ i ∈ ([.sqDoorbellWrite 0x400 0 false 0, .sqDoorbellWrite 0 (2 ^ 16) false 0, .sqDoorbellWrite 0 0 false (2 ^ 64),
    .cqDoorbellWrite 0x400 0 false 0, .cqDoorbellWrite 0 (2 ^ 16) false 0, .cqDoorbellWrite 0 0 false (2 ^ 64),
    .eqDoorbellWrite 0x400 0 false 0, .eqDoorbellWrite 0 (2 ^ 16) false 0, .eqDoorbellWrite 0 0 false (2 ^ 64),
    .fqDoorbellWrite 0x400 0 false 0, .fqDoorbellWrite 0 (2 ^ 16) false 0, .fqDoorbellWrite 0 0 false (2 ^ 64),
    .fetchReadReturn 0x10400 (.ring .own), .phaseReread 0x10400, .queueErrorCompletion 0x10400, .arbitrate 4,
    .modTimeExpiry 0x10400, .adminEnable 0x400, .adminDisable 0x400, .opSend 0x10400 0, .opWrite 0x10400 0,
    .opWriteImm 0x10400 0, .opRead 0x10400 0, .opFetchAdd 0x10400 0, .opCmpSwap 0x10400 0, .opNop 0x10400 0,
    .opSqCreate 0x10400 0, .opCqCreate 0x10400 0, .opEqCreate 0x10400 0, .opQueueDestroy 0x10400 0,
    .opQueueModify 0x10400 0, .queueRestart 0x10400 0, .opConnCreate 0x10400 0 .own, .opConnModify 0x10400 0 .own,
    .opConnDestroy 0x10400 0, .opPdCreate 0x10400 0, .opPrefetch 0x10400 0, .opAdvise 0x10400 0, .opInvalidate 0x10400 0,
    .opWindowSet 0x10400 0, .windowQuarantineEnd (2 ^ 24), .walkDone 2 0 0 [], .walkDone 0 (2 ^ 20) 0 [],
    .walkDone 0 0 (2 ^ 64) [], .atsTranslationCompletion 2 0 0 .denied] : List Instr),
    wellFormed i = false := by decide +kernel

/-- Further operands beyond their ranges. -/
theorem illFormed_operands_2 : ∀ i ∈ ([.atsTranslationCompletion 0 (2 ^ 20) 0 .denied, .atsTranslationCompletion 0 0 (2 ^ 64) .denied,
    .pageRequestGroupResponse 2 0 0 false, .pageRequestGroupResponse 0 (2 ^ 20) 0 false,
    .pageRequestGroupResponse 0 0 (2 ^ 64) false, .priTimeout 2 0 0, .priTimeout 0 (2 ^ 20) 0, .priTimeout 0 0 (2 ^ 64),
    .connFillDone ⟨2 ^ 24, true⟩, .connSpillDone (2 ^ 24), .connQuarantineEnd (2 ^ 24), .busyHoldEnd (2 ^ 24),
    .resetBackoffEnd (2 ^ 24), .retransmissionTimerExpiry (2 ^ 24), .ackDelayExpiry (2 ^ 24), .packetSend (2 ^ 24),
    .pacerPeriod (2 ^ 24), .portPick 16, .gateEntryBegin 16, .gateEnable 16, .gateDisable 16, .swapReq 16, .gateSwap 16,
    .linkTrainingDone 16, .initTimer 16, .initReceived 16 0, .initReceived 0 (2 ^ 64), .creditReceived 16 0,
    .creditReceived 0 (2 ^ 64), .creditTimer 16, .lackReceived 16 0, .lackReceived 0 (2 ^ 64), .lackTimer 16,
    .lnakReceived 16 0, .lnakReceived 0 (2 ^ 64), .linkPacketReceived 16 0 (pkt0 1 []), .linkWordTimeout 16,
    .pcsBlockLockLoss 16, .linkCfgNativeWrite 16 false, .nativePacketRoute 16 0, .nativePacketRoute 0 8,
    .pairCountTimeout (2 ^ 16), .fabEpochCurWrite 2, .ethGrpModeWrite 2 0, .pfcFrameReceived 16 0 []] : List Instr),
    wellFormed i = false := by decide +kernel

/-- Further operands beyond their ranges. -/
theorem illFormed_operands_3 : ∀ i ∈ ([.pfcFrameReceived 0 (2 ^ 8) [], .pfcPauseExpiry 16 0, .pfcPauseExpiry 0 8, .pfcRepeatTimer 16 0, .pfcRepeatTimer 0 8,
    .preemptVerifyTimer 16, .fecWindowEnd 2 [], .laneLockLoss 2 0, .laneLockLoss 0 8, .ethSpareReq 2 0, .ethSpareReq 0 8,
    .spareAdaptDone 2, .laneShedWindow 16 0 0, .lsRetrainDone 16, .ethTsPop 16, .opAllReduce 0x10400 0,
    .opReduceScatter 0x10400 0, .opAllGather 0x10400 0, .opReduce 0x10400 0, .opBroadcast 0x10400 0, .opAllToAll 0x10400 0,
    .opAllToAllv 0x10400 0, .opGroupBarrier 0x10400 0, .opGroupSet 0x10400 0 .own, .abortRepeatTimer 0 (2 ^ 8) 0,
    .abortRepeatTimer 0 0 (2 ^ 16), .queryRepeatTimer 0 (2 ^ 8) 0, .queryRepeatTimer 0 0 (2 ^ 16),
    .decisionHoldExpiry 0 (2 ^ 8) 0, .decisionHoldExpiry 0 0 (2 ^ 16), .mcRepairTimer 0 (2 ^ 8) 0 0,
    .mcRepairTimer 0 0 (2 ^ 16) 0, .lapWindowExpiry 0 (2 ^ 8) 0 0, .lapWindowExpiry 0 0 (2 ^ 16) 0,
    .lapWindowExpiry 0 0 0 (2 ^ 16), .opAttBlockTable 0x10400 0 .own, .opAttDecode 0x10400 0, .opAttPrefill 0x10400 0,
    .maraIslandDone 0 4, .scatterHeaderReceived 0 (2 ^ 16) 0 [], .scatterHeaderReceived 0 0 (2 ^ 16) [], .rowReq 4,
    .rowSpareCopyDone 4 0 0 0, .postPackageRepairDone 4 0 none, .pinReq 4] : List Instr),
    wellFormed i = false := by decide +kernel

/-- Further operands beyond their ranges. -/
theorem illFormed_operands_4 : ∀ i ∈ ([.pinSteerCopyDone 4 0, .opCopy 0x10400 0, .opFill 0x10400 0, .opChainStart 0x10400 0,
    .descriptorReadReturn (2 ^ 7) .own, .descriptorEnd (2 ^ 7), .requestLinePulse 50, .dreqEdge 16 false,
    .strideBurstStart (2 ^ 7), .stridePause 0x400 0 false, .stridePause 0 (2 ^ 7) false, .strideResume 0x400 0 false,
    .strideResume 0 (2 ^ 7) false, .strideStop 0x400 0 false, .strideStop 0 (2 ^ 7) false, .pausingDone (2 ^ 7),
    .sealCommand (2 ^ 6), .opKeyBind 0x10400 0 .own, .opKeyRotate 0x10400 0, .opKeyRetire 0x10400 0,
    .vaultKeyFetchDone 4 0 0 0 false, .vaultKeyFetchDone 0 (2 ^ 24) 0 0 false, .vaultKeyFetchDone 0 0 3 0 false,
    .vaultKeyFetchDone 0 0 0 (2 ^ 8) false, .tagFailCountExpiry (2 ^ 24), .opQuotaSet 0x10400 0, .opQuotaGet 0x10400 0,
    .funcResetGo 0x400, .pcieFlr 0x400, .vfEnableClear 4, .funcResetDone 0x400, .svcRestart (2 ^ 4),
    .hartLandingAccess 32 0 0 none .own, .excTxProdWrite (2 ^ 32), .mboxGo 0x400 0 0 false, .mboxGo 0 (2 ^ 6) 0 false,
    .mboxGo 0 0 4 false, .mboxRespond none (2 ^ 6), .mboxRelease 0x400 0, .mboxRelease 0 (2 ^ 6), .mboxClaim 0x400 0 0 0,
    .mboxClaim 0 (2 ^ 6) 0 0, .mboxClaim 0 0 17 0, .mboxClaim 0 0 0 (2 ^ 32), .mboxTimeout (2 ^ 6)] : List Instr),
    wellFormed i = false := by decide +kernel

/-- Further operands beyond their ranges. -/
theorem illFormed_operands_5 : ∀ i ∈ ([.version (2 ^ 6), .if0Ctx (2 ^ 6), .logRead (2 ^ 6), .fwStage (2 ^ 6) .own, .fwActivate (2 ^ 6), .fwCommit (2 ^ 6),
    .sbCnt 2, .sbPhoto 2 false 0, .sbCon 4, .resetBoundExpiry 7 0 0 0, .resetBoundExpiry 0 4 0 0,
    .resetBoundExpiry 0 0 8 0, .uncorrectableRamError 38 0 0, .uncorrectableRamError 0 8 0, .d2dLinkError 38,
    .engResetGo 4 0, .engResetGo 0 8, .queueResetGo 0x10400, .resetDone 7 0 0 0, .resetDone 0 4 0 0, .resetDone 0 0 8 0,
    .resetCtrlWarm (2 ^ 16), .resetCtrlCold (2 ^ 16), .photoArm 2, .photoTime 2 [], .photoLateCopy 2 0,
    .photoLateCopy 0 25, .behavLevelNextWrite 0x400 0, .behavLevelNextWrite 0 (2 ^ 8), .unitReady 25 false, .clockLost 5,
    .clockRestored 5, .pwrCapMctpWrite (2 ^ 32), .pwrCtrlStandby (2 ^ 16), .accelLinkLoss 4 0, .accelLinkLoss 0 2,
    .accelLinkUp 4 0 0 0 false, .accelLinkUp 0 2 0 0 false, .discoveryDone 4 0 false false false false,
    .discoveryDone 0 2 false false false false, .accPortRescan 4, .dpcRelease 4, .errFatalReceived 4 0,
    .errFatalReceived 0 2, .aerMessageReceived 4 0] : List Instr),
    wellFormed i = false := by decide +kernel

/-- Further operands beyond their ranges. -/
theorem illFormed_operands_6 : ∀ i ∈ ([.aerMessageReceived 0 2, .accCfgDataAccess 4 none none, .inboundDoorbellWrite 4 0 0 false false 0,
    .inboundDoorbellWrite 0 2 0 false false 0, .inboundDoorbellWrite 0 0 (2 ^ 64) false false 0,
    .inboundDoorbellWrite 0 0 0 false false (2 ^ 64), .inboundRequestDiscard 4 0 false, .inboundRequestDiscard 0 2 false,
    .spdmGetVersion 9 false [], .spdmGetCapabilities 9 false [], .spdmNegotiateAlgorithms 9 false [],
    .spdmGetDigests 9 false [], .spdmGetCertificate 9 false [], .spdmChallenge 9 false [], .spdmGetMeasurements 9 false [],
    .rcCounterRead 0x400 false 0 0, .registerWrite 0x400 false 0 0 0, .registerWrite 0 false 0 0 (2 ^ 64),
    .regulatorStatus 4, .ethLinkUp 16, .configurationRequest 0x400 (.atsEnable true), .dynamicAddressAssignment none (2 ^ 7)] : List Instr),
    wellFormed i = false := by decide +kernel

/-- Function 5: neither a PF, IF0 nor a VF (R430). -/
theorem illFormed_functions : ∀ i ∈ ([.sqDoorbellWrite 5 0 false 0, .cqDoorbellWrite 5 0 false 0, .eqDoorbellWrite 5 0 false 0, .fqDoorbellWrite 5 0 false 0,
    .adminEnable 5, .adminDisable 5, .stridePause 5 0 false, .strideResume 5 0 false, .strideStop 5 0 false, .pcieFlr 5,
    .funcResetDone 5, .mboxGo 5 0 0 false, .mboxRelease 5 0, .mboxClaim 5 0 0 0, .behavLevelNextWrite 5 0,
    .rcCounterRead 5 false 0 0, .registerWrite 5 false 0 0 0, .configurationRequest 5 (.atsEnable true)] : List Instr),
    wellFormed i = false := by decide +kernel

/-- A native packet with a lane field of 8, and a RoCEv2-compatible one from port 16. -/
def badPkt : Packet := { pkt0 1 [] with lane := 8 }
def badRoce : Roce := { cnp with port := 16 }

/-- Packets that no layout holds. -/
theorem illFormed_bodies : ∀ i ∈ ([.requestPacketReceived (.native badPkt), .ackReceived (.native badPkt), .atomicAckReceived (.native badPkt),
    .readRespReceived (.native badPkt), .nakSeqReceived (.native badPkt), .busyReceived (.native badPkt),
    .resettingReceived (.native badPkt), .nakFatalReceived (.native badPkt), .abortReceived (.native badPkt),
    .cnpReceived (.native badPkt), .requestPacketReceived (.roce badRoce), .linkPacketReceived 0 0 badPkt,
    .heatCreditReceived badPkt, .heatAbortReceived badPkt, .finishUpReceived badPkt, .releaseReceived badPkt,
    .queryReceived badPkt, .markReceived badPkt, .repairReceived badPkt] : List Instr),
    wellFormed i = false := by decide +kernel

/-- Paths of an accelerator port that no device has. -/
theorem illFormed_paths : ∀ i ∈ ([.ackHoldExpiry (.accel 4 0), .dmwrCompletion (.accel 4 0), .dmwrRetryStatus (.accel 4 0),
    .readbackCompletion (.accel 4 0), .portAcknowledgement (.accel 4 0), .ackRequestFailure (.accel 4 0) false .ur,
    .completionTimeout (.accel 4 0) .other] : List Instr),
    wellFormed i = false := by decide +kernel

/-! ## Results the spec states -/

/-- R72, example of Work submission: elements 510, 511 and 512 of a ring of 256 slots. -/
theorem test_phases_of_elements : [510, 511, 512].map (fun k => phaseOf k 8) = [0, 0, 1] := by decide

/-- R94: with weights 2 and 1, a pick that finds no credit begins a round and goes on behind the last pick. -/
theorem test_wrr_new_round :
    wrrPick [5, 9] 1 (fun _ => true) (fun _ => 0) (fun m => if m = 5 then 2 else 1) = some (9, 0, true) ∧
    wrrPick [5, 9] 0 (fun _ => true) (fun m => if m = 5 then 2 else 0) (fun _ => 1) = some (5, 1, false) := by decide

/-- R234, example of the native fabric: the header of a packet from 0x0_0A05 to 0x1_2C33. -/
theorem test_header_of_the_example :
    (Packet.mk 0x12C33 0x0A05 0x7B00 2 2 2 0 0x012345 0x0001F4 4096 false false false false none [] 0 false 0 0 0).header =
      0x9619_8281_4F60_0850_048D_1400_07D1_0000 := by decide +kernel

/-- R235: the check value of CRC32C over the digits 1 to 9 (RFC 3720's polynomial). -/
theorem test_crc32c_check_value : crc32c ((List.range 9).map (fun i => BitVec.ofNat 8 (0x31 + i))) = 0xE3069283 := by decide +kernel

/-- R366, example of Landing memory: physical unit 0x0A37, offset 0x0010_0ABC; HBM2, channel 2. -/
def unitMapDev : Ix9 := { dev with lm := { maps := [(1, List.replicate 16 0 ++ [0x0A37])] } }
theorem test_physical_address_of_the_example : lmPhys unitMapDev 1 0x02100ABC = some 0x146F00ABC := by decide +kernel
theorem test_stack_and_channel_of_the_example : (lmStack dev 0x146F00ABC, lmChannel dev 0x146F00ABC) = (2, 2) := by decide +kernel

/-- R310, examples: E4M3 0x7E is 448; element 0 of the E3M2 block 1F 00 00 is 28; elements 0 and 1 of an E2M1 block of scale
2^-3 are 0.375 and -0.375. -/
theorem test_e4m3_largest : roundFp 1 none (decode 4 0x7E) = (0x43E00000, false) ∧ decode 4 0x7F = .nan := by decide +kernel
theorem test_e3m2_block : (readBlk 6 [0x1F, 0, 0]).map (fun x => (roundFp 1 none (decode 6 x)).1) = [0x41E00000, 0, 0, 0] := by
  decide +kernel
theorem test_e2m1_block : ((readBlk 7 (0xD5 :: List.replicate 15 0 ++ [0x7C])).take 2).map (fun x => (roundFp 1 none (decode 7 x)).1) =
    [0x3EC00000, 0xBEC00000] := by decide +kernel

/-- R322 to R325, example: 1.0 and twice 2^-8 in BF16, in two orders NARROW and one WIDE. -/
def sumOf (mode : Nat) (l : List Nat) : List Nat :=
  let r : Red := ⟨0, mode, false, false, 2, 2, 0, 0⟩
  match l.map (fun x => [r.convert x]) with
  | x :: t => (r.anchor 0 (t.foldl (fun a y => (r.combine 0 0 a y).1) x)).1
  | [] => []
theorem test_narrow_depends_on_order : sumOf 1 [0x3F80, 0x3B80, 0x3B80] = [0x3F80] ∧ sumOf 1 [0x3B80, 0x3B80, 0x3F80] = [0x3F81] := by
  decide +kernel
theorem test_wide_is_exact_here : sumOf 0 [0x3F80, 0x3B80, 0x3B80] = [0x3F81] := by decide +kernel

/-- R326 to R328, example: 2^24, 1.0 and -2^24 ANCHORED. -/
theorem test_anchor_bytes : [0x4B80, 0x3F80, 0xCB80].map (fun x => anchorByte [(roundFp 1 none (decode 2 x)).1]) = [0x96, 0x7E, 0x96] := by
  decide +kernel
theorem test_anchored_sum : (roundFp 2 none (anchorVal 0x96 (([0x4B80, 0x3F80, 0xCB80].foldl (fun a x =>
    (a + (anchorQ 0x96 (roundFp 1 none (decode 2 x)).1).1) % 2 ^ 96) 0)))).1 = 0x3F80 := by decide +kernel

/-- R409, example of the cipher: the context of a working key. -/
def exampleConn : Conn := { ((connIn csREADY).set 0xC 23 0 0x000A10).set 4 31 24 0x07 with peerIncarn := some 2 }
theorem test_context_of_the_example :
    (workContext 0x012345 exampleConn ⟨0x012345, 1, 3, true⟩).take 10 = [0x45, 0x23, 0x01, 7, 0x10, 0x0A, 0, 2, 1, 3] := by
  decide +kernel

/-- R3, example of the register map: UNITS_PRESENT and the islands of an IX9-C20. -/
theorem test_units_of_the_c20 : (List.range 25).filter (fun u => !flag (unitsOf 1) u) = [2, 3, 6, 7, 8, 19] := by decide +kernel
theorem test_islands_of_the_c20 : (fittedIslands 1).foldl (fun a i => a + 2 ^ i) 0 = 0x70037BFFD := by decide +kernel

/-- R207, example of Pacing: the second notification of a connection at 800,000 Mb/s. -/
def pacedDev : Ix9 :=
  { dev with el := 120000, c := conns7 ({ readyConn with pacer := { rc := 408000, alpha := 57600, lastDec := some 0, upTo := 120000 } }) }
theorem test_notification_of_the_example : ((connOf (pacerNotify pacedDev 7) 7).pacer.alpha, (connOf (pacerNotify pacedDev 7) 7).pacer.rc) =
    (58096, 227160) := by decide +kernel

/-- R84: a doorbell write of a limit within the ring, and of one beyond it. -/
theorem test_doorbell_takes_the_limit : ∃ t, exec (.sqDoorbellWrite 0 3 true 11) (st ringDev) = .next t ∧
    (sqAt t.dev 1).map (·.lim) = some 11 := ⟨_, rfl, by decide +kernel⟩
theorem test_doorbell_beyond_the_ring_is_an_error : ∃ t, exec (.sqDoorbellWrite 0 3 true 69) (st ringDev) = .next t ∧
    (sqAt t.dev 1).map (·.err) = some (some (ST_QUEUE_ERROR, 1)) := ⟨_, rfl, by decide +kernel⟩

/-- R577: the device identification word of the test access port. -/
theorem test_idcode : ∃ t, exec (.jtagInstructionLoad .idcode) (st dev) = .next t ∧ t.dev.out.getLast? = some (.value 0x10009A6B) :=
  ⟨_, rfl, by decide +kernel⟩

end Sys2Proof.Tests
end

section
/-!
SUPPORT and proofs, family 00_scope: register fields and register accesses. The rules a register access follows come
first (which fields it meets, what it answers, what it writes), then the three statements.
-/

namespace Sys2Proof.Machine

/-! ## Accesses that meet register fields -/

theorem exec_rcCounterRead (f a n : Nat) (bar2 : Bool) (s : State) :
    exec (.rcCounterRead f bar2 a n) s = .next (s.only (regReadOut s.dev f bar2 a n)) := rfl

theorem exec_registerWrite (f a n v : Nat) (bar2 : Bool) (s : State) :
    exec (.registerWrite f bar2 a n v) s = .next (s.follow (regWrite s.cells s.dev f bar2 a n v)) := rfl

/-- An aligned access in none of the ranges that hold no register field: doorbells, queue status words, the MSI-X space
and the photo windows. -/
structure FieldAccess (d : Ix9) (f a n : Nat) : Prop where
  notDoorbell : inDoorbells f a = false
  notStatus : inStatus f a = false
  sized : regSized a n = true
  notMsix : msixOffset f false a = none
  notPhoto : photoWindow d f a = none

/-- PF0's set-up space lies above all of those ranges (R561). -/
theorem FieldAccess.of_setup {d : Ix9} {a n : Nat} (ha : 0x2000000 ≤ a) (hsized : regSized a n = true) :
    FieldAccess d 0 a n where
  notDoorbell := by simp [inDoorbells, dbBase, isVf]; omega
  notStatus := by simp [inStatus, statusBase, isVf]; omega
  sized := hsized
  notMsix := by simp [msixOffset, fIF0]
  notPhoto := by
    have h0 : ¬ a < 0x900000 := by omega
    have h1 : ¬ a < 0xA00000 := by omega
    simp [photoWindow, h0, h1]

/-! ## What a write does -/

theorem regWrite_unreached {d : Ix9} {f : Nat} (hreach : regReach d f = false) (m : List Host.Cell) (bar2 : Bool)
    (a n v : Nat) : regWrite m d f bar2 a n v = d := by simp [regWrite, hreach]

section
variable {d : Ix9} {f : Nat} (hreach : regReach d f = true) (m : List Host.Cell) {bar2 : Bool} {a n : Nat} (v : Nat)
include hreach

theorem regWrite_doorbell (hdb : inDoorbells f a = true) :
    regWrite m d f false a n v = doorbell d f ((a - dbBase f) / 8) (n = 8 && a % 8 = 0) v := by
  simp [regWrite, hreach, regPut, hdb]

theorem regWrite_fields (h : FieldAccess d f a n) :
    regWrite m d f false a n v =
      (fieldHits d f a n).foldl (fun d (fld, i, b) => writeEffect m d f fld i b a n v)
        ((fieldHits d f a n).foldl (fun d (fld, i, b) => writeField d fld i b a n v) d) := by
  simp [regWrite, hreach, regPut, h.notDoorbell, h.notStatus, h.sized, h.notMsix, h.notPhoto]

theorem regWrite_msix (hsized : regSized a n = true) (hdb : bar2 = true ∨ inDoorbells f a = false) {x : Nat}
    (hx : msixOffset f bar2 a = some x) :
    regWrite m d f bar2 a n v =
      if n = 8 then msixWrite (msixWrite d f x (v % 2 ^ 32)) f (x + 4) (v / 2 ^ 32 % 2 ^ 32)
      else msixWrite d f x (v % 2 ^ 32) := by
  rcases hdb with rfl | hdb
  · simp [regWrite, hreach, regPut, hsized, hx]
  · simp [regWrite, hreach, regPut, hsized, hx, hdb]

theorem regWrite_discarded (hsized : regSized a n = true) (hdb : bar2 = true ∨ inDoorbells f a = false)
    (hx : msixOffset f bar2 a = none) (hro : inStatus f a = true ∨ (photoWindow d f a).isSome = true) :
    regWrite m d f bar2 a n v = d := by
  rcases hdb with rfl | hdb
  · simp [regWrite, hreach, regPut, hsized, hx]
  · rcases hro with hro | hro <;> simp [regWrite, hreach, regPut, hsized, hx, hdb, hro]

end

theorem regWrite_no_fields {d : Ix9} {f a n : Nat} (h : FieldAccess d f a n) (hnone : fieldHits d f a n = [])
    (m : List Host.Cell) (v : Nat) : regWrite m d f false a n v = d := by
  cases hreach : regReach d f with
  | false => exact regWrite_unreached hreach m false a n v
  | true => simp [regWrite_fields hreach m v h, hnone]

/-! ## What a read answers -/

theorem regGet_fields {d : Ix9} {f a n : Nat} (h : FieldAccess d f a n) :
    regGet d f false a n true =
      ((fieldHits d f a n).foldl (fun d (fld, i, b) => if fld.acc = .rc && wholly fld b a n then rset d fld i 0 else d) d,
        gather (fieldHits d f a n) a n (fun fld i => fieldValue d f fld i)) := by
  simp [regGet, h.notDoorbell, h.notStatus, h.sized, h.notMsix, h.notPhoto]

/-- A whole read of one read-to-clear counter clears it and answers its value (R12, R280). -/
theorem regGet_clears {d : Ix9} {f a n : Nat} (h : FieldAccess d f a n) {fld : Fld} {i b : Nat}
    (hhit : fieldHits d f a n = [(fld, i, b)]) (hrc : fld.acc = .rc) (hwhole : wholly fld b a n = true) :
    regGet d f false a n true = (rset d fld i 0, gather [(fld, i, b)] a n (fun x j => fieldValue d f x j)) := by
  simp [regGet_fields h, hhit, hrc, hwhole]

theorem regRead_no_fields {d : Ix9} {f a n : Nat} (h : FieldAccess d f a n) (hnone : fieldHits d f a n = []) :
    regRead d f false a n = (d, 0) := by
  simp [regRead, regGet_fields h, hnone, gather]

theorem readsDown_no_fields {d : Ix9} {f a n : Nat} (hnone : fieldHits d f a n = []) : readsDown d f a n = false := by
  simp [readsDown, hnone]

/-- A read answers the value gathered where it gets no error response (R461) and pops no timestamp (R279). -/
theorem regReadOut_value {d : Ix9} {f a n : Nat} (hup : readsDown d f a n = false)
    (hpop : 0x2000000 ≤ a → f = 0 → ∀ x ∈ setupHits Fld.ETH_TS_SEC.place a n,
      fieldOverlaps Fld.ETH_TS_SEC x.2 a n = true → fieldLive d Fld.ETH_TS_SEC x.1 x.2 = false) :
    regReadOut d f false a n = emit (regRead d f false a n).1 (.value (regRead d f false a n).2) := by
  simp only [regReadOut, hup, Bool.and_false, Bool.false_eq_true, if_false]
  split
  next hc =>
    simp only [Bool.and_eq_true, decide_eq_true_eq] at hc
    obtain ⟨⟨-, ha⟩, hf⟩ := hc
    rw [List.filter_eq_nil_iff.2 fun x hx => by
      have := hpop ha hf x hx
      simp_all, List.foldl_nil]
  next => rfl

/-! ## Registers lie whole in one set-up block (R561) -/

theorem addr_of_setupHits_glob {base stride c a n : Nat} {x : Nat × Nat} (hx : x ∈ setupHits (.glob base stride c) a n) :
    x.2 = base ∨ ∃ k < c, x.2 = base + stride * k := by
  simp only [setupHits] at hx
  split at hx
  · exact absurd hx List.not_mem_nil
  split at hx
  · obtain rfl := List.mem_singleton.1 hx
    exact .inl rfl
  · simp only [List.mem_filter, List.mem_map, decide_eq_true_eq] at hx
    obtain ⟨⟨j, -, rfl⟩, hc⟩ := hx
    exact .inr ⟨_, hc, rfl⟩

theorem addr_of_setupHits_port {off a n : Nat} {x : Nat × Nat} (hx : x ∈ setupHits (.port off) a n) :
    ∃ b, b % 0x8000 = 0 ∧ x.2 = b + off := by
  simp only [setupHits] at hx
  split at hx
  next q b r hport =>
    simp only [Option.ite_none_right_eq_some, Option.some.injEq, Prod.mk.injEq, Bool.and_eq_true, decide_eq_true_eq] at hport
    obtain ⟨_, -, rfl, -⟩ := hport
    obtain rfl := List.mem_singleton.1 hx
    exact ⟨_, by omega, rfl⟩
  next => exact absurd hx List.not_mem_nil

theorem addr_of_setupHits_portArr {off stride c a n : Nat} {x : Nat × Nat}
    (hx : x ∈ setupHits (.portArr off stride c) a n) : ∃ b, b % 0x8000 = 0 ∧ ∃ k < c, x.2 = b + off + stride * k := by
  simp only [setupHits] at hx
  split at hx
  next q b r hport =>
    simp only [Option.ite_none_right_eq_some, Option.some.injEq, Prod.mk.injEq, Bool.and_eq_true, decide_eq_true_eq] at hport
    obtain ⟨_, -, rfl, -⟩ := hport
    split at hx
    · simp at hx
    simp only [List.mem_map, List.mem_filter, decide_eq_true_eq] at hx
    obtain ⟨k, ⟨-, hk⟩, rfl⟩ := hx
    exact ⟨_, by omega, k, hk, rfl⟩
  next => exact absurd hx List.not_mem_nil

theorem addr_of_setupHits_lane {off a n : Nat} {x : Nat × Nat} (hx : x ∈ setupHits (.lane off) a n) :
    ∃ b, b % 0x100000 = 0 ∧ ∃ k < 9, x.2 = b + off + k * 8 := by
  simp only [setupHits, Bool.and_eq_true, decide_eq_true_eq] at hx
  split at hx
  next h =>
    obtain rfl := List.mem_singleton.1 hx
    exact ⟨a - a % 0x100000, by omega, _, h.2, rfl⟩
  next => exact absurd hx List.not_mem_nil

theorem addr_of_setupHits_chan {off a n : Nat} {x : Nat × Nat} (hx : x ∈ setupHits (.chan off) a n) :
    ∃ b, b % 32 = 0 ∧ x.2 = b + off := by
  simp only [setupHits] at hx
  split at hx
  · obtain rfl := List.mem_singleton.1 hx
    exact ⟨a - a % 32, by omega, rfl⟩
  · simp at hx

/-- The registers of a PCIe port begin 0xA000 into its unit's block (R552). -/
theorem pcieBlock_base {a k b : Nat}
    (hb : (if 0x350A000 ≤ a && a < 0x350B000 then some (0, 0x350A000)
      else if 0x2E00000 ≤ a && a < 0x3200000 && 0xA000 ≤ a % 0x100000 && a % 0x100000 < 0xB000 then
        some ((a - 0x2E00000) / 0x100000 + 1, a - a % 0x100000 + 0xA000)
      else none) = some (k, b)) : b % 0x100000 = 0xA000 := by
  split at hb
  · cases hb
    rfl
  split at hb
  · simp only [Option.some.injEq, Prod.mk.injEq] at hb
    omega
  · cases hb

theorem addr_of_setupHits_pcie {off a n : Nat} {x : Nat × Nat} (hx : x ∈ setupHits (.pcie off) a n) :
    ∃ b, b % 0x100000 = 0xA000 ∧ x.2 = b + off := by
  simp only [setupHits] at hx
  split at hx
  next k b hb =>
    obtain rfl := List.mem_singleton.1 hx
    exact ⟨b, pcieBlock_base hb, rfl⟩
  next => exact absurd hx List.not_mem_nil

theorem addr_of_setupHits_pcieSub {off a n : Nat} {x : Nat × Nat} (hx : x ∈ setupHits (.pcieSub off) a n) :
    ∃ b, b % 0x100000 = 0xA000 ∧ (x.2 = b + off ∨ x.2 = b + 0x80 + off) := by
  simp only [setupHits] at hx
  split at hx
  next k b hb =>
    refine ⟨b, pcieBlock_base hb, ?_⟩
    simp only [List.mem_cons, List.not_mem_nil, or_false] at hx
    rcases hx with rfl | rfl
    · exact .inl rfl
    · exact .inr rfl
  next => exact absurd hx List.not_mem_nil

/-- Every copy of a register of `w` bytes at the place lies whole in one 1 MiB set-up block: the place is one copy a
block, or all copies share one, or the copies stand in the part of a block that the place divides up. -/
def Place.inOneBlock (w : Nat) : Place → Bool
  | .glob base stride c =>
    stride % 0x100000 = 0 && base % 0x100000 + w ≤ 0x100000 || base % 0x100000 + stride * (c - 1) + w ≤ 0x100000
  | .port off => off + w ≤ 0x8000
  | .portArr off stride c => off + stride * (c - 1) + w ≤ 0x8000
  | .lane off => off + 64 + w ≤ 0x100000
  | .chan off => off + w ≤ 32
  | .pcie off => off + w ≤ 0x1000
  | .pcieSub off => off + 0x80 + w ≤ 0x1000
  | _ => true

/-- The register table (R561) puts no register across the end of a set-up block. -/
theorem fld_inOneBlock : ∀ fld ∈ Fld.all, fld.place.inOneBlock (fld.msb / 8 + 1) = true := by decide +kernel

theorem setupHits_inOneBlock {p : Place} {a n w : Nat} (hp : p.inOneBlock w = true) {x : Nat × Nat}
    (hx : x ∈ setupHits p a n) : x.2 % 0x100000 + w ≤ 0x100000 := by
  have last {stride c k : Nat} (hk : k < c) : stride * k ≤ stride * (c - 1) :=
    Nat.mul_le_mul_left stride (Nat.le_sub_one_of_lt hk)
  cases p with simp only [Place.inOneBlock, Bool.or_eq_true, Bool.and_eq_true, decide_eq_true_eq] at hp
  | glob base stride c =>
    obtain hb | ⟨k, hk, hb⟩ := addr_of_setupHits_glob hx <;> rw [hb]
    · omega
    rcases hp with ⟨hs, hw⟩ | hw
    · rwa [Nat.add_mod, Nat.mul_mod, hs, Nat.zero_mul, Nat.zero_mod, Nat.add_zero, Nat.mod_mod]
    · have := last (stride := stride) hk
      omega
  | port off =>
    obtain ⟨b, hb, hx⟩ := addr_of_setupHits_port hx
    omega
  | portArr off stride c =>
    obtain ⟨b, hb, k, hk, hx⟩ := addr_of_setupHits_portArr hx
    have := last (stride := stride) hk
    omega
  | lane off =>
    obtain ⟨b, hb, k, hk, hx⟩ := addr_of_setupHits_lane hx
    omega
  | chan off =>
    obtain ⟨b, hb, hx⟩ := addr_of_setupHits_chan hx
    omega
  | pcie off =>
    obtain ⟨b, hb, hx⟩ := addr_of_setupHits_pcie hx
    omega
  | pcieSub off =>
    obtain ⟨b, hb, hx⟩ := addr_of_setupHits_pcieSub hx
    omega
  | _ => simp [setupHits] at hx

/-- A register that an access inside PF0's set-up space meets lies in the access's block. -/
theorem setupHits_sameBlock {fld : Fld} (hfld : fld ∈ Fld.all) {a n : Nat} (hsized : regSized a n = true) {x : Nat × Nat}
    (hx : x ∈ setupHits fld.place a n) (hover : fieldOverlaps fld x.2 a n = true) : x.2 / 0x100000 = a / 0x100000 := by
  have hw := setupHits_inOneBlock (fld_inOneBlock fld hfld) hx
  simp only [regSized, Bool.and_eq_true, Bool.or_eq_true, decide_eq_true_eq] at hsized
  simp only [fieldOverlaps, Bool.and_eq_true, decide_eq_true_eq] at hover
  obtain ⟨rfl | rfl, ha⟩ := hsized <;> omega

/-! ## Absent units (R4) -/

/-- An aligned access of PF0 inside the set-up block of a unit that the device lacks. -/
structure AbsentAccess (d : Ix9) (u a n : Nat) : Prop where
  absent : present d u = false
  lower : 0x2000000 + u * 0x100000 ≤ a
  upper : a < 0x2000000 + (u + 1) * 0x100000
  sized : regSized a n = true

namespace AbsentAccess

variable {d : Ix9} {u a n : Nat} (h : AbsentAccess d u a n)
include h

theorem setup : 0x2000000 ≤ a := by have := h.lower; omega

theorem not_fieldLive {fld : Fld} (hfld : fld ∈ Fld.all) {x : Nat × Nat} (hx : x ∈ setupHits fld.place a n)
    (hover : fieldOverlaps fld x.2 a n = true) : fieldLive d fld x.1 x.2 = false := by
  have hblock := setupHits_sameBlock hfld h.sized hx hover
  have hlower := h.lower
  have hupper := h.upper
  have hunit : (x.2 - 0x2000000) / 0x100000 = u := by omega
  have hsetup : ¬ x.2 < 0x2000000 := by omega
  simp [fieldLive, hunit, h.absent, hsetup]

theorem no_fields : fieldHits d 0 a n = [] := by
  have ha := h.setup
  simp only [fieldHits, ha, bne_self_eq_false, Bool.and_false, Bool.false_eq_true, if_false, if_true, List.filter_eq_nil_iff,
    List.mem_flatMap, List.mem_map, List.mem_filter]
  rintro _ ⟨fld, hfld, x, ⟨hx, hover⟩, rfl⟩
  simp [h.not_fieldLive hfld hx hover]

end AbsentAccess

/-! ## The statements -/

/-- Settles O58: no register of an absent unit's block is live, and every register that the access meets lies in that
block. -/
theorem absentUnitsReadZeroAndIgnoreWrites : Obligations.AbsentUnitsReadZeroAndIgnoreWrites := by
  intro s u a n v _ habsent hlower hupper hsized
  have h : AbsentAccess s.dev u a n := ⟨habsent, hlower, hupper, hsized⟩
  have hacc : FieldAccess s.dev 0 a n := .of_setup h.setup hsized
  constructor
  · rw [exec_rcCounterRead, regReadOut_value (readsDown_no_fields h.no_fields), regRead_no_fields hacc h.no_fields]
    exact fun _ _ x hx hover => h.not_fieldLive (by decide +kernel) hx hover
  · rw [exec_registerWrite, regWrite_no_fields hacc h.no_fields]

/-- Settles O8, by the two rules of the register file: a field read after a write to it, and to another one. -/
theorem registerWriteChangesOneField : Obligations.RegisterWriteChangesOneField :=
  fun d f g i j v => ⟨rget_rset_eq d f i v, rget_rset_ne d f g i j v, rfl⟩

/-- Settles O59: the rules of `regWrite` and of `regReadOut` above, one for each range of addresses. -/
theorem registersAreReadAndWrittenByFunctions : Obligations.RegistersAreReadAndWrittenByFunctions := by
  intro s f a n v
  refine ⟨?unreached, fun hreach => ⟨?doorbell, ?fields⟩, fun hreach hsized bar2 hdb => ⟨?msix, ?discarded⟩, ?read, ?clear⟩
  case unreached =>
    intro hreach bar2
    rw [exec_registerWrite, regWrite_unreached hreach]
  case doorbell =>
    intro hdb
    rw [exec_registerWrite, regWrite_doorbell hreach s.cells v hdb]
  case fields =>
    rintro hdb hsized hmsix hstatus hphoto _ rfl
    rw [exec_registerWrite, regWrite_fields hreach s.cells v ⟨hdb, hstatus, hsized, hmsix, hphoto⟩]
  case msix =>
    intro x hx
    rw [exec_registerWrite, regWrite_msix hreach s.cells v hsized hdb hx]
    exact ⟨fun hn => by rw [if_neg hn], fun hn => by rw [if_pos hn]⟩
  case discarded =>
    intro hx hro
    rw [exec_registerWrite, regWrite_discarded hreach s.cells v hsized hdb hx hro]
  case read =>
    intro _ hup hlow
    rw [exec_rcCounterRead, regReadOut_value hup]
    intro ha hf
    omega
  case clear =>
    intro fld i b hdb hstatus hsized hmsix hphoto hhit hrc hwhole
    rw [regGet_clears ⟨hdb, hstatus, hsized, hmsix, hphoto⟩ hhit hrc hwhole]
    exact ⟨by simp, rfl⟩

end Sys2Proof.Machine
end

section
/-!
SUPPORT and proofs, family 01_architecture: acknowledgements (R38 to R46, R540, R541, R550). One equation for each end a
request can meet, then the statement.
-/

namespace Sys2Proof.Machine

/-! ## What the acknowledgement commands run -/

theorem exec_dmwrCompletion (p : Path) (s : State) :
    exec (.dmwrCompletion p) s = .next (s.follow (ackCompletion s.dev p true)) := rfl

theorem exec_readbackCompletion (p : Path) (s : State) :
    exec (.readbackCompletion p) s = .next (s.follow (ackCompletion s.dev p false)) := rfl

theorem exec_dmwrRetryStatus (p : Path) (s : State) :
    exec (.dmwrRetryStatus p) s = .next (s.follow (dmwrRetry s.dev p)) := rfl

theorem exec_ackRequestFailure (p : Path) (dmwr : Bool) (why : BusFail) (s : State) :
    exec (.ackRequestFailure p dmwr why) s = .next (s.follow (ackFailure s.dev p dmwr why)) := rfl

theorem exec_completionTimeout (p : Path) (q : PcieReq) (s : State) :
    exec (.completionTimeout p q) s = .next (s.follow (cplTimeout s.cells s.dev p q)) := rfl

theorem exec_controllerAcceptance (s : State) :
    exec .controllerAcceptance s = .next (s.follow (controllerAccepts s.dev)) := rfl

theorem exec_portAcknowledgement (p : Path) (s : State) :
    exec (.portAcknowledgement p) s = .next (s.follow (portAcknowledges s.dev p)) := rfl

theorem exec_ackHoldExpiry (p : Path) (s : State) : exec (.ackHoldExpiry p) s = .next (s.only (ackHold s.dev p)) := rfl

theorem exec_domainDownResponse (q : PcieReq) (s : State) :
    exec (.domainDownResponse q) s = .next (s.follow (domainDown s.cells s.dev q)) := rfl

theorem exec_sourceReadCompletion (q : SourceReq) (ecc : List (Nat × Ecc)) (r : ReadData) (s : State) :
    exec (.sourceReadCompletion q ecc r) s = .next (s.follow (sourceRead s.cells (eccAll s.dev ecc) q r)) := rfl

/-! ## Acknowledging requests that complete, fail or are sent again -/

section
variable {d e : Ix9} {p : Path} {r : AckReq} {dmwr : Bool}

/-- The first request of a path is the oldest one of its kind. -/
theorem takeReq_head {rest : List AckReq} (h : (pathSt d p).reqs = r :: rest) :
    takeReq d p r.dmwr = (some r, updPath d p (fun x => { x with reqs := removeFirst x.reqs r })) := by
  simp [takeReq, h]

theorem ackCompletion_of_takeReq (h : takeReq d p dmwr = (some r, e)) :
    ackCompletion d p dmwr = ackRoom
      (r.covers.foldl ackDone (count e (if dmwr then Fld.PCIE_ACK_DMWR else Fld.PCIE_ACK_READBACK) (pathKey p))) p := by
  simp [ackCompletion, h]

theorem ackFailure_of_takeReq (h : takeReq d p dmwr = (some r, e)) {why : BusFail} (hwhy : dmwr = false ∨ why ≠ .ur) :
    ackFailure d p dmwr why = ackRoom (r.covers.foldl (fun d t => ackFailed d p (some why) t) e) p := by
  rcases hwhy with rfl | hne
  · simp [ackFailure, h]
  · simp [ackFailure, h, hne]

/-- A DMWr that drew UR ends the use of DMWr on its path before what it covers fails (R540). -/
theorem ackFailure_dmwr_ur (h : takeReq d p true = (some r, e)) :
    ackFailure d p true .ur =
      ackRoom (r.covers.foldl (fun d t => ackFailed d p (some .ur) t) (useCleared e p false)) p := by
  simp [ackFailure, h]

/-- The block in which request `r` of the path has had one more retry status; the fourth in a row makes it a read-back
(R42). -/
def retried (d : Ix9) (p : Path) (r : AckReq) : Ix9 :=
  updPath (count d Fld.PCIE_MRS (pathKey p)) p (fun x => { x with reqs := x.reqs.map (fun y =>
    if y = r then { r with dmwr := decide (r.retries + 1 < 4), retries := r.retries + 1 } else y) })

theorem dmwrRetry_again (h : (pathSt d p).reqs.find? (·.dmwr) = some r) (hr : r.retries < 3) :
    dmwrRetry d p = emit (retried d p r) (.dmwr p r.w) := by
  have hagain : r.retries + 1 < 4 := by omega
  simp [dmwrRetry, retried, h, hagain]

theorem dmwrRetry_fallsBack (h : (pathSt d p).reqs.find? (·.dmwr) = some r) (hr : 3 ≤ r.retries) :
    dmwrRetry d p = emit (retried d p r)
      (.readBack p (pathSt (retried d p r) p).last.lastWord (pathSt (retried d p r) p).last.translated) := by
  have hlast : ¬ r.retries + 1 < 4 := by omega
  simp [dmwrRetry, retried, h, hlast]

end

/-! ## Timeouts, port acknowledgements and the hold -/

section
variable {d : Ix9} {p : Path}

theorem cplTimeout_path (hp : p ≠ .landing) {r : AckReq} {rest : List AckReq}
    (h : (pathSt (count d Fld.PCIE_CPL_TIMEOUTS (pathKey p)) p).reqs = r :: rest) (m : List Host.Cell) (q : Path) :
    cplTimeout m d p (.path q) = ackFailure (count d Fld.PCIE_CPL_TIMEOUTS (pathKey p)) p r.dmwr .timeout := by
  simp [cplTimeout, hp, h]

theorem cplTimeout_read (hp : p ≠ .landing) (m : List Host.Cell) (q : SourceReq) :
    cplTimeout m d p (.read q) = sourceRead m (count d Fld.PCIE_CPL_TIMEOUTS (pathKey p)) q (.fail .timeout) :=
  if_neg hp

theorem cplTimeout_other (hp : p ≠ .landing) (m : List Host.Cell) :
    cplTimeout m d p .other = count d Fld.PCIE_CPL_TIMEOUTS (pathKey p) := if_neg hp

theorem portAck_cons {t : Tok} {rest : List Tok} (h : (pathSt d p).port = t :: rest) :
    portAck d p = ackDone (updPath d p (fun x => { x with port := rest })) t := by
  simp [portAck, h]

theorem issueAck_readBack (hw : (pathSt d p).waiting ≠ []) (hroom : (pathSt d p).reqs.length < 16) :
    issueAck d p false = sendAckReq (updPath d p (fun y => { y with
      waiting := [], funcs := []
      reqs := (pathSt d p).reqs ++ [⟨(pathSt d p).waiting, false, 0, (pathSt d p).last, (pathSt d p).funcs⟩] })) p false := by
  have hissue : ((pathSt d p).waiting.isEmpty || decide (16 ≤ (pathSt d p).reqs.length)) = false := by
    simp [hw, hroom]
  simp only [issueAck, hissue, Bool.false_eq_true, if_false, Bool.false_and]
  rfl

end

/-- Data for a peer's read or atomic is no UR (R540): USE_ATOMIC stays, and what its connection has parked runs. -/
theorem sourceRead_peer_ok (m : List Host.Cell) (d : Ix9) (n psn : Nat) (b : List Byte)
    (hc : cachedConn (readBack m d n psn (.ok b)) n = true) :
    sourceRead m d (.peer n psn) (.ok b) = runParked (readBack m d n psn (.ok b)) n := by
  simp only [sourceRead, reduceCtorEq, decide_false, Bool.false_and, Bool.false_eq_true, if_false]
  split <;> simp only [hc, if_true]

/-- Settles O56, by the equations above, one for each way an acknowledgement ends. That the oldest request of a kind is the
one that ends, and that the counters count at its end, is the model's choice (log entry 48). -/
theorem acknowledgementsEndOrFail : Obligations.AcknowledgementsEndOrFail := by
  intro s p
  refine ⟨?request, ?retry, ?timeout, ?controller, ?port, ?hold, ?down, ?source, fun q => rfl⟩
  case request =>
    rintro dm r d _ htake rfl
    refine ⟨?_, ?_, fun why hwhy => ?_, ?_⟩
    · rintro rfl
      rw [exec_dmwrCompletion, ackCompletion_of_takeReq htake]
    · rintro rfl
      rw [exec_readbackCompletion, ackCompletion_of_takeReq htake]
    · rw [exec_ackRequestFailure, ackFailure_of_takeReq htake hwhy]
    · rintro rfl
      rw [exec_ackRequestFailure, ackFailure_dmwr_ur htake]
  case retry =>
    rintro r _ _ hfind rfl rfl _ rfl
    rw [exec_dmwrRetryStatus]
    exact ⟨fun hr => by rw [dmwrRetry_again hfind hr, retried], fun hr => by rw [dmwrRetry_fallsBack hfind hr, retried]⟩
  case timeout =>
    rintro hp _ rfl
    simp only [exec_completionTimeout]
    refine ⟨fun q r rest hreqs => ?_, fun q => by rw [cplTimeout_read hp], by rw [cplTimeout_other hp]⟩
    rw [cplTimeout_path hp hreqs, ackFailure_of_takeReq (takeReq_head hreqs) (.inr (by decide))]
  case controller =>
    intro t rest hup hport
    rw [exec_controllerAcceptance, controllerAccepts, if_pos hup, portAck_cons hport]
  case port =>
    intro t rest hp hup hport
    simp [exec_portAcknowledgement, portAcknowledges, hp, hup, portAck_cons hport]
  case hold =>
    rintro _ _ hp rfl hw hroom rfl
    rw [exec_ackHoldExpiry, ackHold, if_neg hp, issueAck_readBack hw hroom]
  case down =>
    rintro hdown _ _ rfl rfl
    simp [exec_domainDownResponse, domainDown, hdown, pathLost]
  case source =>
    rintro q ecc r _ rfl
    simp only [exec_sourceReadCompletion, eccAll]
    refine ⟨?message, ?stage, ?heat, ?stride, ?prefetch, ?peer⟩
    case message => rintro n org a b off rfl; rfl
    case stage => rintro w slot rfl; rfl
    case heat => rintro key rfl; rfl
    case stride => rintro c rfl; rfl
    case prefetch => rintro k slot rfl; rfl
    case peer =>
      rintro n psn b rfl rfl hcached
      rw [sourceRead_peer_ok _ _ _ _ _ hcached]

end Sys2Proof.Machine
end

section
/-!
SUPPORT and proofs, family 02_consistency: PERST_N, host link loss and return, photo finish and tile evacuation (R65, R68,
R487 to R491, R497 to R499, R549). One equation for each case of an event, then the statement.
-/

namespace Sys2Proof.Machine

/-! ## What the commands run -/

theorem exec_perstNAssert (s : State) : exec .perstNAssert s = .next (s.follow (perstAssert s.dev)) := rfl

theorem exec_perstNDeassert (s : State) : exec .perstNDeassert s = .next (s.follow (perstDeassert s.dev)) := rfl

theorem exec_hostDlDown (s : State) : exec .hostDlDown s = .next (s.follow (hostDlDown s.dev)) := rfl

/-- A Hot Reset of the host port runs what its data link going down runs (R549). -/
theorem exec_hostHotReset (s : State) : exec .hostHotReset s = .next (s.follow (hostDlDown s.dev)) := rfl

theorem exec_hostHb (s : State) : exec .hostHb s =
    .next (s.only (if wrote s.dev 0 Fld.HOST_HB 0 then hostHb s.dev else s.dev)) := rfl

theorem exec_hbWindowExpiry (s : State) : exec .hbWindowExpiry s = .next (s.follow (hbExpiry s.dev)) := rfl

theorem exec_hostLinkReturn (speed width : Nat) (flit : Bool) (s : State) :
    exec (.hostLinkReturn speed width flit) s =
      .next (s.follow (hostReturn (pathLost s.dev .host) speed width flit)) := rfl

theorem exec_photoArm (b : Nat) (s : State) : exec (.photoArm b) s =
    .next (s.only (if wrote s.dev 0 (photoFld b Fld.PHOTO_CTRL_ARM0 Fld.PHOTO_CTRL_ARM1) 0 then photoArm s.dev b
      else s.dev)) := rfl

theorem exec_photoTime (b : Nat) (late : List Nat) (s : State) :
    exec (.photoTime b late) s = .next (s.only (photoTime s.dev b late)) := rfl

theorem exec_photoLateCopy (b u : Nat) (s : State) :
    exec (.photoLateCopy b u) s = .next (s.only (photoLate s.dev b u)) := rfl

theorem exec_evacGoEvacuate (src dst : Nat) (s : State) : exec (.evacGoEvacuate src dst) s =
    .next (s.follow (if wrote s.dev 0 Fld.EVAC_CTRL_GO 0 then evacGo s.dev src dst false else s.dev)) := rfl

theorem exec_evacGoReturn (src dst : Nat) (s : State) : exec (.evacGoReturn src dst) s =
    .next (s.follow (if wrote s.dev 0 Fld.EVAC_CTRL_GO 0 then evacGo s.dev src dst true else s.dev)) := rfl

theorem exec_evacDrainExpiry (s : State) : exec .evacDrainExpiry s = .next (s.follow (evacDrain s.dev)) := rfl

theorem exec_evacBlockMoved (s : State) : exec .evacBlockMoved s = .next (s.follow (evacMoved s.dev)) := rfl

/-! ## PERST_N and the host's link (R487, R489, R490) -/

section
variable {d low : Ix9}

theorem perstAssert_warm (hlow : low = { d with boot := { d.boot with perstLow := true } }) (hcold : onlyCold low = false)
    (hwarm : rflag low Fld.RESET_CFG_PERST_WARM = true) : perstAssert d = warmReset low 3 true := by
  subst hlow
  simp [perstAssert, hcold, hwarm]

theorem perstAssert_hostLoss (hlow : low = { d with boot := { d.boot with perstLow := true } })
    (hcold : onlyCold low = false) (hwarm : rflag low Fld.RESET_CFG_PERST_WARM = false) (hready : islandReady low 7 = true) :
    perstAssert d = hostLoss low true := by
  subst hlow
  simp [perstAssert, hcold, hwarm, hready]

theorem perstDeassert_held (h : d.boot.hold = true) :
    perstDeassert d = { d with boot := { d.boot with perstLow := false, hold := false, stage := 1 } } := by
  simp [perstDeassert, h]

/-- Host link loss with the data link up: the record, the link's status, the resets of the functions in use, the VFs first,
and HOST_UP. -/
theorem hostLoss_linkDown {e f : Ix9} {fs : List Nat}
    (he : e = errorAt d { unit := uHOST, code := 0x08, level := 2, island := 7 } none)
    (hup : rflag e Fld.PCIE_LINK_STATUS_DL_UP 0 = true)
    (hf : f = count (rset e Fld.PCIE_LINK_STATUS_DL_UP 0 0) Fld.PCIE_LINK_DOWNS 0)
    (hfs : fs = (usedFuncs f).filter (· != fIF0)) :
    hostLoss d true = hostUp ((fs.filter isVf ++ fs.filter (fun f => !isVf f)).foldl funcResetBegin f) false := by
  subst hfs hf
  simp only [hostLoss, ← he, hup, Bool.true_and, if_true]

theorem hostDlDown_up (hready : islandReady d 7 = true) (hup : rflag d Fld.PCIE_LINK_STATUS_DL_UP 0 = true) :
    hostDlDown d = hostLoss d true := by
  simp [hostDlDown, hready, hup]

theorem hbExpiry_up (hwindow : rget d Fld.HOSTLL_CFG_HB_WINDOW ≠ 0) (hready : islandReady d 7 = true)
    (hup : rflag d Fld.HOST_STATUS_HOST_UP = true) : hbExpiry d = hostLoss d false := by
  simp [hbExpiry, hwindow, hready, hup]

theorem hostUp_changed {up : Bool} (h : rflag d Fld.HOST_STATUS_HOST_UP ≠ up) :
    hostUp d up = msixSend (rset d Fld.HOST_STATUS_HOST_UP 0 (b2n up)) fIF0 (rget d Fld.HOST_STATUS_VECTOR) := if_neg h

theorem hostReturn_ready (hready : islandReady d 7 = true) (hperst : d.boot.perstLow = false) (speed width : Nat)
    (flit : Bool) :
    hostReturn d speed width flit = hostUp (rset (rset (rset (rset d Fld.PCIE_LINK_STATUS_DL_UP 0 1)
      Fld.PCIE_LINK_STATUS_SPEED 0 speed) Fld.PCIE_LINK_STATUS_WIDTH 0 width) Fld.PCIE_LINK_STATUS_FLIT 0 (b2n flit)) true := by
  simp [hostReturn, hready, hperst]

end

/-! ## Photo finish (R65, R68, R491) -/

section
variable {d : Ix9} {b : Nat}

/-- A unit that is not ready at T is marked late and leaves the bank's units; one whose arming has not come stays. -/
theorem photoTime_armed (hb : b < 2) (harmed : (bankOf d b).armed = true) (late : List Nat) :
    photoTime d b late = photoValid ((bankOf d b).units.foldl (fun d u =>
      if late.contains u then d else if unitReady d u then photoCopy d b u
      else setBank (setLate d b u) b
        { bankOf (setLate d b u) b with units := (bankOf (setLate d b u) b).units.filter (· != u) }) d) b := by
  simp [photoTime, Nat.not_le.2 hb, harmed]

theorem photoTime_one_ready (hb : b < 2) {u : Nat} (harmed : (bankOf d b).armed = true) (hunits : (bankOf d b).units = [u])
    (hready : unitReady d u = true) : photoTime d b [] = photoValid (photoCopy d b u) b := by
  simp [photoTime_armed hb harmed, hunits, hready]

theorem photoLate_armed (hb : b < 2) {u : Nat} (harmed : (bankOf d b).armed = true) (hu : u ∈ (bankOf d b).units) :
    photoLate d b u = photoValid (rset (setLate (photoCopy d b u) b u)
      (photoFld b Fld.PHOTO_LATE_TIME0 Fld.PHOTO_LATE_TIME1) u ((setLate (photoCopy d b u) b u).now % 2 ^ 64)) b := by
  simp [photoLate, Nat.not_le.2 hb, harmed, hu]

end

/-! ## Starting an evacuation or return (R497 to R499) -/

section
variable {d e : Ix9} {src dst : Nat} {back : Bool}

/-- A refused request leaves ERR and CAUSE in the block `e` that holds the tiles and the mode asked for. -/
theorem evacGo_refused (hsrc : src < 4) (hdst : dst < 4) {c : Nat} (hcause : evacCause e src dst back = some c)
    (he : e = rset (rset (rset d Fld.EVAC_CTRL_SRC 0 src) Fld.EVAC_CTRL_DST 0 dst) Fld.EVAC_CTRL_MODE 0 (b2n back)) :
    evacGo d src dst back = rset (rset e Fld.EVAC_STATUS_ERR 0 1) Fld.EVAC_STATUS_CAUSE 0 c := by
  simp only [evacGo, Nat.mod_eq_of_lt hsrc, Nat.mod_eq_of_lt hdst, ← he, hcause]

theorem evacGo_evacuates (hsrc : src < 4) (hdst : dst < 4) (hcause : evacCause e src dst false = none)
    (he : e = rset (rset (rset d Fld.EVAC_CTRL_SRC 0 src) Fld.EVAC_CTRL_DST 0 dst) Fld.EVAC_CTRL_MODE 0 (b2n false)) :
    evacGo d src dst false =
      evacSettle (setEvac (rset e Fld.EVAC_STATUS_BUSY 0 1) (some { src := src, dst := dst, back := false })) := by
  simp only [evacGo, Nat.mod_eq_of_lt hsrc, Nat.mod_eq_of_lt hdst, ← he, hcause, Bool.false_eq_true, if_false]

/-- A return powers the islands of the tile up again, and moves from DST back to SRC. -/
theorem evacGo_returns (hsrc : src < 4) (hdst : dst < 4) (hcause : evacCause e src dst true = none)
    (he : e = rset (rset (rset d Fld.EVAC_CTRL_SRC 0 src) Fld.EVAC_CTRL_DST 0 dst) Fld.EVAC_CTRL_MODE 0 (b2n true))
    {f : Ix9} (hf : f = rset e Fld.EVAC_STATUS_BUSY 0 1) :
    evacGo d src dst true = engineReset (setEvac { f with off := f.off.filter (fun i => !(tileIslands src).contains i) }
      (some { src := dst, dst := src, back := true })) { level := 4, tile := src, engine := 7 } := by
  simp only [evacGo, Nat.mod_eq_of_lt hsrc, Nat.mod_eq_of_lt hdst, ← he, hcause, ← hf, if_true]

end

/-- Settles O53, by the equations above, one for each case of an event. That HOST_HB records the time of its write alone,
and that the tile of a return is reset at level T, is the model's choice (log entry 45). -/
theorem hostLossPhotoFinishAndEvacuation : Obligations.HostLossPhotoFinishAndEvacuation := by
  intro s low hlow
  refine ⟨?perstWarm, ?perstLoss, ?perstHeld, ?linkDown, ?loss, fun _ _ => hostUp_changed, ?restart, ?heartbeat, ?return_,
    ?photo, ?start, ?drain, ?moved⟩
  case perstWarm =>
    intro hcold hwarm
    rw [exec_perstNAssert, perstAssert_warm hlow hcold hwarm]
  case perstLoss =>
    intro hcold hwarm hready
    rw [exec_perstNAssert, perstAssert_hostLoss hlow hcold hwarm hready]
  case perstHeld =>
    intro hhold
    rw [exec_perstNDeassert, perstDeassert_held hhold]
  case linkDown =>
    intro hready hup
    rw [exec_hostDlDown, exec_hostHotReset, hostDlDown_up hready hup]
    exact ⟨rfl, rfl⟩
  case loss =>
    intro d e fs he hup hd hfs
    exact hostLoss_linkDown he hup hd hfs
  case restart =>
    intro hwrote
    rw [exec_hostHb, if_pos hwrote, hostHb]
  case heartbeat =>
    intro hwindow hready hup
    rw [exec_hbWindowExpiry, hbExpiry_up hwindow hready hup]
  case return_ =>
    rintro speed width flit _ rfl hready hperst
    rw [exec_hostLinkReturn, hostReturn_ready hready hperst]
  case photo =>
    intro b hb
    refine ⟨?arm, fun u harmed hunits hready => ?one, fun late harmed => ?all, fun u harmed hu => ?late⟩
    case arm =>
      rintro _ _ _ hwrote rfl rfl rfl
      rw [exec_photoArm, if_pos hwrote, photoArm, if_neg (Nat.not_le.2 hb)]
    case one => rw [exec_photoTime, photoTime_one_ready hb harmed hunits hready]
    case all => rw [exec_photoTime, photoTime_armed hb harmed]
    case late => rw [exec_photoLateCopy, photoLate_armed hb harmed hu]
  case start =>
    rintro src dst _ hwrote hsrc hdst rfl
    rw [exec_evacGoEvacuate, exec_evacGoReturn, if_pos hwrote, if_pos hwrote]
    refine ⟨fun c hcause => ?_, fun hcause => ?_, fun c hcause => ?_, fun e hcause he => ?_⟩
    · rw [evacGo_refused hsrc hdst hcause rfl]
    · rw [evacGo_evacuates hsrc hdst hcause rfl]
    · rw [evacGo_refused hsrc hdst hcause rfl]
    · rw [evacGo_returns hsrc hdst hcause rfl he]
  case drain =>
    intro v d1 d2 d3 left hevac hback hdrained h1 h2 h3 hleft
    subst hleft h3 h2 h1
    simp [exec_evacDrainExpiry, evacDrain, hevac, hback, hdrained]
  case moved =>
    intro v b rest mine pins d e g hevac hmoving hblocks hmine hpins hd he hg
    subst hg he hd hpins hmine
    simp only [exec_evacBlockMoved, evacMoved, hevac, hmoving, hblocks]

end Sys2Proof.Machine
end

section
/-!
SUPPORT and proofs, family 03_work_submission: the weighted round robin, doorbells, the fetch, arbitration, admin queues,
the queue opcodes and the transport entries (R80 to R106). What each command runs and one equation for each case of an
operation come first in each part, then its statement.
-/

namespace Sys2Proof.Machine

/-! ## The weighted round robin (R94) -/

/-- The members of `l` in the order `wrrPick` asks them, from the pointer on, each with its distance from the pointer. -/
def wrrOrder (l : List Nat) (ptr : Nat) : List (Nat × Nat) :=
  (List.range l.length).filterMap (fun i => (l[(ptr + i) % l.length]?).map (fun m => (i, m)))

theorem mem_wrrOrder {l : List Nat} {ptr i m : Nat} :
    (i, m) ∈ wrrOrder l ptr ↔ i < l.length ∧ l[(ptr + i) % l.length]? = some m := by
  simp [wrrOrder]

theorem mem_of_mem_wrrOrder {l : List Nat} {ptr i m : Nat} (h : (i, m) ∈ wrrOrder l ptr) : m ∈ l :=
  List.mem_of_getElem? (mem_wrrOrder.1 h).2

/-- Going once round from the pointer meets every member. -/
theorem exists_mem_wrrOrder {l : List Nat} {m : Nat} (h : m ∈ l) (ptr : Nat) : ∃ i, (i, m) ∈ wrrOrder l ptr := by
  obtain ⟨j, hj, hm⟩ := List.mem_iff_getElem.1 h
  have hptr : ptr % l.length < l.length := Nat.mod_lt _ (by omega)
  refine ⟨(j + (l.length - ptr % l.length)) % l.length, mem_wrrOrder.2 ⟨Nat.mod_lt _ (by omega), ?_⟩⟩
  have hpos : (ptr + (j + (l.length - ptr % l.length)) % l.length) % l.length = j := by
    have hround : ptr + (j + (l.length - ptr % l.length)) = j + l.length * (ptr / l.length + 1) := by
      have := Nat.div_add_mod ptr l.length
      rw [Nat.mul_succ]
      omega
    rw [Nat.add_mod_mod, hround, Nat.add_mul_mod_self_left, Nat.mod_eq_of_lt hj]
  rw [hpos, List.getElem?_eq_getElem hj, hm]

section
variable {l : List Nat} {ptr : Nat} {elig : Nat → Bool} {credit weight : Nat → Nat}

theorem wrrPick_credit {i m : Nat} (h : (wrrOrder l ptr).find? (fun x => elig x.2 && 0 < credit x.2) = some (i, m)) :
    wrrPick l ptr elig credit weight = some (m, (ptr + i + 1) % l.length, false) := by
  rw [wrrOrder] at h
  simp only [wrrPick, h]

theorem wrrPick_newRound (h : (wrrOrder l ptr).find? (fun x => elig x.2 && 0 < credit x.2) = none)
    (hany : l.any elig = true) :
    wrrPick l ptr elig credit weight = ((wrrOrder l ptr).find? (fun x => elig x.2 && 0 < weight x.2)).map
      (fun x => (x.2, (ptr + x.1 + 1) % l.length, true)) := by
  rw [wrrOrder] at h
  simp only [wrrPick, h, hany]
  rfl

theorem wrrPick_none_eligible (h : (wrrOrder l ptr).find? (fun x => elig x.2 && 0 < credit x.2) = none)
    (hany : l.any elig = false) : wrrPick l ptr elig credit weight = none := by
  rw [wrrOrder] at h
  simp only [wrrPick, h, hany]
  rfl

/-- Where the first search finds nobody, no eligible member has credit. -/
theorem credit_eq_zero_of_find?_eq_none (h : (wrrOrder l ptr).find? (fun x => elig x.2 && 0 < credit x.2) = none) {x : Nat}
    (hx : x ∈ l) (helig : elig x = true) : credit x = 0 := by
  obtain ⟨i, hi⟩ := exists_mem_wrrOrder hx ptr
  simpa [helig] using List.find?_eq_none.1 h _ hi

/-- What `wrrPick` picks: a member found on the way round, on credit, or by weight in a new round. -/
theorem wrrPick_eq_some {m p : Nat} {fresh : Bool} (h : wrrPick l ptr elig credit weight = some (m, p, fresh)) :
    ∃ i, (i, m) ∈ wrrOrder l ptr ∧ elig m = true ∧ p = (ptr + i + 1) % l.length ∧
      (fresh = false ∧ 0 < credit m ∨
        fresh = true ∧ 0 < weight m ∧ ∀ x ∈ l, elig x = true → credit x = 0) := by
  cases hc : (wrrOrder l ptr).find? (fun x => elig x.2 && 0 < credit x.2) with
  | some x =>
    obtain ⟨i, m'⟩ := x
    rw [wrrPick_credit hc] at h
    obtain ⟨rfl, rfl, rfl⟩ : m' = m ∧ (ptr + i + 1) % l.length = p ∧ false = fresh := by simpa using h
    have hfound := List.find?_some hc
    simp only [Bool.and_eq_true, decide_eq_true_eq] at hfound
    exact ⟨i, List.mem_of_find?_eq_some hc, hfound.1, rfl, .inl ⟨rfl, hfound.2⟩⟩
  | none =>
    cases hany : l.any elig with
    | false => simp [wrrPick_none_eligible hc hany] at h
    | true =>
      rw [wrrPick_newRound hc hany, Option.map_eq_some_iff] at h
      obtain ⟨⟨i, m'⟩, hw, heq⟩ := h
      obtain ⟨rfl, rfl, rfl⟩ : m' = m ∧ (ptr + i + 1) % l.length = p ∧ true = fresh := by simpa using heq
      have hfound := List.find?_some hw
      simp only [Bool.and_eq_true, decide_eq_true_eq] at hfound
      exact ⟨i, List.mem_of_find?_eq_some hw, hfound.1, rfl,
        .inr ⟨rfl, hfound.2, fun x hx => credit_eq_zero_of_find?_eq_none hc hx⟩⟩

/-- An eligible member with credit or weight makes the pick succeed. -/
theorem wrrPick_isSome {x : Nat} (hx : x ∈ l) (helig : elig x = true) (hpos : 0 < credit x ∨ 0 < weight x) :
    (wrrPick l ptr elig credit weight).isSome = true := by
  cases hc : (wrrOrder l ptr).find? (fun x => elig x.2 && 0 < credit x.2) with
  | some y => rw [wrrPick_credit hc, Option.isSome_some]
  | none =>
    have hweight : 0 < weight x := hpos.resolve_left (by simp [credit_eq_zero_of_find?_eq_none hc hx helig])
    obtain ⟨i, hi⟩ := exists_mem_wrrOrder hx ptr
    rw [wrrPick_newRound hc (List.any_eq_true.2 ⟨x, hx, helig⟩), Option.isSome_map, List.find?_isSome]
    exact ⟨_, hi, by simp [helig, hweight]⟩

end

/-- Settles O13, by the two lemmas above: what a pick is, and that there is one. -/
theorem weightedRoundRobinPicksAnEligibleMember : Obligations.WeightedRoundRobinPicksAnEligibleMember := by
  intro l ptr elig credit weight
  refine ⟨fun m p fresh h => ?_, fun ⟨x, hx, helig, hpos⟩ => wrrPick_isSome hx helig hpos⟩
  obtain ⟨i, hi, helig, rfl, hround⟩ := wrrPick_eq_some h
  have hlen : 0 < l.length := List.length_pos_of_mem (mem_of_mem_wrrOrder hi)
  refine ⟨mem_of_mem_wrrOrder hi, helig, Nat.mod_lt _ hlen, ?_⟩
  obtain ⟨rfl, hcredit⟩ | ⟨rfl, hweight, hnone⟩ := hround
  · exact ⟨fun _ => hcredit, fun h => absurd h Bool.false_ne_true⟩
  · exact ⟨fun h => absurd h.symm Bool.false_ne_true, fun _ => ⟨hweight, hnone⟩⟩

/-! ## Doorbells (R84, R85, R97, R101, R141) -/

theorem exec_sqDoorbellWrite (f i v : Nat) (w : Bool) (s : State) :
    exec (.sqDoorbellWrite f i w v) s = .next (s.follow (sqDoorbell s.dev f i w v)) := rfl

theorem exec_cqDoorbellWrite (f i v : Nat) (w : Bool) (s : State) :
    exec (.cqDoorbellWrite f i w v) s = .next (s.only (cqDoorbell s.dev f i w v)) := rfl

theorem exec_eqDoorbellWrite (f i v : Nat) (w : Bool) (s : State) :
    exec (.eqDoorbellWrite f i w v) s = .next (s.store (eqDoorbell s.dev f i w v)) := rfl

theorem exec_fqDoorbellWrite (f i v : Nat) (w : Bool) (s : State) :
    exec (.fqDoorbellWrite f i w v) s = .next (s.only (fqDoorbell s.dev f i w v)) := rfl

/-- Bit 63 of an event doorbell is ARM: a smaller value carries none (R101). -/
theorem flag_63_of_lt {v : Nat} (h : v < 2 ^ 63) : flag v 63 = false := by
  rw [flag, Nat.shiftRight_eq_div_pow, Nat.div_eq_of_lt h]
  rfl

@[simp] theorem dbTaken_partial (d : Ix9) (f : Nat) : dbTaken d f false = false := rfl

section
variable {d : Ix9} {f i v : Nat} {w : Bool}

/-- A doorbell of any kind that is no whole write, or names no queue of its kind, is discarded (R84). -/
theorem sqDoorbell_refused (h : w = false ∨ sqByDb d f i = none) : sqDoorbell d f i w v = dbDiscard d f := by
  obtain rfl | h := h
  · cases hq : sqByDb d f i <;> simp [sqDoorbell, hq]
  · simp [sqDoorbell, h]

theorem cqDoorbell_refused (h : w = false ∨ cqByDb d f i = none) : cqDoorbell d f i w v = dbDiscard d f := by
  obtain rfl | h := h
  · cases hq : cqByDb d f i <;> simp [cqDoorbell, hq]
  · simp [cqDoorbell, h]

theorem eqDoorbell_refused (h : w = false ∨ eqByDb d f i = none) : eqDoorbell d f i w v = dbDiscard d f := by
  obtain rfl | h := h
  · cases hq : eqByDb d f i <;> simp [eqDoorbell, hq]
  · simp [eqDoorbell, h]

theorem fqDoorbell_refused (h : w = false ∨ (fctxOf d f).fqV = false ∨ (fctxOf d f).fqDb ≠ i) :
    fqDoorbell d f i w v = dbDiscard d f := by
  obtain rfl | hv | hi := h
  · simp [fqDoorbell]
  · simp [fqDoorbell, hv]
  · simp [fqDoorbell, hi]

theorem dbTaken_whole (hreset : (funcOf d f).resetting = false) : dbTaken d f true = true := by simp [dbTaken, hreset]

section
variable {k : Nat} {q : Sq} (hq : sqByDb d f i = some (k, q))
include hq

theorem sqDoorbell_old (h : v ≤ q.lim) : sqDoorbell d f i true v = dbDiscard d f := by
  simp [sqDoorbell, hq, h]

theorem sqDoorbell_beyond (hreset : (funcOf d f).resetting = false) (hnew : q.lim < v)
    (h : q.consumed + 2 ^ q.ring.log2 < v) :
    sqDoorbell d f i true v = queueError d k ST_QUEUE_ERROR 0x01 false := by
  simp [sqDoorbell, hq, dbTaken_whole hreset, Nat.not_le.2 hnew, h]

theorem sqDoorbell_new (hreset : (funcOf d f).resetting = false) (hnew : q.lim < v)
    (h : v ≤ q.consumed + 2 ^ q.ring.log2) :
    sqDoorbell d f i true v = updSq d k (fun q => { q with lim := v }) := by
  simp [sqDoorbell, hq, dbTaken_whole hreset, Nat.not_le.2 hnew, Nat.not_lt.2 h]

end

section
variable {k : Nat} {c : Cq} (hc : cqByDb d f i = some (k, c))
include hc

theorem cqDoorbell_inside (hreset : (funcOf d f).resetting = false) (hlo : c.cons ≤ v) (hhi : v ≤ c.prod) :
    cqDoorbell d f i true v = { d with q := { d.q with cqs := put d.q.cqs k { c with cons := v } } } := by
  simp [cqDoorbell, hc, dbTaken_whole hreset, Nat.not_lt.2 hlo, Nat.not_lt.2 hhi]

theorem cqDoorbell_outside (h : v < c.cons ∨ c.prod < v) : cqDoorbell d f i true v = dbDiscard d f := by
  obtain h | h := h <;> simp [cqDoorbell, hc, h]

end

section
variable {k : Nat} {e : Eq} (he : eqByDb d f i = some (k, e)) (harm : v < 2 ^ 63)
include he harm

theorem eqDoorbell_inside (hreset : (funcOf d f).resetting = false) (hlo : e.cons ≤ v) (hhi : v ≤ e.prod) :
    eqDoorbell d f i true v = eqDrain (e.waiting.length + 1)
      { d with q := { d.q with eqs := put d.q.eqs k { e with cons := v } } } k := by
  simp [-Nat.reducePow, eqDoorbell, he, Nat.mod_eq_of_lt harm, flag_63_of_lt harm, dbTaken_whole hreset,
    Nat.not_lt.2 hlo, Nat.not_lt.2 hhi]

theorem eqDoorbell_outside (h : v < e.cons ∨ e.prod < v) : eqDoorbell d f i true v = dbDiscard d f := by
  obtain h | h := h <;> simp [-Nat.reducePow, eqDoorbell, he, Nat.mod_eq_of_lt harm, h]

end

theorem fqDoorbell_inside (hreset : (funcOf d f).resetting = false) (hv : (fctxOf d f).fqV = true)
    (hi : (fctxOf d f).fqDb = i) (hlo : (fctxOf d f).cons ≤ v) (hhi : v ≤ (fctxOf d f).prod) : fqDoorbell d f i true v =
      { d with x := { d.x with fctx := put d.x.fctx f { fctxOf d f with cons := v } } } := by
  simp [fqDoorbell, hv, hi, dbTaken_whole hreset, Nat.not_lt.2 hlo, Nat.not_lt.2 hhi]

theorem fqDoorbell_outside (h : v < (fctxOf d f).cons ∨ (fctxOf d f).prod < v) :
    fqDoorbell d f i true v = dbDiscard d f := by
  obtain h | h := h <;> simp [fqDoorbell, h]

end

/-- Settles O9, by the equations above. That a doorbell beyond the ring leaves L as it was is the model's choice (log
entry 14). -/
theorem submissionDoorbellsFollowTheirRule : Obligations.SubmissionDoorbellsFollowTheirRule := by
  intro s f i v
  refine ⟨fun w h => ?_, fun w h => ?_, fun w h => ?_, fun w h => ?_, fun k q hq hreset =>
    ⟨fun hold => ?_, fun hnew hbeyond => ?_, fun hnew hroom => ?_⟩⟩
  · rw [exec_sqDoorbellWrite, sqDoorbell_refused h, dbDiscard]
  · rw [exec_cqDoorbellWrite, cqDoorbell_refused h, dbDiscard]
  · rw [exec_eqDoorbellWrite, eqDoorbell_refused h, dbDiscard]
  · rw [exec_fqDoorbellWrite, fqDoorbell_refused h, dbDiscard]
  · rw [exec_sqDoorbellWrite, sqDoorbell_old hq hold, dbDiscard]
  · rw [exec_sqDoorbellWrite, sqDoorbell_beyond hq hreset hnew hbeyond]
  · rw [exec_sqDoorbellWrite, sqDoorbell_new hq hreset hnew hroom]

/-- Settles O10, by the equations above. That an event doorbell without ARM leaves an earlier ARM is the model's choice
(log entry 14). -/
theorem consumerDoorbellsMoveTheirCounts : Obligations.ConsumerDoorbellsMoveTheirCounts := by
  intro s f i v hreset
  refine ⟨fun k c hc => ⟨fun hlo hhi => ?_, fun h => ?_⟩, fun k e he harm => ⟨fun hlo hhi => ?_, fun h => ?_⟩, ?_⟩
  · rw [exec_cqDoorbellWrite, cqDoorbell_inside hc hreset hlo hhi]
  · rw [exec_cqDoorbellWrite, cqDoorbell_outside hc h, dbDiscard]
  · rw [exec_eqDoorbellWrite, eqDoorbell_inside he harm hreset hlo hhi]
  · rw [exec_eqDoorbellWrite, eqDoorbell_outside he harm h, dbDiscard]
  · rintro _ rfl hv hi
    refine ⟨fun hlo hhi => ?_, fun h => ?_⟩
    · rw [exec_fqDoorbellWrite, fqDoorbell_inside hreset hv hi hlo hhi]
    · rw [exec_fqDoorbellWrite, fqDoorbell_outside h, dbDiscard]

/-! ## Tables and submission queues after a change -/

theorem put_put {α : Type} (t : Tbl α) (k : Nat) (v w : α) : put (put t k v) k w = put t k w := by
  induction t with
  | nil => simp [put]
  | cons x r ih =>
    obtain ⟨i, u⟩ := x
    simp only [put]
    split
    · simp [put]
    · split
      · simp [put]
      next hlt hne => simp [put, hlt, hne, ih]

theorem upd_upd {α : Type} (t : Tbl α) (k : Nat) (f g : α → α) : upd (upd t k f) k g = upd t k (fun v => g (f v)) := by
  cases h : look t k <;> simp [upd, h, put_put]

theorem drop_put {α : Type} (t : Tbl α) (k : Nat) (v : α) : drop (put t k v) k = drop t k := by
  induction t with
  | nil => simp [put, drop]
  | cons x r ih =>
    obtain ⟨i, u⟩ := x
    simp only [put]
    split
    · simp [drop]
    · split
      next _ heq => simp [drop, heq]
      next =>
        simp only [drop, List.filter_cons] at ih ⊢
        rw [ih]

theorem drop_upd {α : Type} (t : Tbl α) (k : Nat) (f : α → α) : drop (upd t k f) k = drop t k := by
  cases h : look t k <;> simp [upd, h, drop_put]

section
variable {d : Ix9} {k : Nat} {q : Sq}

theorem sqAt_updSq (g : Sq → Sq) : sqAt (updSq d k g) k = (sqAt d k).map g := look_upd_eq _ _ _

theorem updSq_updSq (f g : Sq → Sq) : updSq (updSq d k f) k g = updSq d k (fun q => g (f q)) := by
  simp [updSq, upd_upd]

/-- Only what a change makes of the queue that is there counts. -/
theorem updSq_eq_of_sqAt (hq : sqAt d k = some q) {f g : Sq → Sq} (h : f q = g q) : updSq d k f = updSq d k g := by
  unfold sqAt at hq
  simp [updSq, upd, hq, h]

end

/-! ## The fetch (R87) and the queue-error completion (R91) -/

theorem exec_fetchReadReturn_ring (k : Nat) (r : ReadData) (s : State) :
    exec (.fetchReadReturn k (.ring r)) s = .next (s.follow (fetchReturn s.cells s.dev k r)) := rfl

theorem exec_phaseReread (k : Nat) (s : State) : exec (.phaseReread k) s = .next (s.follow (phaseReread s.dev k)) := rfl

theorem exec_queueErrorCompletion (k : Nat) (s : State) :
    exec (.queueErrorCompletion k) s = .next (s.follow (errCompletion s.dev k)) := rfl

/-- A queue whose first read of ring slots is out: it stands in no error and in no phase defence, has slots below L, and
its tile and function serve. -/
structure FirstFetch (d : Ix9) (k : Nat) (q : Sq) : Prop where
  queue : sqAt d k = some q
  noErr : q.err = none
  noReread : q.reread = none
  tile : xportReady d q.tile = true
  func : (funcOf d q.func).resetting = false
  slots : 0 < fetchSlots q

section
variable {m : List Host.Cell} {d : Ix9} {k : Nat} {q : Sq} {r : ReadData} {b : List Byte}

theorem fetchReturn_accepts (h : FirstFetch d k q) (hread : ringRead m d q (fetchSlots q) r = .ok b) {n : Nat}
    (hn : n = slotLen (((chunksOf 16 b).map leNat).headD 0)) (hfits : n ≤ fetchSlots q)
    (hhead : phasesMatch q (((chunksOf 16 b).map leNat).take 1) = true)
    (hall : phasesMatch q (((chunksOf 16 b).map leNat).take n) = true) :
    fetchReturn m d k r = acceptEntry d k (((chunksOf 16 b).map leNat).take n) := by
  subst hn
  simp [-List.headD_eq_head?_getD, fetchReturn, h.queue, h.noErr, h.noReread, h.tile, h.func,
    Nat.ne_of_gt h.slots, hread, hhead, Nat.not_lt.2 hfits, hall]

theorem mismatch_first (hq : sqAt d k = some q) (hreread : q.reread = none)
    (hretry : rget d Fld.FETCH_CFG_DB_RETRY q.tile ≠ 0) (len : Option Nat) :
    mismatch d k q len =
      updSq d k (fun q => { q with reread := some ⟨rget d Fld.FETCH_CFG_DB_RETRY q.tile, 0, len⟩ }) := by
  simp only [mismatch, hreread, hretry, if_false]
  exact updSq_eq_of_sqAt hq rfl

theorem fetchReturn_mismatch (h : FirstFetch d k q) (hread : ringRead m d q (fetchSlots q) r = .ok b)
    (hhead : phasesMatch q (((chunksOf 16 b).map leNat).take 1) = false) : fetchReturn m d k r = mismatch d k q none := by
  simp [fetchReturn, h.queue, h.noErr, h.noReread, h.tile, h.func, Nat.ne_of_gt h.slots, hread, hhead]

theorem phaseReread_issues (hq : sqAt d k = some q) {x : Reread} (hx : q.reread = some x) (hleft : x.left ≠ 0) :
    phaseReread d k = updSq d k (fun q => { q with reread := some { x with left := x.left - 1, out := x.out + 1 } }) :=
  updSq_eq_of_sqAt hq (by simp [hx, hleft])

/-- The error completion of a queue on the path of its events: the entry, then the event at once. -/
theorem errCompletion_writes (hq : sqAt d k = some q) {c : Cq} {st cause : Nat} (herr : q.err = some (st, cause))
    (hdue : q.errDue = true) (hentries : q.entries = []) (hdying : q.dying = none) (hcq : look d.q.cqs q.cq = some c)
    (hroom : c.prod - c.cons + c.reserved < 2 ^ c.ring.log2) (hreset : (funcOf d q.func).resetting = false)
    {e : Ix9} (he : e = cqWrite (updSq d k (fun q => { q with errDue := false })) q.cq
      { status := st, sqId := sqIdOf k, cause := cause, consumed := q.consumed % 2 ^ 32 })
    {ev : Eq} (heq : look e.q.eqs c.eq = some ev) (hpath : pathOf e c.ring.base = pathOf e ev.ring.base) :
    errCompletion d k = eqRaise e c.eq ⟨EV_QUEUE_ERROR, sqIdOf k, st + cause * 2 ^ 8⟩ := by
  simp [-Nat.reducePow, errCompletion, hq, herr, hcq, hdue, hentries, hdying, hroom, hreset, ← he, heq, hpath, errEvent]

end

/-- Settles O11, by the equations above. That the error completion is written once no accepted entry is left is the model's
choice (log entry 13). -/
theorem fetchedEntriesAreAccepted : Obligations.FetchedEntriesAreAccepted := by
  intro s k q hq
  refine ⟨?fetch, fun x hx hleft => ?reread, ?completion⟩
  case fetch =>
    intro r b n herr hreread htile hfunc hslots hread hn
    have h : FirstFetch s.dev k q := ⟨hq, herr, hreread, htile, hfunc, hslots⟩
    refine ⟨fun hfits hhead hall => ?_, fun hhead hretry => ?_⟩
    · rw [exec_fetchReadReturn_ring, fetchReturn_accepts h hread hn hfits hhead hall]
    · rw [exec_fetchReadReturn_ring, fetchReturn_mismatch h hread hhead, mismatch_first hq hreread hretry]
  case reread => rw [exec_phaseReread, phaseReread_issues hq hx hleft]
  case completion =>
    intro c ev st cause herr hdue hentries hdying hcq hroom hreset d hd heq hpath
    rw [exec_queueErrorCompletion, errCompletion_writes hq herr hdue hentries hdying hcq hroom hreset hd heq hpath]

/-! ## Arbitration (R94, R201) and the moderation time (R99) -/

theorem exec_arbitrate (t : Nat) (s : State) : exec (.arbitrate t) s = .next (s.follow (arbitrate s.dev t)) := rfl

theorem exec_modTimeExpiry (k : Nat) (s : State) : exec (.modTimeExpiry k) s = .next (s.store (modTimeEnd s.dev k)) := rfl

theorem arbitrate_picks {d a b c : Ix9} {t lane f k : Nat} {q : Sq} (ht : xportReady d t = true)
    (hlane : pickLane (wakeConns (freshen d) t) t = some (lane, a)) (hfunc : pickFunc a t lane = some (f, b))
    (hqueue : pickQueue b t lane f = some (k, c)) (hq : sqAt c k = some q) : arbitrate d t = startBurst q.turn c k := by
  simp [arbitrate, ht, hlane, hfunc, hqueue, hq]

theorem modTimeEnd_due {d : Ix9} {k : Nat} {c : Cq} (hc : look d.q.cqs k = some c) (huncovered : c.uncovered ≠ 0)
    (htimer : c.timer ≠ 0) (hreset : (funcOf d c.func).resetting = false) : modTimeEnd d k = cqEvent d k := by
  simp [modTimeEnd, hc, huncovered, htimer, hreset]

/-- Settles O12, by the two equations above. -/
theorem arbitrationStartsTheQueueWhoseTurnItIs : Obligations.ArbitrationStartsTheQueueWhoseTurnItIs := by
  refine ⟨fun s t lane f k a b c q ht hlane hfunc hqueue hq => ?_, fun s k c hc huncovered htimer hreset => ?_⟩
  · rw [exec_arbitrate, arbitrate_picks ht hlane hfunc hqueue hq]
  · rw [exec_modTimeExpiry, modTimeEnd_due hc huncovered htimer hreset]

/-! ## Admin queues (R102, R103) -/

theorem exec_adminEnable (f : Nat) (s : State) : exec (.adminEnable f) s =
    .next (s.follow (if regReach s.dev f then adminEnable s.dev f else s.dev)) := rfl

theorem exec_adminDisable (f : Nat) (s : State) : exec (.adminDisable f) s =
    .next (s.follow (if regReach s.dev f then adminDisable s.dev f else s.dev)) := rfl

/-- The block once ENABLE has been written 0: ERR and CAUSE are cleared with it (R103). -/
def adminOff (d : Ix9) (f : Nat) : Ix9 :=
  rset (rset (rset d Fld.ADMIN_CTRL_ENABLE f 0) Fld.ADMIN_STATUS_ERR f 0) Fld.ADMIN_STATUS_CAUSE f 0

/-- ENABLE is a field of its own: no other admin field's write changes it. -/
theorem rflag_enable_rset (d : Ix9) (f v : Nat) {fld : Fld}
    (h : fld = Fld.ADMIN_STATUS_ERR ∨ fld = Fld.ADMIN_STATUS_CAUSE ∨ fld = Fld.ADMIN_STATUS_READY) :
    rflag (rset d fld f v) Fld.ADMIN_CTRL_ENABLE f = rflag d Fld.ADMIN_CTRL_ENABLE f := by
  unfold rflag
  rw [rget_rset_ne]
  obtain rfl | rfl | rfl := h <;> simp [regKey, Fld.ADMIN_CTRL_ENABLE, Fld.ADMIN_STATUS_ERR, Fld.ADMIN_STATUS_CAUSE,
    Fld.ADMIN_STATUS_READY]

theorem rflag_enable_adminOff (d : Ix9) (f : Nat) : rflag (adminOff d f) Fld.ADMIN_CTRL_ENABLE f = false := by
  rw [adminOff, rflag_enable_rset _ _ _ (.inr (.inl rfl)), rflag_enable_rset _ _ _ (.inl rfl)]
  simp [rflag]

section
variable {d : Ix9} {f : Nat}

theorem adminEnable_none (hf : 5 ≤ f) : adminEnable d f = d := by simp [adminEnable, hasAdmin, Nat.not_lt.2 hf]

theorem adminDisable_none (hf : 5 ≤ f) : adminDisable d f = d := by simp [adminDisable, hasAdmin, Nat.not_lt.2 hf]

theorem adminDisable_eq (hf : f < 5) : adminDisable d f =
    adminSettle (updSq (queueError (adminOff d f) (adminKey f) ST_FLUSHED 0 true) (adminKey f)
      (fun q => { q with errDue := false })) f := by
  simp [adminDisable, hasAdmin, hf, adminOff]

theorem adminEnable_down (hf : f < 5) (hreset : (funcOf d f).resetting = false)
    (hdown : has d.q.sqs (adminKey f) = false) :
    adminEnable d f = adminUp (rset d Fld.ADMIN_CTRL_ENABLE f 1) f := by
  simp [adminEnable, hasAdmin, hf, hreset, hdown]

/-- A queue with nothing in it goes into error without flushing an entry. -/
theorem queueError_flush_empty {k : Nat} {q : Sq} (hq : sqAt d k = some q) (hentries : q.entries = [])
    (hpaused : q.paused = none) (st cause : Nat) :
    queueError d k st cause true =
      updSq d k (fun q => { q with err := some (st, cause), errDue := true, reread := none, paused := none }) := by
  simp [queueError, hq, flushEntries, sqAt_updSq, hentries, hpaused, updSq_updSq]

/-- An admin queue that is being disabled and holds no entry goes, and READY with it. -/
theorem adminSettle_gone {q : Sq} (hq : sqAt d (adminKey f) = some q) (herr : q.err = some (ST_FLUSHED, 0))
    (hentries : q.entries = []) (henable : rflag d Fld.ADMIN_CTRL_ENABLE f = false) :
    adminSettle d f = rset { d with q := { d.q with
      sqs := drop d.q.sqs (adminKey f), cqs := drop d.q.cqs (adminKey f), eqs := drop d.q.eqs (adminKey f),
      pf0Waiting := (if f = 0 then ((look d.q.eqs (adminKey f)).map (·.waiting)).getD [] else []).foldl absorb
        d.q.pf0Waiting } } Fld.ADMIN_STATUS_READY f 0 := by
  simp only [adminSettle, hq, herr, hentries, List.isEmpty_nil, decide_true, Bool.and_self, if_true,
    rflag_enable_rset _ _ _ (.inr (.inr rfl))]
  exact if_neg (by simpa [rflag, rget, resetValue] using henable)

theorem adminDisable_empty (hf : f < 5) {q : Sq} (hq : sqAt d (adminKey f) = some q) (hentries : q.entries = [])
    (hpaused : q.paused = none) :
    adminDisable d f = rset { adminOff d f with q := { d.q with
      sqs := drop d.q.sqs (adminKey f), cqs := drop d.q.cqs (adminKey f), eqs := drop d.q.eqs (adminKey f),
      pf0Waiting := (if f = 0 then ((look d.q.eqs (adminKey f)).map (·.waiting)).getD [] else []).foldl absorb
        d.q.pf0Waiting } } Fld.ADMIN_STATUS_READY f 0 := by
  have hq' : sqAt (adminOff d f) (adminKey f) = some q := hq
  rw [adminDisable_eq hf, queueError_flush_empty hq' hentries hpaused, updSq_updSq,
    adminSettle_gone (q := { q with err := some (ST_FLUSHED, 0), errDue := false, reread := none, paused := none })
      (by rw [sqAt_updSq, hq', Option.map_some]) rfl hentries]
  · simp [updSq, drop_upd, adminOff]
  · exact rflag_enable_adminOff d f

end

/-- Settles O14, by the equations above. That a disable flushes with ST_FLUSHED, cause 0, is the model's choice (log
entry 14). -/
theorem adminQueuesComeUpAndGoDown : Obligations.AdminQueuesComeUpAndGoDown := by
  intro s f hreach
  simp only [exec_adminEnable, exec_adminDisable, if_pos hreach]
  refine ⟨?enable, ?empty, fun hf => ?disable, fun hf => ?absent⟩
  case enable =>
    rintro hf hreset hdown _ rfl
    rw [adminEnable_down hf hreset hdown]
    refine ⟨fun c hcause => ?_, ?_⟩
    · simp only [adminUp, hcause]
    · rintro _ _ _ rfl rfl rfl hcause
      simp only [adminUp, hcause]
  case empty =>
    rintro _ _ q hf rfl hq hentries hpaused rfl
    rw [adminDisable_empty hf hq hentries hpaused]
    rfl
  case disable => rw [adminDisable_eq hf, adminOff]
  case absent =>
    rw [adminEnable_none hf, adminDisable_none hf]
    exact ⟨rfl, rfl⟩

/-! ## The queue opcodes (R81, R92, R93, R104, R105) -/

theorem exec_opNop (k slot : Nat) (s : State) : exec (.opNop k slot) s = .next (s.follow (opNop s.dev k slot)) := rfl

theorem exec_opSqCreate (k slot : Nat) (s : State) :
    exec (.opSqCreate k slot) s = .next (s.follow (opCreate s.dev 0x60 k slot)) := rfl

theorem exec_opCqCreate (k slot : Nat) (s : State) :
    exec (.opCqCreate k slot) s = .next (s.follow (opCreate s.dev 0x61 k slot)) := rfl

theorem exec_opEqCreate (k slot : Nat) (s : State) :
    exec (.opEqCreate k slot) s = .next (s.follow (opCreate s.dev 0x62 k slot)) := rfl

theorem exec_opQueueDestroy (k slot : Nat) (s : State) :
    exec (.opQueueDestroy k slot) s = .next (s.follow (opDestroy s.dev k slot)) := rfl

theorem exec_opQueueModify (k slot : Nat) (s : State) :
    exec (.opQueueModify k slot) s = .next (s.follow (opModify s.dev false k slot)) := rfl

theorem exec_queueRestart (k slot : Nat) (s : State) :
    exec (.queueRestart k slot) s = .next (s.follow (queueRestart s.dev k slot)) := rfl

/-- How many numbers the queues have that a create opcode makes. -/
def createSpace (op : Nat) : Nat := if op = 0x62 then 4096 else 65536

/-- A queue of the kind that a create opcode makes has the number `n`. -/
def createTaken (q : Queues) (op n : Nat) : Bool :=
  if op = 0x60 then has q.sqs n else if op = 0x61 then has q.cqs n else has q.eqs n

/-- The queues with the one that a create entry describes under the number `n`. -/
def created (q : Queues) (op n : Nat) (e : Entry) : Queues :=
  if op = 0x60 then { q with sqs := put q.sqs n e.newSq }
  else if op = 0x61 then { q with cqs := put q.cqs n e.newCq }
  else { q with eqs := put q.eqs n e.newEq }

section
variable {d : Ix9} {op k slot n : Nat} {q : Sq} {e : Entry}

theorem opNop_ends (h : startedEntry d 0x70 k slot = some (q, e)) : opNop d k slot = endEntry d k slot ST_OK := by
  simp [opNop, h]

theorem opCreate_fails (h : startedEntry d op k slot = some (q, e)) {c : Nat} (hcause : createCause d q.func e = some c) :
    opCreate d op k slot = endEntry d k slot ST_BAD_ENTRY c := by
  simp [opCreate, h, hcause]

/-- A create that passes its checks adds the queue it describes under the next unused number. -/
theorem opCreate_passes (h : startedEntry d op k slot = some (q, e)) (hcause : createCause d q.func e = none)
    (hquota : createQuota d e = true)
    (hn : pickFree (draw d).1 (createSpace op) (createTaken d.q op) (createSpace op) = some n) :
    opCreate d op k slot = endEntry { (draw d).2 with q := created d.q op n e } k slot ST_OK 0 0 n := by
  unfold createSpace createTaken at hn
  simp only [opCreate, h, hcause, hquota, Bool.not_true, Bool.false_eq_true, if_false, draw_q, hn, created]

section
variable (h : startedEntry d 0x63 k slot = some (q, e)) (hcause : destroyCause d q.func e = none)
include h hcause

theorem opDestroy_cq (hkind : e.oparg0 % 4 = 1) : opDestroy d k slot =
    endEntry { d with q := { d.q with cqs := drop d.q.cqs (e.object % 65536) } } k slot ST_OK := by
  simp [opDestroy, h, hcause, hkind]

theorem opDestroy_eq (hkind : e.oparg0 % 4 = 2) : opDestroy d k slot =
    endEntry { d with q := { d.q with eqs := drop d.q.eqs (e.object % 65536) } } k slot ST_OK := by
  simp [opDestroy, h, hcause, hkind]

end

/-- A modify that waits for nothing takes effect; as a RESTART that has waited, only where it selects RESTART. -/
theorem opModify_modifies (h : startedEntry d 0x64 k slot = some (q, e)) (hwaits : waitsRestart d q.func e = false)
    (hcause : modifyCause d q.func e = none) {restart : Bool} (hsel : restart = true → flag e.opflags 0 = true) :
    opModify d restart k slot = modifyQueue d k slot e := by
  have hskip : (restart && !flag e.opflags 0) = false := by
    cases restart with
    | false => rfl
    | true => simp [hsel rfl]
  simp [opModify, h, hskip, hwaits, hcause]

/-- QUEUE_RESTART of a modify that has started already. -/
theorem queueRestart_started (hq : sqAt d k = some q) (hhead : headEntry q = none) :
    queueRestart d k slot = opModify d true k slot := by
  simp [queueRestart, hq, hhead]

end

/-- Settles O15, by the equations above. The free number of a create is the model's choice (log entry 3), and so are the
order of the checks and what a RESTART waits for (log entries 12 and 13). -/
theorem queueOpcodesCreateChangeAndEnd : Obligations.QueueOpcodesCreateChangeAndEnd := by
  intro s k slot q e hq he hstage hphase hissued hturn
  have started {op : Nat} (hop : e.op = op) : startedEntry s.dev op k slot = some (q, e) :=
    startedEntry_eq_some.2 ⟨hq, he, hop, hstage, hphase, hissued, hturn⟩
  refine ⟨fun hop => ?nop, fun n _ hcause hquota => ⟨fun hop hn => ?sq, fun hop hn => ?cq, fun hop hn => ?eq⟩,
    fun c hop hcause => ?fails, fun hop hcause => ⟨fun hkind => ?dropCq, fun hkind => ?dropEq⟩,
    fun hop hwaits hcause => ⟨?modify, fun hhead hsel => ?restart⟩⟩
  case nop => rw [exec_opNop, opNop_ends (started hop)]
  case sq => exact (exec_opSqCreate k slot s).trans (by rw [opCreate_passes (started hop) hcause hquota hn]; rfl)
  case cq => exact (exec_opCqCreate k slot s).trans (by rw [opCreate_passes (started hop) hcause hquota hn]; rfl)
  case eq => exact (exec_opEqCreate k slot s).trans (by rw [opCreate_passes (started hop) hcause hquota hn]; rfl)
  case fails => rw [exec_opSqCreate, opCreate_fails (started hop) hcause]
  case dropCq => rw [exec_opQueueDestroy, opDestroy_cq (started hop) hcause hkind]
  case dropEq => rw [exec_opQueueDestroy, opDestroy_eq (started hop) hcause hkind]
  case modify => rw [exec_opQueueModify, opModify_modifies (started hop) hwaits hcause (by simp)]
  case restart =>
    rw [exec_queueRestart, queueRestart_started hq hhead, opModify_modifies (started hop) hwaits hcause fun _ => hsel]

/-! ## Transport entries (R164, R166 to R168) -/

theorem exec_opSend (k slot : Nat) (s : State) :
    exec (.opSend k slot) s = .next (s.follow (opTransport s.dev 0x10 k slot)) := rfl

theorem exec_opWrite (k slot : Nat) (s : State) :
    exec (.opWrite k slot) s = .next (s.follow (opTransport s.dev 0x11 k slot)) := rfl

theorem exec_opWriteImm (k slot : Nat) (s : State) :
    exec (.opWriteImm k slot) s = .next (s.follow (opTransport s.dev 0x12 k slot)) := rfl

theorem exec_opRead (k slot : Nat) (s : State) :
    exec (.opRead k slot) s = .next (s.follow (opTransport s.dev 0x13 k slot)) := rfl

theorem exec_opFetchAdd (k slot : Nat) (s : State) :
    exec (.opFetchAdd k slot) s = .next (s.follow (opTransport s.dev 0x14 k slot)) := rfl

theorem exec_opCmpSwap (k slot : Nat) (s : State) :
    exec (.opCmpSwap k slot) s = .next (s.follow (opTransport s.dev 0x15 k slot)) := rfl

theorem opTransport_posts {d : Ix9} {op k slot : Nat} {q : Sq} {e : Entry} (h : startedEntry d op k slot = some (q, e)) :
    opTransport d op k slot = updConn (updEntry d k slot (fun e => { e with phase := 1 })) e.object
      (fun c => { c with txMsgs := c.txMsgs ++ [entryMsg k e] }) := by
  simp [opTransport, h, postMsg]

/-- Settles O16: the six opcodes run one operation, each on the entries of its own opcode. -/
theorem transportEntriesPostTheirMessage : Obligations.TransportEntriesPostTheirMessage := by
  rintro s k slot op q e h _ rfl
  refine ⟨?_, ?_, ?_, ?_, ?_, ?_⟩ <;> rintro rfl
  · rw [exec_opSend, opTransport_posts h]
  · rw [exec_opWrite, opTransport_posts h]
  · rw [exec_opWriteImm, opTransport_posts h]
  · rw [exec_opRead, opTransport_posts h]
  · rw [exec_opFetchAdd, opTransport_posts h]
  · rw [exec_opCmpSwap, opTransport_posts h]

end Sys2Proof.Machine
end

section
/-!
SUPPORT and proofs, family 04_translation: invalidations and their end (R121 to R125), walks, ATS and page requests (R117,
R127 to R129), remote windows (R131 to R133), prefetch and advice (R136 to R139). The equations of each operation come
first, one for each case, then the two statements.
-/

namespace Sys2Proof.Machine

/-! ## What the translation commands run -/

theorem exec_opPrefetch (k slot : Nat) (s : State) :
    exec (.opPrefetch k slot) s = .next (s.follow (opPrefetch s.dev k slot)) := rfl

theorem exec_opAdvise (k slot : Nat) (s : State) :
    exec (.opAdvise k slot) s = .next (s.follow (opAdvise s.dev k slot)) := rfl

theorem exec_opInvalidate (k slot : Nat) (s : State) :
    exec (.opInvalidate k slot) s = .next (s.follow (opInvalidate s.dev k slot)) := rfl

theorem exec_opWindowSet (k slot : Nat) (s : State) :
    exec (.opWindowSet k slot) s = .next (s.follow (opWindowSet s.dev k slot)) := rfl

theorem exec_invalidationDone (id : Nat) (r : ReadData) (s : State) :
    exec (.invalidationDone id r) s = .next (s.follow (invDone s.cells s.dev id r)) := rfl

theorem exec_invDrainLimitExpiry (id : Nat) (s : State) :
    exec (.invDrainLimitExpiry id) s = .next (s.follow (invLimit s.dev id)) := rfl

theorem exec_walkDone (isl asid page : Nat) (reads : List (Nat × ReadData)) (s : State) :
    exec (.walkDone isl asid page reads) s = .next (s.follow (walkDone s.cells s.dev isl asid page reads)) := rfl

theorem exec_atsTranslationCompletion (isl asid page : Nat) (r : AtsRes) (s : State) :
    exec (.atsTranslationCompletion isl asid page r) s = .next (s.follow (atsDone s.dev isl asid page r)) := rfl

theorem exec_atsInvalidateRequest (id pasid va pages : Nat) (s : State) :
    exec (.atsInvalidateRequest id pasid va pages) s = .next (s.follow (atsInvalidate s.dev id pasid va pages)) := rfl

theorem exec_pageRequestGroupResponse (isl asid page : Nat) (ok : Bool) (s : State) :
    exec (.pageRequestGroupResponse isl asid page ok) s = .next (s.follow (pageResponse s.dev isl asid page ok)) := rfl

theorem exec_priTimeout (isl asid page : Nat) (s : State) :
    exec (.priTimeout isl asid page) s = .next (s.follow (pageResponse s.dev isl asid page false)) := rfl

theorem exec_xlateLock (s : State) :
    exec .xlateLock s = .next (s.store (if wrote s.dev 0 Fld.XLATE_CTRL_LOCK 0 then xlateLock s.dev else s.dev)) := rfl

theorem exec_windowTableInitDone (s : State) :
    exec .windowTableInitDone s = .next (s.follow (winInitDone s.dev)) := rfl

theorem exec_windowQuarantineEnd (n : Nat) (s : State) :
    exec (.windowQuarantineEnd n) s = .next (s.follow (winQuarEnd s.dev n)) := rfl

/-! ## Prefetch, advice and invalidation entries (R121 to R123, R137, R139) -/

section
variable {d : Ix9} {k slot : Nat} {q : Sq} {e : Entry}

section
variable (h : startedEntry d 0x40 k slot = some (q, e))
include h

theorem opPrefetch_seeks (huse : mayUse d q.func (e.object % 2 ^ 20) = true)
    (hmode : (ctxOf d (e.object % 2 ^ 20)).mode ≠ 1) :
    opPrefetch d k slot = pfGo (updEntry d k slot (fun e => { e with phase := pfSeek })) k slot := by
  simp only [opPrefetch, h, huse, hmode, Bool.not_true, Bool.false_eq_true, if_false]

theorem opPrefetch_refused (huse : mayUse d q.func (e.object % 2 ^ 20) = false) :
    opPrefetch d k slot = endEntry d k slot ST_XLATE_PERM := by
  simp only [opPrefetch, h, huse, Bool.not_false, if_true]

end

section
variable (h : startedEntry d 0x41 k slot = some (q, e)) (huse : mayUse d q.func (e.object % 2 ^ 20) = true)
include h huse

theorem opAdvise_adds (hhint : e.action2 < 3) (hroom : (ctxOf d (e.object % 2 ^ 20)).advice.length < 64) {d' : Ix9}
    (hd : d' = updCtx d (e.object % 2 ^ 20)
      (fun c => { c with advice := ⟨e.rangeVa, e.rangePages, e.action2, e.oparg0⟩ :: c.advice })) :
    opAdvise d k slot = endEntry (if e.action2 = 2 then adviceWalks d' (e.object % 2 ^ 20) e.rangeVa e.rangePages else d')
      k slot ST_OK := by
  simp only [opAdvise, h, huse, Nat.ne_of_lt hhint, Nat.not_le.2 hroom, hd, Bool.not_true, Bool.false_eq_true, if_false]

theorem opAdvise_removes (hhint : e.action2 = 3) :
    opAdvise d k slot = endEntry (updCtx d (e.object % 2 ^ 20) (fun c => { c with
      advice := c.advice.filter (fun a => !rangesMeet (a.va, a.pages * 4096) e.range) })) k slot ST_OK := by
  simp only [opAdvise, h, huse, hhint, Bool.not_true, Bool.false_eq_true, if_false, if_true]

end

section
variable (h : startedEntry d 0x42 k slot = some (q, e)) (hkind : e.invKind < 2)
include h hkind

theorem opInvalidate_begins (huse : mayUse d q.func (e.object % 2 ^ 20) = true) :
    opInvalidate d k slot = invSteps (startInv (updEntry d k slot (fun e => { e with phase := 1 })) (.entry k slot) e.invKind
      (e.object % 2 ^ 20) (if e.invKind = 0 then e.rangeVa else 0) (if e.invKind = 0 then e.rangePages else 2 ^ 52) q.func
      (flag (e.slotAt 0) 27) (flag (e.slotAt 0) 28)) := by
  have h2 : e.invKind ≠ 2 := Nat.ne_of_lt hkind
  have h3 : e.invKind ≠ 3 := Nat.ne_of_lt (Nat.lt_trans hkind (by decide))
  by_cases h0 : e.invKind = 0 <;>
    simp [-Nat.reducePow, opInvalidate, h, huse, h0, h2, h3, Nat.not_le.2 hkind]

theorem opInvalidate_refused (huse : mayUse d q.func (e.object % 2 ^ 20) = false) :
    opInvalidate d k slot = endEntry d k slot ST_XLATE_PERM := by
  simp [-Nat.reducePow, opInvalidate, h, huse, hkind]

end

/-! ## Window entries (R131, R132) -/

section
variable (h : startedEntry d 0x43 k slot = some (q, e))
include h

theorem opWindowSet_creates (haction : e.action2 = 0) (hcheck : winSetCheck d q e = none)
    (hquota : quotaAllows d q.func rWIN 1 = true) (hsize : e.object < winTableSize d) (hnamed : e.object ≠ 0xFFFFFF)
    (hv : (winOf d e.object).v = false) (hquar : (winOf d e.object).quar = false) :
    opWindowSet d k slot = endEntry (setWin d e.object (winMade q e (winOf d e.object))) k slot ST_OK 0 0
      (e.object + (winMade q e (winOf d e.object)).rkey * 2 ^ 32) := by
  simp [-Nat.reducePow, opWindowSet, h, haction, hcheck, hquota, hnamed, hv, hquar, Nat.not_le.2 hsize]

/-- What a modify or a destroy makes of a named window, which changes at once; the entry then waits for the drain. -/
theorem opWindowSet_changes (hnamed : winNamed d q e.object = true) {w : Win}
    (hw : (e.action2 = 1 ∧ winSetCheck d q e = none ∧ w = winMade q e (winOf d e.object)) ∨
      (e.action2 = 2 ∧ w = { winOf d e.object with v := false, quar := true, quarEnd := quarEndOf d })) :
    opWindowSet d k slot = invSteps (startInv
      (updEntry (setWin d e.object w) k slot (fun x => { x with phase := 1, result := e.object + w.rkey * 2 ^ 32 }))
      (.entry k slot) 0 (winOf d e.object).asid (winOf d e.object).base (winOf d e.object).pages q.func false false
      (some e.object)) := by
  obtain ⟨haction, hcheck, rfl⟩ | ⟨haction, rfl⟩ := hw
  · simp [-Nat.reducePow, opWindowSet, h, haction, hcheck, hnamed]
  · simp [-Nat.reducePow, opWindowSet, h, haction, hnamed]

end

end

/-- Settles O23, by the equations above. That OP_PREFETCH of an ASID the function may not use ends with ST_XLATE_PERM is the
model's choice (log entry 16), and so are the moment at which a modify or destroy of a window takes effect and the rise of
WGEN (log entry 15). -/
theorem translationOpcodesTakeEffect : Obligations.TranslationOpcodesTakeEffect := by
  rintro s k slot q e _ rfl
  refine ⟨fun h => ⟨fun huse hmode => ?seeks, fun huse => ?noPrefetch⟩, fun h huse => ⟨?adds, fun hhint => ?removes⟩,
    fun h hkind => ?invalidate, fun h => ⟨?creates, ?changes⟩⟩
  case seeks => rw [exec_opPrefetch, opPrefetch_seeks h huse hmode]
  case noPrefetch => rw [exec_opPrefetch, opPrefetch_refused h huse]
  case adds =>
    intro d hhint hroom hd
    rw [exec_opAdvise, opAdvise_adds h huse hhint hroom hd]
  case removes => rw [exec_opAdvise, opAdvise_removes h huse hhint]
  case invalidate =>
    rintro _ rfl
    refine ⟨fun huse => ?_, fun huse => ?_⟩
    · rw [exec_opInvalidate, opInvalidate_begins h hkind huse]
    · rw [exec_opInvalidate, opInvalidate_refused h hkind huse]
  case creates =>
    rintro _ haction hcheck hquota hsize hnamed hv hquar rfl
    rw [exec_opWindowSet, opWindowSet_creates h haction hcheck hquota hsize hnamed hv hquar]
  case changes =>
    rintro w _ rfl hnamed hw
    rw [exec_opWindowSet, opWindowSet_changes h hnamed hw]

/-! ## The end of an invalidation and of its drain (R62, R123, R124) -/

section
variable {m : List Host.Cell} {d : Ix9} {id : Nat} {i : Inv}

/-- The block once invalidation `id` is over: its marks are left, and the paused queues have resumed or failed. -/
def invOver (d : Ix9) (id : Nat) (i : Inv) : Ix9 :=
  invPaused (invMark { d with x := { d.x with invs := drop d.x.invs id } } i) i

/-- An OP_INVALIDATE of KIND 0 or 1 whose invalidation is drained and acknowledged ends with the count of the entries it
stopped; no context is read again. -/
theorem invDone_endsEntry {k slot : Nat} {e : Entry} (hi : look d.x.invs id = some i) (hdrained : i.draining = false)
    (hacks : i.acks = 0) (hkind : i.kind < 2) (hby : i.by_ = .entry k slot)
    (hpf : i.forPrefetch (invMark { d with x := { d.x with invs := drop d.x.invs id } } i) = false)
    (he : entryAt (invOver d id i) k slot = some e) (hop : e.op = 0x42) (r : ReadData) :
    invDone m d id r = endEntry (invOver d id i) k slot ST_OK 0 0 (i.withdrawn % 2 ^ 16) := by
  have h2 : i.kind ≠ 2 := Nat.ne_of_lt hkind
  have h3 : i.kind ≠ 3 := Nat.ne_of_lt (Nat.lt_trans hkind (by decide))
  unfold invOver at he ⊢
  simp [-Nat.reducePow, invDone, hi, hdrained, hacks, h2, h3, hpf, hby, he, hop]

/-- The block once the limit of invalidation `id`'s drain has stopped every entry that still ran. -/
def drainStopped (d : Ix9) (id : Nat) (i : Inv) : Ix9 :=
  ((runningOld d i.asid i.va i.pages i.xgen).filter (fun x => !halted d x.1 x.2)).foldl (fun d x => withdraw id d x.1 x.2) d

theorem invLimit_stops (hi : look d.x.invs id = some i) (hdraining : i.draining = true)
    (hruns : runsOld (drainStopped d id i) i.asid i.va i.pages i.xgen = []) :
    invLimit d id = invSteps (drainStopped d id i) := by
  unfold drainStopped at hruns ⊢
  simp [invLimit, hi, hdraining, hruns]

end

/-! ## Walks (R117) -/

/-- A walk or ATS request that runs, which no invalidation has covered and whose result is to be kept. -/
def runningReq (isl asid page : Nat) : XReq := { isle := isl, asid := asid, page := page, run := true }

section
variable {m : List Host.Cell} {d : Ix9} {isl asid page : Nat} {reads : List (Nat × ReadData)}

/-- A walk asked for by the island and ASID in the page of the leaf found, which no invalidation has covered. -/
def servedBy (isl asid : Nat) (l : Leaf) (x : XReq) : Bool :=
  x.isle == isl && x.asid == asid && !x.again && decide (l.va ≤ x.page) && decide (x.page < l.va + l.size)

section
variable (hw : d.x.walks.find? (fun w => w.isFor isl asid page && w.run) = some (runningReq isl asid page))
include hw

/-- The walk that ran is among those its leaf serves, and asks to keep the leaf: so it is cached. -/
theorem walkDone_leaf {l : Leaf} {br : List Branch} (hwalk : walk m d isl asid page reads = .leaf l br)
    (hlo : l.va ≤ page) (hhi : page < l.va + l.size) :
    walkDone m d isl asid page reads = runWalks (retryXlate (cacheLeaf
      { d with x := { d.x with walks := d.x.walks.filter (fun x => !servedBy isl asid l x) } } isl l br) isl l.asid) isl := by
  have hkeep : (d.x.walks.filter (servedBy isl asid l)).any (·.keep) = true :=
    List.any_eq_true.2 ⟨_, List.mem_filter.2 ⟨List.mem_of_find?_eq_some hw, by simp [servedBy, runningReq, hlo, hhi]⟩, rfl⟩
  unfold servedBy at hkeep ⊢
  simp only [walkDone, hw, runningReq, hwalk, leafFound, hkeep, Bool.false_eq_true, if_false, if_true]

theorem walkDone_fault {f : XFault} (hwalk : walk m d isl asid page reads = .fault f) :
    walkDone m d isl asid page reads = runWalks (xlateFailed { d with x := { d.x with
      walks := removeFirst d.x.walks (runningReq isl asid page) } } isl asid page f) isl := by
  simp only [walkDone, hw, runningReq, hwalk, Bool.false_eq_true, if_false]

end

end

/-! ## ATS and page requests (R127 to R129) -/

section
variable {d : Ix9} {isl asid page : Nat}

/-- The leaf that an ATS completion grants; the atomic right comes with reading and writing. -/
def atsLeaf (d : Ix9) (asid page addr size : Nat) (rd w ns : Bool) : Leaf :=
  { asid := asid, va := page / size * size, size := size, r := rd, w := w, at_ := rd && w,
    phys := ⟨.host, addr / size * size, (ctxOf d asid).owner, ns, true⟩, gen := 0, xgen := (ctxOf d asid).xgen }

theorem atsDone_granted {addr size : Nat} {rd w ns : Bool}
    (hq : d.x.ats.find? (·.isFor isl asid page) = some (runningReq isl asid page))
    (hright : (rd || w) = true) (hsize : 4096 ≤ size) :
    atsDone d isl asid page (.ok addr size rd w ns) = retryXlate (cacheLeaf
      { d with x := { d.x with ats := removeFirst d.x.ats (runningReq isl asid page) } } isl
      (atsLeaf d asid page addr size rd w ns) []) isl asid := by
  have hgrant : (!rd && !w) = false := by rw [← Bool.not_or, hright, Bool.not_true]
  simp only [atsDone, hq, runningReq, hgrant, leafFound, atsLeaf, Nat.max_eq_right hsize, Bool.false_eq_true, if_false, if_true]

section
variable {id pasid va pages : Nat}

theorem atsInvalidate_unused (h : d.x.ctx.all (fun x => !(x.2.v && x.2.pasid == pasid)) = true) :
    atsInvalidate d id pasid va pages = emit d (.atsInvDone pasid) := by
  have hnone : d.x.ctx.filter (fun x => x.2.v && x.2.pasid == pasid) = [] :=
    List.filter_eq_nil_iff.2 fun x hx => by simpa only [Bool.not_eq_true, Bool.not_eq_true'] using List.all_eq_true.1 h x hx
  simp only [atsInvalidate, hnone, List.map_nil, List.isEmpty_nil, if_true]

theorem atsInvalidate_used {a : Nat} (h : (d.x.ctx.filter (fun x => x.2.v && x.2.pasid == pasid)).map (·.1) = [a]) :
    atsInvalidate d id pasid va pages = invSteps (askInv d ⟨.ats id pasid, 0, a, va, pages, (ctxOf d a).owner⟩) := by
  simp only [atsInvalidate, h, List.isEmpty_cons, Bool.false_eq_true, if_false, List.foldl_cons, List.foldl_nil]

end

/-- The block once a page request has its answer: it waits no longer, and the leaf of its page is cached no longer. -/
def pageAnswered (d : Ix9) (isl asid page : Nat) : Ix9 :=
  { d with x := { d.x with
    pri := removeFirst d.x.pri (isl, asid, page)
    leaves := d.x.leaves.map (fun (i, ls) =>
      (i, if i = isl then ls.filter (fun l => !(l.asid == asid && l.va ≤ page && page < l.va + l.size)) else ls)) } }

section
variable (h : (isl, asid, page) ∈ d.x.pri)
include h

theorem pageResponse_success : pageResponse d isl asid page true =
    emit { pageAnswered d isl asid page with x := { (pageAnswered d isl asid page).x with
        ats := (pageAnswered d isl asid page).x.ats ++ [runningReq isl asid page] } }
      (.ats (ctxOf (pageAnswered d isl asid page) asid).pasid page) := by
  simp only [pageResponse, List.contains_iff_mem.2 h, Bool.not_true, Bool.false_eq_true, if_false, if_true]
  rfl

theorem pageResponse_failure : pageResponse d isl asid page false =
    xlateFailed (pageAnswered d isl asid page) isl asid page (noWalk 0x07 page) := by
  simp only [pageResponse, List.contains_iff_mem.2 h, Bool.not_true, Bool.false_eq_true, if_false]
  rfl

end

end

/-! ## The window table (R132, R133) -/

section
variable {d : Ix9}

/-- The block with the translation fields locked and no window. -/
def xlateLocked (d : Ix9) : Ix9 := { rset d Fld.XLATE_CTRL_LOCK 0 1 with x := { d.x with wins := [] } }

/-- Where the window table lies. -/
def winTableAt (d : Ix9) : Phys :=
  ⟨if rflag d Fld.XLATE_WIN_BASE_LOC then .landing else .host, rget d Fld.XLATE_WIN_BASE_ADDR * 4096, 0, false, false⟩

theorem xlateLock_clearsTable (hopen : rflag d Fld.XLATE_CTRL_LOCK = false) (hsize : winTableSize (xlateLocked d) ≠ 0) :
    xlateLock d = needDest (memWrite (xlateLocked d) (winTableAt (xlateLocked d))
        (List.replicate (32 * winTableSize (xlateLocked d)) 0)).1
      (pathOf (xlateLocked d) (winTableAt (xlateLocked d))) .winInit := by
  have hsize' : winTableSize (rset d Fld.XLATE_CTRL_LOCK 0 1) ≠ 0 := hsize
  simp only [xlateLock, hopen, hsize', Bool.false_eq_true, if_false]
  rfl

theorem winInitDone_ready (hlock : rflag d Fld.XLATE_CTRL_LOCK = true) (hwaits : tokWaits d .winInit = false) :
    winInitDone d = { d with x := { d.x with winReady := true } } := by
  simp only [winInitDone, hlock, hwaits, Bool.not_false, Bool.and_self, if_true]

theorem winQuarEnd_frees {n : Nat} (hquar : (winOf d n).quar = true) : winQuarEnd d n = quotaSettle (setWin d n
    { rkey := (winOf d n).rkey, begun := (winOf d n).begun, drained := (winOf d n).drained }) := by
  simp only [winQuarEnd, hquar, if_true]

end

/-- Settles O24, by the equations above. That an ATS translation gives the atomic right with reading and writing is the
model's choice (log entry 16), and so are the level and generation of a fault without a walk (log entry 60). -/
theorem invalidationsAndWalksEnd : Obligations.InvalidationsAndWalksEnd := by
  refine ⟨?done, ?limit, ?walk, ?ats, fun s id pasid va pages h => ?unused, fun s id pasid va pages a h => ?used, ?page,
    ?lock, fun s hlock hwaits => ?init, ?quarantine⟩
  case done =>
    rintro s id k slot r i e _ hi hdrained hacks hkind hby hpf rfl he hop
    rw [exec_invalidationDone, invDone_endsEntry hi hdrained hacks hkind hby hpf he hop, invOver]
  case limit =>
    rintro s id i _ _ hi hdraining rfl rfl hruns
    rw [exec_invDrainLimitExpiry, invLimit_stops hi hdraining hruns, drainStopped]
  case walk =>
    rintro s isl asid page reads _ rfl hw
    refine ⟨fun l br hwalk hlo hhi => ?_, fun f hwalk => ?_⟩
    · rw [exec_walkDone, walkDone_leaf hw hwalk hlo hhi]
      rfl
    · rw [exec_walkDone, walkDone_fault hw hwalk, runningReq]
  case ats =>
    rintro s isl asid page addr size rd w ns _ rfl hq hright hsize _ rfl
    rw [exec_atsTranslationCompletion, atsDone_granted hq hright hsize, atsLeaf, runningReq]
  case unused => rw [exec_atsInvalidateRequest, atsInvalidate_unused h]
  case used => rw [exec_atsInvalidateRequest, atsInvalidate_used h]
  case page =>
    rintro s isl asid page h _ rfl
    rw [exec_pageRequestGroupResponse, exec_pageRequestGroupResponse, exec_priTimeout, pageResponse_success h,
      pageResponse_failure h]
    exact ⟨rfl, rfl, rfl⟩
  case lock =>
    rintro s _ hwrote hopen rfl hsize _ rfl
    rw [exec_xlateLock, if_pos hwrote, xlateLock_clearsTable hopen hsize]
    rfl
  case init => rw [exec_windowTableInitDone, winInitDone_ready hlock hwaits]
  case quarantine =>
    rintro s n _ rfl hquar
    rw [exec_windowQuarantineEnd, winQuarEnd_frees hquar]

end Sys2Proof.Machine
end

section
/-!
SUPPORT and proofs, family 05_connections: entries that make, change and destroy connections and protection domains (R154 to
R160), request packets in sequence (R162, R164, R168, R183), answers at their connection (R187, R207, R265), fills, spills
and timers (R150, R172, R182, R187, R188, R207). What each command runs and one equation for each case of an operation come
first in each part, then its statement.
-/

namespace Sys2Proof.Machine

/-! ## Entries of connections and protection domains (R154 to R156, R160) -/

theorem exec_opConnCreate (k slot : Nat) (r : ReadData) (s : State) :
    exec (.opConnCreate k slot r) s = .next (s.follow (connCreate s.cells s.dev k slot r)) := rfl

theorem exec_opConnModify (k slot : Nat) (r : ReadData) (s : State) :
    exec (.opConnModify k slot r) s = .next (s.follow (connModify s.cells s.dev k slot r)) := rfl

theorem exec_opConnDestroy (k slot : Nat) (s : State) :
    exec (.opConnDestroy k slot) s = .next (s.follow (connDestroy s.dev k slot)) := rfl

theorem exec_opPdCreate (k slot : Nat) (s : State) :
    exec (.opPdCreate k slot) s = .next (s.follow (opPdCreate s.dev k slot)) := rfl

theorem connCreate_read {m : List Host.Cell} {d d1 : Ix9} {k slot : Nat} {r : ReadData}
    (h : readBlock m d 0x16 k slot r = (d1, true)) : connCreate m d k slot r = createTry d1 k slot := by
  simp only [connCreate, h]

theorem connModify_read {m : List Host.Cell} {d d1 : Ix9} {k slot : Nat} {r : ReadData}
    (h : readBlock m d 0x17 k slot r = (d1, true)) : connModify m d k slot r = modifyTry d1 k slot := by
  simp only [connModify, h]

section
variable {d : Ix9} {k slot : Nat} {q : Sq} {e : Entry}

/-- A create that names a free number, passes its checks and asks for no PIN is made once it has a way. -/
theorem createTry_makes {d2 : Ix9} (hq : sqAt d k = some q) (he : entryAt d k slot = some e) (hstage : e.stage = .started)
    (hop : e.op = 0x16) (hphase : e.phase = 1) (hcheck : createCheck d q e.block = none) (hnamed : e.object ≠ 0xFFFFFF)
    (hfree : connFree d e.object = true) (hpin : (createDoc e.block q.func 0).pin = false)
    (hway : makeWay d e.object (wantsAhead d e.object) = (d2, true)) :
    createTry d k slot = makeConn d2 e.object k slot q e.block := by
  simp [-Nat.reducePow, createTry, hq, he, hstage, hop, hphase, hcheck, hnamed, hfree, hpin, hway]

/-- No word that the mask selects is one that the state forbids. -/
theorem any_forbiddenWord_eq_false {mask st : Nat} (h : ∀ w < 24, flag mask w = true → wordSettable w st = true) :
    (List.range 24).any (fun w => flag mask w && !wordSettable w st) = false := by
  simp only [List.any_eq_false, List.mem_range, Bool.and_eq_true, Bool.not_eq_true', not_and, Bool.not_eq_false]
  exact h

/-- A modify that passes its checks on a cached connection and sets no PIN changes it and goes on with its state. -/
theorem modifyTry_applies {d2 : Ix9} {c2 : Conn} (hq : sqAt d k = some q) (he : entryAt d k slot = some e)
    (hstage : e.stage = .started) (hop : e.op = 0x17) (hphase : e.phase = 1)
    (hc2 : c2 = applyWords (connOf d e.object) (e.oparg1 % 2 ^ 24) e.block) (hreset : (connOf d e.object).state ≠ csRESET)
    (hquar : (connOf d e.object).state ≠ csQUARANTINE) (howner : (connOf d e.object).owner = q.func)
    (hcached : cachedConn d e.object = true) (hturn : modifyBehind d e.object k slot = false)
    (hdest : transition (connOf d e.object).state (e.oparg0 % 8) = true)
    (hwords : ∀ w < 24, flag (e.oparg1 % 2 ^ 24) w = true → wordSettable w (connOf d e.object).state = true)
    (hattrs : attrsOk d c2 = true) (hrq : rqOk d c2.rq q.func (homeTile d e.object) = true)
    (hkey : keyMissing d (connOf d e.object) (e.oparg0 % 8) = false) (hpin : c2.pin = false)
    (hmove : movePin d e.object false = (d2, true)) {d3 : Ix9}
    (hd3 : d3 = updEntry (updConn d2 e.object (fun _ => c2)) k slot (fun e => { e with phase := 2 })) :
    modifyTry d k slot =
      modifyState (quotaSettle (if flag (e.oparg1 % 2 ^ 24) 2 then bindRq d3 c2.rq else d3)) e.object k slot (e.oparg0 % 8) := by
  simp [-Nat.reducePow, modifyTry, hq, he, hstage, hop, hphase, ← hc2, hreset, hquar, howner, hcached, hturn, hdest,
    any_forbiddenWord_eq_false hwords, hattrs, hrq, hkey, hpin, hmove, hd3]

theorem connDestroy_init (h : startedEntry d 0x18 k slot = some (q, e)) (hstate : (connOf d e.object).state = csINIT)
    (howner : (connOf d e.object).owner = q.func) :
    connDestroy d k slot = drainDone (updConn
      (updEntry (quotaSettle (toQuarantine d e.object false false)) k slot (fun e => { e with phase := 1 })) e.object
      (fun c => { c with waiter := c.waiter ++ [(k, slot)] })) e.object := by
  simp [connDestroy, h, hstate, howner, csINIT, csRESET, csQUARANTINE, csREADY_RX]

section
variable (h : startedEntry d 0x67 k slot = some (q, e))
include h

theorem opPdCreate_creates {n : Nat} (hform : flag e.opflags 0 = false)
    (huse : mayUse d (e.oparg1 % 1024) (e.object % 2 ^ 20) = true) (hquota : quotaAllows d (e.oparg1 % 1024) rPD 1 = true)
    (hn : pickFree (draw d).1 (2 ^ 24) (has d.c.pds) (d.c.pds.length + 1) = some n) :
    opPdCreate d k slot = endEntry { (draw d).2 with c :=
      { d.c with pds := put d.c.pds n (e.oparg1 % 1024, e.object % 2 ^ 20) } } k slot ST_OK 0 0 n := by
  simp only [opPdCreate, h, hform, huse, hquota, hn, draw_c, Bool.not_true, Bool.false_eq_true, if_false]

theorem opPdCreate_destroys {f a : Nat} (hform : flag e.opflags 0 = true) (hpd : look d.c.pds e.object = some (f, a))
    (howner : parentPf f = q.func) (hnamed : pdNamed d e.object = false) :
    opPdCreate d k slot = endEntry (quotaSettle { d with c := { d.c with pds := drop d.c.pds e.object } })
      k slot ST_OK 0 0 e.object := by
  simp only [opPdCreate, h, hform, hpd, howner, hnamed, bne_self_eq_false, Bool.or_self, Bool.false_eq_true, if_false, if_true]

end

end

/-- Settles O17, by the equations above. The number of a new domain is a free value of the model (log entry 3). -/
theorem connectionOpcodesMakeChangeAndRetire : Obligations.ConnectionOpcodesMakeChangeAndRetire := by
  intro s k slot q e d1 d2
  refine ⟨?create, ?modify, fun hq he hstage hphase hissued hturn => ?_⟩
  case create =>
    intro r hread hq he hstage hop hphase hcheck hnamed hfree hpin hway
    rw [exec_opConnCreate, connCreate_read hread,
      createTry_makes hq he hstage hop hphase hcheck hnamed hfree hpin hway]
  case modify =>
    intro r c2 hread hq he hstage hop hphase hc2 hreset hquar howner hcached hturn hdest hwords hattrs hrq hkey hpin hmove d3 hd3
    rw [exec_opConnModify, connModify_read hread, modifyTry_applies hq he hstage hop hphase hc2 hreset hquar howner hcached
      hturn hdest hwords hattrs hrq hkey hpin hmove hd3]
  have started {op : Nat} (hop : e.op = op) : startedEntry s.dev op k slot = some (q, e) :=
    startedEntry_eq_some.2 ⟨hq, he, hop, hstage, hphase, hissued, hturn⟩
  refine ⟨fun hop hstate howner => ?destroy, fun n hop hform huse hquota hn => ?newDomain,
    fun f a hop hform hpd howner hnamed => ?oldDomain⟩
  case destroy => rw [exec_opConnDestroy, connDestroy_init (started hop) hstate howner]
  case newDomain => rw [exec_opPdCreate, opPdCreate_creates (started hop) hform huse hquota hn]
  case oldDomain => rw [exec_opPdCreate, opPdCreate_destroys (started hop) hform hpd howner hnamed]

/-! ## Packets that reach their connection unmarked (R162) -/

theorem roceHdr_marked (r : Roce) : (roceHdr r).marked = decide (r.ecn = 3) := by
  unfold roceHdr
  split <;> rfl

theorem unmarked_eq_self {p : Pkt} (h : (pktHdr p).marked = false) : unmarked p = p := by
  cases p with
  | native p =>
    have hecn : p.ecn ≠ 3 := of_decide_eq_false h
    simp only [unmarked, hecn, if_false]
  | roce r =>
    have hecn : r.ecn ≠ 3 := of_decide_eq_false ((roceHdr_marked r).symm.trans h)
    simp only [unmarked, hecn, if_false]

/-- Check 3 of R162: the connection of a delivered packet receives. -/
theorem check3_of_delivered {d : Ix9} {p : Pkt} (h : Delivered d p) :
    ((connOf d (pktConn p)).discarded || !((connOf d (pktConn p)).state = csREADY_RX || (connOf d (pktConn p)).state = csREADY ||
      (connOf d (pktConn p)).state = csDRAIN || (connOf d (pktConn p)).state = csERROR)) = false := by
  obtain ⟨-, -, -, -, -, -, hkept, -, hstate, -⟩ := h
  obtain h | h | h := hstate <;> simp [hkept, h]

theorem state_ne_error_of_delivered {d : Ix9} {p : Pkt} (h : Delivered d p) : (connOf d (pktConn p)).state ≠ csERROR := by
  obtain ⟨-, -, -, -, -, -, -, -, hstate, -⟩ := h
  obtain h | h | h := hstate <;> rw [h] <;> decide

theorem enc_of_delivered {d : Ix9} {p : Pkt} (h : Delivered d p) : (connOf d (pktConn p)).enc = false := by
  obtain ⟨-, -, -, -, -, -, -, -, -, henc⟩ := h
  exact henc

theorem peerMatches_of_delivered {d : Ix9} {p : Pkt} (h : Delivered d p) : peerMatches (connOf d (pktConn p)) p = true := by
  obtain ⟨-, -, -, -, -, -, -, hpeer, -, -⟩ := h
  exact hpeer

section
variable {d : Ix9} {p : Pkt} (h : Delivered d p) (hmark : (pktHdr p).marked = false)
include h hmark

/-- A delivered request that arrives behind no busy answer passes check 5 and comes to its sequence. -/
theorem rxChecked_request (hreq : isRequest (pktHdr p).op = true) (hbusy : (connOf d (pktConn p)).busy = none) :
    rxChecked (found d p) (pktConn p) p false = rxSequence (found d p) (pktConn p) p (pktHdr p) false := by
  have hcnp : (pktHdr p).op ≠ 0x29 := by
    intro hop
    simp [hop, isRequest] at hreq
  simp only [rxChecked, connOf_found, check3_of_delivered h, peerMatches_of_delivered h, if_neg hcnp,
    if_neg (state_ne_error_of_delivered h), behindBusy, hbusy, noteMark, hmark, hreq, unmarked_eq_self hmark, Option.any_none,
    Bool.and_false, Bool.not_true, Bool.not_false, Bool.false_eq_true, if_false, if_true]

theorem rxChecked_answer (hans : isRequest (pktHdr p).op = false) :
    rxChecked (found d p) (pktConn p) p false = rxAnswer (found d p) (pktConn p) p (pktHdr p) false := by
  simp only [rxChecked, connOf_found, check3_of_delivered h, peerMatches_of_delivered h,
    if_neg (state_ne_error_of_delivered h), noteMark, hmark, hans, unmarked_eq_self hmark, Bool.false_and, Bool.not_true,
    Bool.not_false, Bool.false_eq_true, if_false, if_true, ite_self]

end

/-- A connection without ENC takes a packet's bytes as they are. -/
theorem openPkt_plain {d : Ix9} {n : Nat} (henc : (connOf d n).enc = false) (dir : Nat) (p : Pkt) :
    openPkt d n dir p = (d, .pass (pktPlain p)) := by
  simp only [openPkt, henc, Bool.not_false, if_true]

/-! ## Request packets in sequence (R162, R164, R168, R183) -/

theorem exec_requestPacketReceived (p : Pkt) (s : State) : exec (.requestPacketReceived p) s =
    .next (s.follow (if isRequest (pktHdr p).op then rxPacket (takeArrived s.dev p) p else s.dev)) := rfl

/-- The opcode of a native request packet (R236). -/
theorem nativeHdr_op {k : Packet} (htyp : k.typ ≤ 6) : (nativeHdr k).op = k.typ + 0x0F := by
  simp only [nativeHdr, htyp, if_true]

theorem psnSub_self (p : Nat) : psnSub p p = 0 := by
  unfold psnSub
  omega

section
variable {d : Ix9} {n : Nat} {k : Packet} (hroce : (connOf d n).roce = false) (henc : (connOf d n).enc = false)

include henc in
/-- Check 6 of R162 passes a packet with PSN RX_EPSN that follows no read or atomic it may not overtake. -/
theorem rxSequence_expected {p : Pkt} {h : Hdr} (hpsn : h.psn = (connOf d n).rxEpsn) (hbehind : behindRead d n h.op = false) :
    rxSequence d n p h false = execRequest d n p h false := by
  simp only [rxSequence, staleEpoch, henc, hpsn, psnSub_self, hbehind, Bool.false_and, Bool.false_eq_true, if_false, if_true]

variable (hmsg : (connOf d n).rxMsg = none) {d2 : Ix9} {segs : List Seg}
include henc hroce hmsg

/-- A native WRITE packet that begins its message writes its data where its window check found it. -/
theorem execRequest_write (htyp : k.typ = 2) {r : Req} (hr : r = pktReq (.native k) (nativeHdr k) true k.wireBytes)
    (hwin : winFirst d n r 1 r.data.length = (d2, .ok segs)) {m : RxMsg}
    (hm : m = { op := 0x11, window := r.window, offset := r.offset, scope := r.flags % 4, barrier := flag r.flags 2,
                solicit := flag r.flags 3, win := winOf d r.window, rkey := r.rkey, kept := segs }) :
    execRequest d n (.native k) (nativeHdr k) false =
      execWriteData (tagClear (updConn d2 n (fun c => { c with rxMsg := some m })) n) n (nativeHdr k) r m segs false := by
  have hop : (nativeHdr k).op = 0x11 := by rw [nativeHdr_op (by omega), htyp]
  have hfirst : (nativeHdr k).first = none := rfl
  simp [-Nat.reducePow, execRequest, openPkt_plain henc, hop, hfirst, hmsg, hroce, henc, pktPlain, ← hr, hwin, hm, isAtomic]

theorem execRequest_read (htyp : k.typ = 4) {r : Req} (hr : r = pktReq (.native k) (nativeHdr k) true k.wireBytes)
    (hwin : winFirst d n r 0 r.length = (d2, .ok segs)) :
    execRequest d n (.native k) (nativeHdr k) false = execReadReq (tagClear d2 n) n (nativeHdr k) r segs := by
  have hop : (nativeHdr k).op = 0x13 := by rw [nativeHdr_op (by omega), htyp]
  have hfirst : (nativeHdr k).first = none := rfl
  simp [-Nat.reducePow, execRequest, openPkt_plain henc, hop, hfirst, hmsg, hroce, henc, pktPlain, ← hr, hwin, isAtomic]

/-- A native FETCH_ADD or CMP_SWAP packet is taken where it is aligned and passes its window check. -/
theorem execRequest_atomic (htyp : k.typ = 5 ∨ k.typ = 6) {r : Req}
    (hr : r = pktReq (.native k) (nativeHdr k) true k.wireBytes) (halign : r.offset % 8 = 0)
    (hwin : winFirst d n r 2 8 = (d2, .ok segs)) :
    execRequest d n (.native k) (nativeHdr k) false = execReadReq (tagClear d2 n) n (nativeHdr k) r segs := by
  have hop : (nativeHdr k).op = 0x14 ∨ (nativeHdr k).op = 0x15 := by rw [nativeHdr_op (by omega)]; omega
  have hatomic : isAtomic (nativeHdr k).op = true := by obtain hop | hop := hop <;> rw [hop] <;> rfl
  have hread : (nativeHdr k).op ≠ 0x13 := by omega
  have hknown : (nativeHdr k).op ≠ 0x2F := by omega
  have hwrite : (nativeHdr k).op ≠ 0x11 := by omega
  have hfirst : (nativeHdr k).first = none := rfl
  simp [-Nat.reducePow, execRequest, openPkt_plain henc, hatomic, hread, hknown, hwrite, hfirst, hmsg, hroce, henc, pktPlain,
    ← hr, halign, hwin]

end

theorem behindRead_found (d : Ix9) (p : Pkt) (n op : Nat) : behindRead (found d p) n op = behindRead d n op := by
  simp [behindRead, found, touch]

/-- A native request packet in sequence, behind no busy answer, comes to its execution. -/
theorem requestPacketReceived_executes {s : State} {k : Packet} (h : Delivered s.dev (.native k)) (hecn : k.ecn ≠ 3)
    (hpsn : k.psn = (connOf s.dev k.conn).rxEpsn) (hbusy : (connOf s.dev k.conn).busy = none)
    (hbehind : behindRead s.dev k.conn (nativeHdr k).op = false) (htyp : k.typ ≤ 6) :
    exec (.requestPacketReceived (.native k)) s =
      .next (s.follow (execRequest (found s.dev (.native k)) k.conn (.native k) (nativeHdr k) false)) := by
  have hmark : (pktHdr (.native k)).marked = false := decide_eq_false hecn
  have hreq : isRequest (pktHdr (.native k)).op = true := by
    simp only [pktHdr, nativeHdr_op htyp, isRequest, Bool.or_eq_true, decide_eq_true_eq]
    omega
  have henc := enc_of_delivered h
  rw [pktConn, ← connOf_found s.dev (.native k)] at henc
  rw [← connOf_found s.dev (.native k)] at hpsn
  rw [← behindRead_found s.dev (.native k)] at hbehind
  rw [exec_requestPacketReceived, if_pos hreq, rxPacket_delivered _ _ h, rxChecked_request h hmark hreq hbusy, pktConn, pktHdr,
    rxSequence_expected henc hpsn hbehind]

/-- Check 4 of R162: a native packet is delivered to native connections only. -/
theorem roce_of_delivered {d : Ix9} {k : Packet} (h : Delivered d (.native k)) : (connOf d k.conn).roce = false := by
  have hpeer := peerMatches_of_delivered h
  simp only [peerMatches, Bool.and_eq_true, Bool.not_eq_true'] at hpeer
  obtain ⟨⟨hroce, -⟩, -⟩ := hpeer
  exact hroce

/-- Settles O18, by the equations above. -/
theorem requestPacketsInOrderExecute : Obligations.RequestPacketsInOrderExecute := by
  rintro s p n h r c d rfl rfl hr rfl rfl
  refine ⟨fun hreq => ?checks, fun hreq => ?ignored, fun hdel hecn hpsn hbusy hmsg hbehind => ?_⟩
  case checks => rw [exec_requestPacketReceived, pktHdr, if_pos hreq]
  case ignored => rw [exec_requestPacketReceived, pktHdr, if_neg (by simp [hreq])]
  have executes := requestPacketReceived_executes hdel hecn hpsn hbusy hbehind
  have hroce := roce_of_delivered hdel
  have henc := enc_of_delivered hdel
  rw [pktConn] at henc
  rw [← connOf_found s.dev (.native p)] at hroce henc hmsg
  refine ⟨fun d2 segs m htyp hwin hm => ?write, fun d2 segs htyp hwin => ?read, fun d2 segs htyp halign hwin => ?atomic⟩
  case write => rw [executes (by omega), execRequest_write hroce henc hmsg htyp hr hwin hm]
  case read => rw [executes (by omega), execRequest_read hroce henc hmsg htyp hr hwin]
  case atomic => rw [executes (by omega), execRequest_atomic hroce henc hmsg htyp hr halign hwin]

/-! ## What the commands of answers run, and the opcodes they take (R162, R262, R265) -/

theorem exec_ackReceived (p : Pkt) (s : State) : exec (.ackReceived p) s = .next (s.follow (answerIn s.dev 0x20 p)) := rfl

theorem exec_atomicAckReceived (p : Pkt) (s : State) :
    exec (.atomicAckReceived p) s = .next (s.follow (answerIn s.dev 0x21 p)) := rfl

theorem exec_readRespReceived (p : Pkt) (s : State) :
    exec (.readRespReceived p) s = .next (s.follow (answerIn s.dev 0x22 p)) := rfl

theorem exec_nakSeqReceived (p : Pkt) (s : State) :
    exec (.nakSeqReceived p) s = .next (s.follow (answerIn s.dev 0x23 p)) := rfl

theorem exec_busyReceived (p : Pkt) (s : State) : exec (.busyReceived p) s = .next (s.follow (answerIn s.dev 0x24 p)) := rfl

theorem exec_resettingReceived (p : Pkt) (s : State) :
    exec (.resettingReceived p) s = .next (s.follow (answerIn s.dev 0x25 p)) := rfl

theorem exec_nakFatalReceived (p : Pkt) (s : State) :
    exec (.nakFatalReceived p) s = .next (s.follow (answerIn s.dev 0x26 p)) := rfl

theorem exec_abortReceived (p : Pkt) (s : State) : exec (.abortReceived p) s = .next (s.follow (answerIn s.dev 0x27 p)) := rfl

theorem exec_cnpReceived (p : Pkt) (s : State) : exec (.cnpReceived p) s = .next (s.follow (answerIn s.dev 0x29 p)) := rfl

/-- The answers that an AETH can carry (R262). -/
def aethAnswers : List Nat := [0x20, 0x23, 0x24, 0x26, 0x27]

/-- A packet with header code `h` is an answer of code `op`: it says so, or it is an AETH, which can carry it. -/
def Carries (h op : Nat) : Prop := h = op ∨ h = 0x28 ∧ op ∈ aethAnswers

theorem answerIn_other {d : Ix9} {op : Nat} {p : Pkt} (hreq : (pktHdr p).op < 0x20) (hop : 0x20 ≤ op) :
    answerIn d op p = d := by
  have hne : (pktHdr p).op ≠ op := by omega
  have haeth : (pktHdr p).op ≠ 0x28 := by omega
  simp [answerIn, hne, haeth]

section
variable {d : Ix9} {p : Pkt} {op : Nat} (hcarries : Carries (pktHdr p).op op)
include hcarries

theorem isRequest_of_carries (hop : isRequest op = false) : isRequest (pktHdr p).op = false := by
  obtain h | ⟨h, -⟩ := hcarries <;> rw [h]
  · exact hop
  · rfl

/-- A delivered answer comes to its connection by the command of its kind. -/
theorem answerIn_delivered (h : Delivered d p) (hmark : (pktHdr p).marked = false) (hop : isRequest op = false) :
    answerIn d op p = rxAnswer (found d p) (pktConn p) p (pktHdr p) false := by
  rw [← rxChecked_answer h hmark (isRequest_of_carries hcarries hop), ← rxPacket_delivered _ _ h]
  exact if_pos (by simpa [Carries, aethAnswers, or_assoc] using hcarries)

/-- An answer that names no reset and is no CNP does what it says. -/
theorem answerIn_acts (h : Delivered d p) (hmark : (pktHdr p).marked = false) (hop : isRequest op = false)
    (hplain : op ≠ 0x25 ∧ op ≠ 0x29) :
    answerIn d op p = actAnswer (found d p) (pktConn p) (ansView p (pktHdr p) (pktPlain p)) := by
  have henc : (connOf (found d p) (pktConn p)).enc = false := by rw [connOf_found, enc_of_delivered h]
  have hother : (pktHdr p).op ≠ 0x25 ∧ (pktHdr p).op ≠ 0x29 := by
    obtain h | ⟨h, -⟩ := hcarries <;> rw [h]
    · exact hplain
    · decide
  simp only [answerIn_delivered hcarries h hmark hop, rxAnswer, hother, openPkt_plain henc, henc, Bool.false_eq_true, if_false]

end

/-! ## Updates of one connection -/

/-- Only what a change makes of the connection that is there counts. -/
theorem updConn_eq_of_connOf {d : Ix9} {n : Nat} {f g : Conn → Conn} (h : f (connOf d n) = g (connOf d n)) :
    updConn d n f = updConn d n g := by
  unfold connOf at h
  simp [updConn, updD, h]

/-- Fields come in the register file in the order of their numbers, so that counting in a later one leaves an earlier one. -/
theorem rget_count_later {d : Ix9} {f g : Fld} (h : g.id < f.id) (i n : Nat) : rget (count d f i n) g = rget d g := by
  refine rget_count_ne _ _ _ _ _ _ ?_
  simp only [regKey]
  omega

/-! ## What a sender does with an answer (R181, R185, R187) -/

section
variable {d : Ix9} {n q : Nat}

theorem endBackoff_rget (f : Fld) (i : Nat) : rget (endBackoff d n) f i = rget d f i := rfl

theorem endBackoff_el : (endBackoff d n).el = d.el := rfl

theorem endBackoff_homeTile : homeTile (endBackoff d n) n = homeTile d n := rfl

theorem onAck_inRange {ce : Nat} (h : psnSub q (connOf d n).txUna ≤ psnSub (connOf d n).txPsn (connOf d n).txUna) :
    onAck d n q ce =
      ackUpTo (if (connOf d n).roce = true ∨ ce = 0 then endBackoff d n else pacerNotify (endBackoff d n) n) n q := by
  simp [onAck, h]

section
variable (hrange : inRange (connOf d n) q = true)
include hrange

theorem onAtomicAck_stores {r : Nat} {t : TxPkt} {m : TxMsg}
    (ht : (connOf d n).txOut.find? (fun t => t.psn == q && isAtomic t.op) = some t)
    (hm : (connOf d n).txMsgs.find? (fun m => m.org == t.org) = some m) :
    onAtomicAck d n q r = ackUpTo (updConn
      (if segsLen m.buf = 0 then endBackoff d n else (writeResponse (endBackoff d n) m 0 (leBytes 8 r)).1) n
      (fun c => { c with txMsgs := c.txMsgs.map (fun x => if x.org = t.org then { x with result := r, got := 8 } else x) }))
      n (psnAdd q 1) := by
  simp only [onAtomicAck, hrange, ht, hm, Bool.not_true, Bool.false_eq_true, if_false]

/-- Data for the first PSN that a read lacks, of the length it lacks there, is written and acknowledged. -/
theorem onReadResp_writes {data : List Byte} {t : TxPkt} {m : TxMsg} {w : Ix9}
    (ht : (connOf d n).txOut.find? (fun t => t.op == 0x13 && (readLacks (connOf d n) t).isSome) = some t)
    (hlacks : readLacks (connOf d n) t = some q) (hm : (connOf d n).txMsgs.find? (fun m => m.org == t.org) = some m)
    (hlen : data.length = min (connOf d n).mtu (t.off + t.len - max t.off m.got))
    (hw : writeResponse (ackUpTo (endBackoff d n) n t.psn) m m.got data = (w, false)) :
    onReadResp d n q data = ackUpTo (updConn w n (fun c => { c with txMsgs := c.txMsgs.map (fun x =>
      if x.org = t.org then { x with got := x.got + data.length, answered := true } else x) })) n (psnAdd q 1) := by
  simp only [onReadResp, hrange, ht, hlacks, hm, ← hlen, hw, Option.getD_some, Nat.lt_irrefl, bne_self_eq_false, Bool.not_true,
    Bool.false_eq_true, if_false, if_true]

/-- A NAK_SEQ goes back below the retry limit, unless it repeats one that has just gone back. -/
theorem onNakSeq_goesBack (hretry : (connOf d n).retryCnt < rget d Fld.RD_TIMER_RETRY_LIMIT)
    (hback : ∀ b at_, (connOf d n).backAt = some (b, at_) → b ≠ q ∨ at_ + rget d Fld.RD_TIMER_RTO_BASE * 500 ≤ d.el) :
    onNakSeq d n q = updConn (count (endBackoff d n) Fld.RD_NAK_RCVD (homeTile d n)) n
      (fun c => { goBack c q with retryCnt := c.retryCnt + 1, backAt := some (q, d.el) }) := by
  have hlimit : (connOf d n).retryCnt ≠
      rget (count (endBackoff d n) Fld.RD_NAK_RCVD (homeTile d n)) Fld.RD_TIMER_RETRY_LIMIT := by
    rw [rget_count_later (by decide), endBackoff_rget]
    exact Nat.ne_of_lt hretry
  cases hb : (connOf d n).backAt with
  | none => simp [onNakSeq, hrange, hb, endBackoff_homeTile, hlimit, endBackoff_el]
  | some x =>
    obtain ⟨b, at_⟩ := x
    have hold : ¬(b == q && decide (d.el < at_ + rget d Fld.RD_TIMER_RTO_BASE * 500)) = true := by
      have := hback b at_ hb
      simp only [Bool.and_eq_true, beq_iff_eq, decide_eq_true_eq]
      omega
    simp only [onNakSeq, hrange, hb, endBackoff_homeTile, hlimit, endBackoff_el, endBackoff_rget, count_el,
      Bool.not_true, Bool.false_eq_true, if_false]
    exact if_neg hold

theorem onBusy_holds : onBusy d n q = updConn (endBackoff (count d Fld.RD_BUSY_RCVD (homeTile d n)) n) n
    (fun c => { c with hold := some (.busy q), resend := [] }) := by
  simp only [onBusy, connOf_count, hrange, Bool.not_true, Bool.false_eq_true, if_false]

theorem onResetting_backsOff (hhold : (connOf d n).hold ≠ some (.backoff false))
    (hlimit : (connOf d n).resetCnt + 1 ≤ rget d Fld.RD_RESET_LIMIT) :
    onResetting d n q = updConn (count d Fld.RD_RESET_RCVD (homeTile d n)) n
      (fun c => { c with resetCnt := c.resetCnt + 1, hold := some (.backoff false), resend := [] }) := by
  have hbelow : ¬rget (count d Fld.RD_RESET_RCVD (homeTile d n)) Fld.RD_RESET_LIMIT < (connOf d n).resetCnt + 1 := by
    rw [rget_count_later (by decide)]
    exact Nat.not_lt.2 hlimit
  -- `hhold` selects the branch in which no back-off runs
  simp [onResetting, hrange, hbelow]

theorem onNakFatal_errs {st cause : Nat} {t : TxPkt} {m : TxMsg}
    (ht : (connOf d n).txOut.find? (fun t => psnSub q t.psn < t.npsn) = some t)
    (hm : (connOf d n).txMsgs.find? (fun m => m.org == t.org) = some m) :
    onNakFatal d n q st cause = enterError d n 3
      (some (m, st, cause, if st = ST_AUTH_UNTRUSTED then untrustedRange (connOf d n) q else 0)) true := by
  simp only [onNakFatal, hrange, ht, hm, Bool.not_true, Bool.false_eq_true, if_false]

end

/-- The first notification of a connection whose profile reacts lowers its rate, here to no less than the profile's floor. -/
theorem pacerNotify_lowers {x : Ix9} {f : Prof} {r : Pacer} {a rc : Nat} (hfirst : (connOf d n).pacer.lastDec = none)
    (hx : x = count d Fld.PACER_NOTIFY (homeTile d n)) (hf : f = profOf x (connOf d n)) (hreact : f.react = true)
    (hr : r = (accrue x (connOf d n)).renew f) (ha : a = r.alpha - r.alpha / 2 ^ f.g + 65536 / 2 ^ f.g)
    (hrc : rc = r.rc - r.rc * a / 2 ^ 17) (hfloor : f.line * f.low / 1000 ≤ rc) :
    pacerNotify d n = updConn x n (fun c => { c with
      pacer := { r with alpha := a, rc := rc, quiet := 0, lastDec := some d.el, grid := d.el } }) := by
  have hel : x.el = d.el := by rw [hx, count_el]
  simp only [pacerNotify, hfirst, ← hx, ← hf, ← hr, ← ha, ← hrc, hreact, hel, Nat.not_lt.2 hfloor, Nat.max_eq_left hfloor,
    Bool.not_true, Bool.false_eq_true, if_false]

end

/-- Settles O19, by the equations above: each answer passes checks 1 to 5 and does what it says. -/
theorem answersReachTheirConnection : Obligations.AnswersReachTheirConnection := by
  refine ⟨?_, fun s p hreq => ?request⟩
  · rintro s p n tile h v c d rfl rfl rfl hc rfl rfl hdel hmark
    rw [← connOf_found s.dev p] at hc
    subst hc
    -- what the command for the answers of code `op` runs
    have acts {op : Nat} (hcarries : Carries (pktHdr p).op op) (hop : isRequest op = false) (hplain : op ≠ 0x25 ∧ op ≠ 0x29)
        {v : AnsView} (hv : ansView p (pktHdr p) (pktPlain p) = v) :
        answerIn s.dev op p = actAnswer (found s.dev p) (pktConn p) v := by
      rw [answerIn_acts hcarries hdel hmark hop hplain, hv]
    refine ⟨fun q ce hop hv hle => ?ack, fun q r t m hop hv hrange ht hm => ?atomic,
      fun q data t m w hop hv hrange ht hlacks hm hlen hw => ?resp, fun q hop hv hrange hretry hback => ?nakSeq,
      fun q hint hop hv hrange => ?busy, fun q hop hq hrange hhold hlimit => ?resetting,
      fun q st cause t m hop hv hrange ht hm => ?fatal, fun hop hv => ?abort,
      fun x f r a rc hop hroce hfirst hx hf hreact hr ha hrc hfloor => ?cnp⟩
    case ack =>
      rw [exec_ackReceived, acts (hop.imp_right (⟨·, by decide⟩)) rfl (by decide) hv, actAnswer, onAck_inRange hle]
    case atomic =>
      rw [exec_atomicAckReceived, acts (.inl hop) rfl (by decide) hv, actAnswer, onAtomicAck_stores hrange ht hm]
    case resp =>
      rw [exec_readRespReceived, acts (.inl hop) rfl (by decide) hv, actAnswer,
        onReadResp_writes hrange ht hlacks hm hlen hw]
    case nakSeq =>
      rw [exec_nakSeqReceived, acts (hop.imp_right (⟨·, by decide⟩)) rfl (by decide) hv, actAnswer,
        onNakSeq_goesBack hrange hretry hback]
    case busy =>
      rw [exec_busyReceived, acts (hop.imp_right (⟨·, by decide⟩)) rfl (by decide) hv, actAnswer, onBusy_holds hrange]
    case resetting =>
      rw [exec_resettingReceived, answerIn_delivered (.inl hop) hdel hmark rfl, rxAnswer, if_pos hop, actAnswer, ← hq,
        onResetting_backsOff hrange hhold hlimit]
    case fatal =>
      rw [exec_nakFatalReceived, acts (hop.imp_right (⟨·, by decide⟩)) rfl (by decide) hv, actAnswer,
        onNakFatal_errs hrange ht hm]
    case abort =>
      rw [exec_abortReceived, acts (hop.imp_right (⟨·, by decide⟩)) rfl (by decide) hv, actAnswer, onAbort]
    case cnp =>
      have hconn : connOf x (pktConn p) = connOf (found s.dev p) (pktConn p) := by rw [hx, connOf_count]
      have hel : x.el = (found s.dev p).el := by rw [hx, count_el]
      rw [← hconn] at hfirst hf hr
      rw [exec_cnpReceived, answerIn_delivered (.inl hop) hdel hmark rfl, rxAnswer, if_neg (by rw [hop]; decide), if_pos hop,
        if_pos hroce, ← hx, pacerNotify_lowers hfirst rfl hf hreact hr ha hrc hfloor, hel]
  case request =>
    rw [exec_ackReceived, exec_busyReceived, exec_nakSeqReceived, exec_readRespReceived, answerIn_other hreq (by decide),
      answerIn_other hreq (by decide), answerIn_other hreq (by decide), answerIn_other hreq (by decide)]
    exact ⟨rfl, rfl, rfl, rfl⟩

/-! ## Fills, spills and timers of a connection (R150, R172, R182, R187, R188, R207) -/

theorem exec_connFillDone (n : Nat) (good : Bool) (s : State) :
    exec (.connFillDone ⟨n, good⟩) s = .next (s.follow (connFilled s.dev n good)) := rfl

theorem exec_connSpillDone (n : Nat) (s : State) : exec (.connSpillDone n) s = .next (s.follow (connSpilled s.dev n)) := rfl

theorem exec_connQuarantineEnd (n : Nat) (s : State) :
    exec (.connQuarantineEnd n) s = .next (s.follow (connQuarantineEnd s.dev n)) := rfl

theorem exec_busyHoldEnd (n : Nat) (s : State) : exec (.busyHoldEnd n) s = .next (s.only (busyHoldEnd s.dev n)) := rfl

theorem exec_resetBackoffEnd (n : Nat) (s : State) :
    exec (.resetBackoffEnd n) s = .next (s.only (resetBackoffEnd s.dev n)) := rfl

theorem exec_retransmissionTimerExpiry (n : Nat) (s : State) :
    exec (.retransmissionTimerExpiry n) s = .next (s.follow (retransExpiry s.dev n)) := rfl

theorem exec_ackDelayExpiry (n : Nat) (s : State) : exec (.ackDelayExpiry n) s = .next (s.only (ackDelay s.dev n)) := rfl

theorem exec_pacerPeriod (n : Nat) (s : State) : exec (.pacerPeriod n) s = .next (s.only (pacerPeriod s.dev n)) := rfl

section
variable {d : Ix9} {n : Nat}

section
variable (hplace : placeOf d n = some .filling) (hkept : (connOf d n).discarded = false)
include hplace hkept

theorem connFilled_good (hdata : spillPoisoned d n = false) {d' : Ix9}
    (hd : d' = setPlace d n (if fillsPinned d n then .pinned else .cached)) :
    connFilled d n true = retryWaiters (retryFills (runParked (touch (pacerFill
      { d' with c := { d'.c with fillAt := drop d'.c.fillAt n, pinFill := d'.c.pinFill.filter (· != n) } } n) n) n)) := by
  simp only [connFilled, hplace, hkept, hdata, hd, bne_self_eq_false, Bool.not_true, Bool.or_self, Bool.false_eq_true, if_false]

theorem connFilled_failed : connFilled d n false = askReset d { level := 3, tile := homeTile d n, engine := 1 } := by
  simp only [connFilled, hplace, hkept, bne_self_eq_false, Bool.not_false, Bool.true_or, Bool.false_eq_true, if_false, if_true]

end

/-- A spill that is done leaves the connection spilled, and the marks of poison on its place in landing memory are gone; a
packet that came meanwhile asks for the state again. -/
theorem connSpilled_kept (hplace : placeOf d n = some .spilling) (hkept : (connOf d n).discarded = false) {d' e : Ix9}
    (hd : d' = setPlace d n .spilled)
    (he : e = { d' with
      c := { d'.c with lru := d'.c.lru.filter (· != n) },
      lm := if spillLanding d = true then { d'.lm with poison := d'.lm.poison.filter (fun w =>
        !(spillAddr d n ≤ w * 64 && w * 64 < spillAddr d n + 256)) } else d'.lm }) :
    connSpilled d n = retryWaiters (retryFills (if parkedOf d n = [] then e else startFill e n)) := by
  have hspilled : connSpilled d n =
      retryWaiters (retryFills (if (parkedOf e n).isEmpty then e else startFill e n)) := by
    have hland : spillLanding { d' with c := { d'.c with lru := d'.c.lru.filter (· != n) } } = spillLanding d := by
      rw [hd]
      rfl
    simp only [connSpilled, hplace, hkept, bne_self_eq_false, Bool.false_eq_true, if_false, ← hd, hland]
    by_cases h : spillLanding d = true
    · simp only [he, h, if_true]
      rw [hd]
      rfl
    · simp only [he, h]
      rfl
  have hparked : parkedOf e n = parkedOf d n := by
    rw [he, hd]
    rfl
  rw [hspilled, hparked]
  simp only [List.isEmpty_iff]

theorem connQuarantineEnd_frees (hstate : (connOf d n).state = csQUARANTINE) {d' : Ix9} (hd : d' = dropPlace d n) :
    connQuarantineEnd d n =
      quotaSettle (retryWaiters (retryFills { d' with c := { d'.c with conns := drop d'.c.conns n } })) := by
  simp only [connQuarantineEnd, hstate, hd, bne_self_eq_false, Bool.false_eq_true, if_false]

theorem busyHoldEnd_goesBack {c : Conn} (hc : c = connOf d n) {p : Nat} (hhold : c.hold = some (.busy p)) :
    busyHoldEnd d n = updConn d n (fun _ =>
      { goBack { c with hold := none } p with forceAck := true, forceTo := c.txPsn }) := by
  subst hc
  refine updConn_eq_of_connOf ?_
  simp only [hhold, force]
  rfl

theorem resetBackoffEnd_probes {c : Conn} (hc : c = connOf d n) {x : TxPkt} {r : List TxPkt}
    (hhold : c.hold = some (.backoff false)) (hout : c.txOut = x :: r) :
    resetBackoffEnd d n = updConn d n (fun _ => { c with resend := [x.psn], forceAck := true, forceTo := c.txPsn }) := by
  subst hc
  refine updConn_eq_of_connOf ?_
  simp only [hhold, hout, force]
  rfl

/-- The retransmission timer of a cached native connection in READY goes back to TX_UNA below the retry limit. -/
theorem retransExpiry_goesBack {c : Conn} (hc : c = connOf d n) (hout : c.txOut ≠ []) (hstate : c.state = csREADY)
    (hhold : c.hold = none) (hroce : c.roce = false) (hcached : cachedConn d n = true)
    (hretry : c.retryCnt < rget d Fld.RD_TIMER_RETRY_LIMIT) :
    retransExpiry d n = updConn (count d Fld.RD_TIMEOUTS (homeTile d n)) n (fun _ =>
      { goBack { c with hold := none } c.txUna with
        forceAck := true, forceTo := c.txPsn, retryCnt := c.retryCnt + 1, backAt := some (c.txUna, d.el) }) := by
  subst hc
  have hbelow : (connOf d n).retryCnt < rget (count d Fld.RD_TIMEOUTS (homeTile d n)) Fld.RD_TIMER_RETRY_LIMIT := by
    rwa [rget_count_later (by decide)]
  simp only [retransExpiry, hstate, hhold, hroce, hcached, hbelow, List.isEmpty_eq_false_iff.2 hout, count_el, decide_true,
    Bool.true_or, Bool.and_self, Bool.false_and, Bool.not_false, Bool.not_true, Bool.false_eq_true, if_false, if_true]
  refine updConn_eq_of_connOf ?_
  rw [connOf_count]
  rfl

theorem ackDelay_sends (h : (connOf d n).unacked ≠ 0) : ackDelay d n = sendAck d n := if_neg h

theorem pacerPeriod_updates {c : Conn} (hc : c = connOf d n) (hcached : cachedConn d n = true) (hholds : holdsState d n = true) :
    pacerPeriod d n = updConn d n (fun _ => { c with pacer := onPeriod d c (accrue d c) }) := by
  subst hc
  simp only [pacerPeriod, hcached, hholds, Bool.and_self, if_true]
  exact updConn_eq_of_connOf rfl

end

/-- Settles O21, by the equations above. That every packet carries ACKREQ up to the TX_PSN at the end of a hold, of a back-off or
of a timer is the model's choice (log entry 18), and so are that the end of a busy hold is no go-back (log entry 65) and the
grid that PACER_PERIOD keeps (log entry 32). -/
theorem connectionTimersAndFillsAct : Obligations.ConnectionTimersAndFillsAct := by
  rintro s n c hc
  refine ⟨fun hplace hkept => ⟨fun d hdata hd => ?filled, ?failed⟩, fun hplace hkept d e hd he => ?spilled,
    fun hstate d hd => ?freed, fun p hhold => ?holdEnd, fun x r hhold hout => ?probe,
    fun hout hstate hhold hroce hcached hretry => ?timer, fun hunacked => ?ack, fun hcached hholds => ?period⟩
  case filled => rw [exec_connFillDone, connFilled_good hplace (hc ▸ hkept) hdata hd]
  case failed => rw [exec_connFillDone, connFilled_failed hplace (hc ▸ hkept)]
  case spilled => rw [exec_connSpillDone, connSpilled_kept hplace (hc ▸ hkept) hd he]
  case freed => rw [exec_connQuarantineEnd, connQuarantineEnd_frees (hc ▸ hstate) hd]
  case holdEnd => rw [exec_busyHoldEnd, busyHoldEnd_goesBack hc hhold]
  case probe => rw [exec_resetBackoffEnd, resetBackoffEnd_probes hc hhold hout]
  case timer =>
    rw [exec_retransmissionTimerExpiry, retransExpiry_goesBack hc hout hstate hhold hroce hcached hretry]
  case ack => rw [exec_ackDelayExpiry, ackDelay_sends (hc ▸ hunacked)]
  case period => rw [exec_pacerPeriod, pacerPeriod_updates hc hcached hholds]

end Sys2Proof.Machine
end

section
/-!
SUPPORT and proofs, family 06_reliable_delivery: what an answer does to its sender (R181, R187) and what PACKET_SEND puts on
the wire (R179, R190, R192). The fields of a connection's documented state come first, then one equation for each outcome of
an answer and of a send.
-/

namespace Sys2Proof.Machine

/-! ## Fields of the documented state (R158) -/

/-- The bits of the new value in place, the old ones around them. -/
theorem testBit_setBits {msb lsb : Nat} (h : lsb ≤ msb) (v x i : Nat) : (setBits v msb lsb x).testBit i =
    if i < lsb then v.testBit i else if i ≤ msb then x.testBit (i - lsb) else v.testBit i := by
  have hlow : v % 2 ^ lsb < 2 ^ lsb := Nat.mod_lt _ (Nat.two_pow_pos lsb)
  have hmid : 2 ^ lsb * (x % 2 ^ (msb + 1 - lsb)) + v % 2 ^ lsb < 2 ^ (msb + 1) := by
    have hx : x % 2 ^ (msb + 1 - lsb) < 2 ^ (msb + 1 - lsb) := Nat.mod_lt _ (Nat.two_pow_pos _)
    calc 2 ^ lsb * (x % 2 ^ (msb + 1 - lsb)) + v % 2 ^ lsb
        < 2 ^ lsb * (x % 2 ^ (msb + 1 - lsb) + 1) := by rw [Nat.mul_succ]; omega
      _ ≤ 2 ^ lsb * 2 ^ (msb + 1 - lsb) := Nat.mul_le_mul_left _ hx
      _ = 2 ^ (msb + 1) := by rw [← Nat.pow_add]; congr 1; omega
  have hsum : setBits v msb lsb x =
      2 ^ (msb + 1) * (v >>> (msb + 1)) + (2 ^ lsb * (x % 2 ^ (msb + 1 - lsb)) + v % 2 ^ lsb) := by
    simp only [setBits, Nat.shiftLeft_eq, Nat.mul_comm, Nat.add_assoc]
  rw [hsum, Nat.testBit_two_pow_mul_add _ hmid, Nat.testBit_two_pow_mul_add _ hlow, Nat.testBit_mod_two_pow,
    Nat.testBit_mod_two_pow, Nat.testBit_shiftRight]
  by_cases hi : i < lsb
  · simp only [hi, show i < msb + 1 by omega, decide_true, Bool.true_and, if_true]
  · by_cases hm : i ≤ msb
    · simp only [hi, hm, show i < msb + 1 by omega, show i - lsb < msb + 1 - lsb by omega, decide_true, Bool.true_and, if_true,
        if_false]
    · simp only [hi, hm, show ¬ i < msb + 1 by omega, show msb + 1 + (i - (msb + 1)) = i by omega, if_false]

theorem testBit_bits (v msb lsb i : Nat) :
    (bits v msb lsb).testBit i = (decide (i < msb + 1 - lsb) && v.testBit (lsb + i)) := by
  rw [bits, Nat.testBit_mod_two_pow, Nat.testBit_shiftRight]

theorem Conn.get_set_eq {msb lsb : Nat} (h : lsb ≤ msb) (c : Conn) (off v : Nat) :
    (c.set off msb lsb v).get off msb lsb = v % 2 ^ (msb + 1 - lsb) := by
  refine Nat.eq_of_testBit_eq fun i => ?_
  rw [Conn.get, Conn.set, testBit_bits, testBit_setBits (by omega), Nat.testBit_mod_two_pow,
    show 8 * off + msb + 1 - (8 * off + lsb) = msb + 1 - lsb by omega]
  by_cases hi : i < msb + 1 - lsb
  · simp only [hi, show ¬ 8 * off + lsb + i < 8 * off + lsb by omega, show 8 * off + lsb + i ≤ 8 * off + msb by omega,
      Nat.add_sub_cancel_left, decide_true, Bool.true_and, if_true, if_false]
  · simp only [hi, decide_false, Bool.false_and]

/-- Setting a field leaves a field beside it as it was. -/
theorem Conn.get_set_ne {off msb lsb off' msb' lsb' : Nat} (h : lsb ≤ msb)
    (hapart : 8 * off' + msb' < 8 * off + lsb ∨ 8 * off + msb < 8 * off' + lsb') (c : Conn) (v : Nat) :
    (c.set off msb lsb v).get off' msb' lsb' = c.get off' msb' lsb' := by
  refine Nat.eq_of_testBit_eq fun i => ?_
  simp only [Conn.get, Conn.set, testBit_bits, testBit_setBits (Nat.add_le_add_left h _)]
  by_cases hi : i < 8 * off' + msb' + 1 - (8 * off' + lsb')
  · obtain hbelow | habove := hapart
    · simp only [show 8 * off' + lsb' + i < 8 * off + lsb by omega, if_true]
    · simp only [show ¬ 8 * off' + lsb' + i < 8 * off + lsb by omega, show ¬ 8 * off' + lsb' + i ≤ 8 * off + msb by omega,
        if_false]
  · simp only [hi, decide_false, Bool.false_and]

theorem Conn.txPsn_set (c : Conn) (v : Nat) : (c.set 0x14 23 0 v).txPsn = v % 2 ^ 24 :=
  c.get_set_eq (by decide) 0x14 v

theorem Conn.txUna_set (c : Conn) (v : Nat) : (c.set 0x18 23 0 v).txUna = v % 2 ^ 24 :=
  c.get_set_eq (by decide) 0x18 v

theorem Conn.txPsn_set_txUna (c : Conn) (v : Nat) : (c.set 0x18 23 0 v).txPsn = c.txPsn :=
  c.get_set_ne (by decide) (.inl (by decide)) v

theorem Conn.txUna_set_txPsn (c : Conn) (v : Nat) : (c.set 0x14 23 0 v).txUna = c.txUna :=
  c.get_set_ne (by decide) (.inr (by decide)) v

/-! ## What is left of a connection when TX_UNA moves (R181, R187, R242) -/

section
variable {d : Ix9} {n : Nat}

@[simp] theorem connOf_pairCount (d : Ix9) (i : Nat) (up : Bool) (n : Nat) : connOf (pairCount d i up) n = connOf d n := by
  unfold pairCount
  split <;> rfl

@[simp] theorem connOf_unpair (d : Ix9) (l : List TxPkt) (n : Nat) : connOf (unpair d l) n = connOf d n := by
  unfold unpair
  induction l generalizing d with
  | nil => rfl
  | cons t l ih =>
    rw [List.foldl_cons, ih]
    split
    · rw [connOf_pairCount]
    · rfl

/-- Where no modify to DRAIN and no destroy waits, nothing completes with the last message. -/
theorem drainDone_of_no_waiter (h : (connOf d n).waiter = []) : drainDone d n = d := by
  simp only [drainDone, h, List.isEmpty_nil, Bool.true_or, if_true]

/-- An outstanding packet of `c` once TX_UNA is `una`: without the PSNs before `una`, where some of its PSNs are. -/
def cutBefore (c : Conn) (una : Nat) (t : TxPkt) : TxPkt :=
  let k := psnSub una c.txUna
  if psnSub t.psn c.txUna < k then
    let m := k - psnSub t.psn c.txUna
    { t with psn := una, npsn := t.npsn - m, cost := t.cost - min t.cost (m * c.mtu), off := t.off + min t.len (m * c.mtu)
             len := t.len - min t.len (m * c.mtu) }
  else t

/-- The outstanding packets of `c` once TX_UNA is `una`. -/
def outAfter (c : Conn) (una : Nat) : List TxPkt :=
  (c.txOut.filter (fun t => !(psnSub t.psn c.txUna + t.npsn ≤ psnSub una c.txUna))).map (cutBefore c una)

theorem outAfter_not_before {c : Conn} {una : Nat} {t : TxPkt} (h : t ∈ outAfter c una) :
    psnSub una c.txUna < psnSub t.psn c.txUna + t.npsn := by
  simp only [outAfter, List.mem_map, List.mem_filter, Bool.not_eq_true', decide_eq_false_iff_not, Nat.not_le] at h
  obtain ⟨u, ⟨-, hu⟩, rfl⟩ := h
  by_cases hcut : psnSub u.psn c.txUna < psnSub una c.txUna
  · simp only [cutBefore, hcut, if_true]
    omega
  · simpa only [cutBefore, hcut, if_false] using hu

/-- The connection after TX_UNA moved to a PSN that ends no message. -/
theorem connOf_ackTo {una : Nat} (hmoves : una ≠ (connOf d n).txUna) (hwaiter : (connOf d n).waiter = [])
    (hopen : ∀ m ∈ (connOf d n).txMsgs, m.allSent = false) : ∃ force acked again,
    connOf (ackTo d n una) n = { (connOf d n).set 0x18 23 0 una with
      txOut := outAfter (connOf d n) una, retryCnt := 0, resetCnt := 0, forceAck := force, epAcked := acked, resend := again } := by
  have hended (p : TxMsg → Bool) : (connOf d n).txMsgs.filter (fun m => m.allSent && p m) = [] := by
    rw [List.filter_eq_nil_iff]
    intro m hm
    simp only [hopen m hm, Bool.false_and, Bool.false_eq_true, not_false_eq_true]
  simp only [ackTo, if_neg hmoves, Bool.and_assoc, hended, List.foldl_nil]
  rw [drainDone_of_no_waiter (by rw [connOf_updConn_eq, connOf_updConn_eq, connOf_unpair]; exact hwaiter),
    connOf_updConn_eq, connOf_updConn_eq, connOf_unpair]
  simp only [List.any_nil, Bool.not_false, List.filter_eq_self.2 (fun _ _ => rfl)]
  exact ⟨_, _, _, rfl⟩

/-- Where no reset back-off runs, an answer has none to end. -/
theorem connOf_endBackoff (h : (connOf d n).hold = none) : connOf (endBackoff d n) n = connOf d n := by
  simp only [endBackoff, connOf_updConn_eq, h]

end

/-- Settles O20: answers in range by the equations of R187 above, a moved TX_UNA by `connOf_ackTo`. The packets that a go-back
sends again (log entry 18) and the messages that TX_UNA ends (log entry 20) are the model's reading of R187. -/
theorem answersMoveTheSender : Obligations.AnswersMoveTheSender := by
  rintro d n p c rfl
  refine ⟨fun hrange => ⟨?held, ?cleared, fun hhold hback hretry => ?again, fun hhold hlimit => ?backoff⟩,
    fun hrange => ?outside, fun ce hbeyond => ?beyond, fun e hmoves hp hwaiter hopen he => ?moved⟩
  case held => rw [onBusy_holds hrange, connOf_updConn_eq]
  case cleared => rw [onBusy_holds hrange, connOf_updConn_eq]
  case again =>
    have hfresh : ∀ b at_, (connOf d n).backAt = some (b, at_) → b ≠ p ∨ at_ + rget d Fld.RD_TIMER_RTO_BASE * 500 ≤ d.el := by
      simp only [hback, reduceCtorEq, false_implies, implies_true]
    rw [onNakSeq_goesBack hrange hretry hfresh, connOf_updConn_eq, connOf_count, connOf_endBackoff hhold]
    exact ⟨rfl, rfl⟩
  case backoff =>
    rw [onResetting_backsOff hrange (by rw [hhold]; nofun) hlimit, connOf_updConn_eq, connOf_count]
    exact ⟨rfl, rfl, rfl⟩
  case outside =>
    simp only [onBusy, onNakSeq, onResetting, onAtomicAck, onReadResp, onNakFatal, connOf_count, hrange, Bool.not_false,
      Bool.true_or, if_true, implies_true, and_self]
  case beyond => exact if_neg (Nat.not_le.2 hbeyond)
  case moved =>
    obtain ⟨force, acked, again, hack⟩ := connOf_ackTo hmoves hwaiter hopen
    rw [he, hack]
    exact ⟨(Conn.txUna_set _ p).trans (Nat.mod_eq_of_lt hp), Conn.txPsn_set_txUna _ p, rfl, rfl, rfl, rfl,
      fun t ht => outAfter_not_before ht⟩

/-! ## What PACKET_SEND sends (R179, R190, R192) -/

theorem exec_packetSend (n : Nat) (s : State) : exec (.packetSend n) s = .next (s.follow (packetSend s.cells s.dev n)) := rfl

/-- The packet of plan `p` as connection `c` keeps it until it is acknowledged. -/
def unackedPkt (d : Ix9) (c : Conn) (p : Plan) : TxPkt :=
  { psn := c.txPsn, npsn := p.npsn, org := p.msg.org, op := p.msg.op, off := p.off, len := p.n, first := p.first, last := p.last,
    cost := p.cost, pair := if c.roce then none else some (pairIndex c.peerEp c.lane), sentAt := d.el, ep := c.keyEpoch }

/-- Connection `c` once the packet of plan `p` is sent, but for the count of packets since the last ACKREQ. -/
def withSent (d : Ix9) (c : Conn) (p : Plan) : Conn :=
  { c.set 0x14 23 0 (psnAdd c.txPsn p.npsn) with
    txOut := c.txOut ++ [unackedPkt d c p]
    txMsgs := c.txMsgs.map (fun x => if x.org = p.msg.org then
      { x with sent := x.sent + p.n, allSent := p.last, src := x.src.filter (fun s => s.1 != p.off) } else x) }

/-- The packet of plan `p` carries ACKREQ (R180). -/
def asksAck (d : Ix9) (c : Conn) (p : Plan) : Bool :=
  p.last || c.forceAck || 63 ≤ c.sinceAck || nextHeld (withSent d c p)

/-- Connection `c` once the packet of plan `p` is sent. -/
def afterSent (d : Ix9) (c : Conn) (p : Plan) : Conn :=
  { withSent d c p with sinceAck := if asksAck d c p then 0 else c.sinceAck + 1 }

section
variable {m : List Host.Cell} {d : Ix9} {n : Nat} (hmay : maySend d n = true)

section
include hmay

theorem packetSend_again {psn : Nat} {r : List Nat} (h : (connOf d n).resend = psn :: r) :
    packetSend m d n = sendAgain m d n psn := by
  simp only [packetSend, hmay, h, Bool.not_true, Bool.false_eq_true, if_false]

theorem packetSend_new (h : (connOf d n).resend = []) : packetSend m d n = sendNew m d n := by
  simp only [packetSend, hmay, h, Bool.not_true, Bool.false_eq_true, if_false]

end

/-- The next new packet of a connection without ENC, whose data is at hand and which nothing holds back, leaves. -/
theorem sendNew_sends {c : Conn} (hc : c = connOf d n) (henc : c.enc = false) {p : Plan} (hplan : planConn c = some p)
    (hheld : planHeld c p = false) {data : List Byte}
    (hdata : packetData m d p.msg p.off (if p.msg.op = 0x13 then 0 else p.n) = .ok data) {e : Ix9}
    (he : e = launch (updConn d n (fun _ => afterSent d c p)) n p.msg c.txPsn p.first p.last (asksAck d c p) false
      (if p.msg.op = 0x13 then p.off else 0) (p.off + p.n) data none) :
    sendNew m d n = if c.roce then e else pairCount e (pairIndex c.peerEp c.lane) true := by
  have henv : dataEnvelope d n = (d, some none) := by simp only [dataEnvelope, ← hc, henc, Bool.not_false, if_true]
  simp only [sendNew, ← hc, hplan, hheld, hdata, henv, Bool.false_eq_true, if_false]
  -- only a native packet counts in its pair's entry
  cases hroce : c.roce <;> simp only [he, afterSent, withSent, unackedPkt, asksAck, hroce, Bool.false_eq_true, if_false, if_true]

end

/-- Settles O22: a packet to be sent again comes first, else the next new one leaves by `sendNew_sends`. -/
theorem packetsLeaveInPsnOrder : Obligations.PacketsLeaveInPsnOrder := by
  intro s n c hc hmay
  refine ⟨fun psn r hresend => ?again, fun p data hresend henc hplan hheld hdata => ?new⟩
  case again => rw [exec_packetSend, packetSend_again hmay (hc ▸ hresend)]
  case new =>
    refine ⟨afterSent s.dev c p, asksAck s.dev c p, (Conn.txPsn_set c _).trans (Nat.mod_mod _ _), Conn.txUna_set_txPsn c _,
      ⟨unackedPkt s.dev c p, rfl, rfl, rfl, rfl⟩, ?_⟩
    rw [exec_packetSend, packetSend_new hmay (hc ▸ hresend), sendNew_sends hc henc hplan hheld hdata rfl]

end Sys2Proof.Machine
end

section
/-!
SUPPORT and proofs, family 07_pacing_and_gates: the grid of a gate list (R218, R219), what PORT_PICK sends (R202, R203, R217)
and the gate commands (R214 to R219). One equation for each case of a pick and of a gate command, then the statements.
-/

namespace Sys2Proof.Machine

/-! ## The grid of a gate list (R218, R219) -/

section
variable {base cycle t : Nat}

theorem ceilDiv_le_iff {n c k : Nat} (h : 0 < c) : ceilDiv n c ≤ k ↔ n ≤ k * c := by
  rw [ceilDiv, Nat.div_le_iff_le_mul h]
  omega

/-- A time at or before `base` is no exception: the number of whole cycles up to it is 0. -/
theorem boundaryFrom_eq (h : 0 < cycle) : boundaryFrom base cycle t = base + ceilDiv (t - base) cycle * cycle := by
  rw [boundaryFrom, Nat.max_eq_right h]
  split
  next ht =>
    have hzero : ceilDiv (t - base) cycle ≤ 0 := (ceilDiv_le_iff h).2 (by omega)
    rw [Nat.le_zero.1 hzero, Nat.zero_mul, Nat.add_zero]
  next => rfl

theorem le_boundaryFrom (h : 0 < cycle) : t ≤ boundaryFrom base cycle t := by
  have hreach : t - base ≤ ceilDiv (t - base) cycle * cycle := (ceilDiv_le_iff h).1 (Nat.le_refl _)
  rw [boundaryFrom_eq h]
  omega

theorem boundaryFrom_least (h : 0 < cycle) {k : Nat} (hk : t ≤ base + k * cycle) :
    boundaryFrom base cycle t ≤ base + k * cycle := by
  have hfewer : ceilDiv (t - base) cycle ≤ k := (ceilDiv_le_iff h).2 (by omega)
  rw [boundaryFrom_eq h]
  exact Nat.add_le_add_left (Nat.mul_le_mul_right cycle hfewer) base

theorem boundaryAt_from_base (h : base ≤ t) : boundaryAt base cycle t = boundaryFrom base cycle t := if_pos h

theorem boundaryAt_before_base (hcycle : 0 < cycle) (h : t < base) :
    boundaryAt base cycle t = base - (base - t) / cycle * cycle := by
  rw [boundaryAt, Nat.max_eq_right hcycle, if_neg (Nat.not_le.2 h)]

end

/-- Settles O27: the number of cycles is the quotient rounded up from `base` on (`ceilDiv_le_iff`), and before `base` the
quotient rounded down. -/
theorem swapBoundaryIsTheFirstOfItsGrid : Obligations.SwapBoundaryIsTheFirstOfItsGrid := by
  intro base cycle t hcycle
  refine ⟨⟨le_boundaryFrom hcycle, ⟨_, boundaryFrom_eq hcycle⟩, fun k => boundaryFrom_least hcycle⟩, boundaryAt_from_base,
    fun hbefore => ?_⟩
  have hback : (base - t) / cycle * cycle ≤ base - t := Nat.div_mul_le_self _ _
  rw [boundaryAt_before_base hcycle hbefore]
  refine ⟨by omega, ⟨(base - t) / cycle, by omega⟩, fun k hk => Nat.sub_le_sub_left ?_ base⟩
  have hmost : k ≤ (base - t) / cycle := (Nat.le_div_iff_mul_le hcycle).2 (by omega)
  exact Nat.mul_le_mul_right cycle hmost

/-! ## What a port sends next (R202, R203, R217) -/

theorem exec_portPick (p : Nat) (s : State) :
    exec (.portPick p) s = .next (s.store (mcDrain (portPick s.dev p))) := rfl

section
variable {d c : Ix9} {p l i : Nat} {k : QPkt} {o : Bool} {cls : PickCls}

/-- A run over lane 0 takes its packet where the bucket covers it, and charges the bucket. -/
theorem runPick_laneZero (hrun : cls.has 0 = true) (hready : laneReady d p 0 = some (i, k, o))
    (htokens : wireOf d p k.len * 10 ^ 6 ≤ l0Tokens d p) :
    runPick d p cls = (updPort d p (fun x => { x with l0 := some (l0Tokens d p - wireOf d p k.len * 10 ^ 6, d.el) }),
      some (0, i, k, o)) := by
  simp only [runPick, hrun, hready, htokens, if_true]

/-- Where lane 0 has no packet and another lane of the run has one, the deficit round robin names the lane. -/
theorem runPick_drr {m : Nat} (hzero : laneReady d p 0 = none) (hm : m < 7) (hrun : cls.has (m + 1) = true)
    (hready : (laneReady d p (m + 1)).isSome = true) (hdrr : drr 600 d p cls = (c, some l))
    (hlane : laneReady c p l = some (i, k, o)) : runPick d p cls = (c, some (l, i, k, o)) := by
  have hsome : ((List.range 7).all fun x => !cls.has (x + 1) || (laneReady d p (x + 1)).isNone) = false := by
    rw [List.all_eq_false]
    refine ⟨m, List.mem_range.2 hm, ?_⟩
    rw [hrun, Option.isNone_eq_false_iff.2 hready]
    exact Bool.false_ne_true
  simp only [runPick, hzero, ite_self, hsome, hdrr, hlane, Option.map_some, Bool.false_eq_true, if_false]

section
variable (hup : portUp d p = true) (hstill : rflag d Fld.ETH_LS_STATUS_RETRAINING p = false)
include hup hstill

theorem portPick_plain (hpre : preemptive d p = false) (hframe : (portOf d p).pre.inFrame = none) {x : Option Picked}
    (hrun : runPick (pickStart d p) p .all = (c, x)) : portPick d p = sendPicked c p x := by
  simp only [portPick, hup, hstill, hpre, hframe, hrun, Bool.not_true, Bool.or_self, Option.isSome_none, Bool.false_eq_true,
    if_false]

theorem portPick_preemptive (hpre : preemptive d p = true) : portPick d p = preemptPick (pickStart d p) p := by
  simp only [portPick, hup, hstill, hpre, Bool.not_true, Bool.or_self, Bool.false_eq_true, if_false, if_true]

end

theorem preemptPick_express {x : Picked} (hrun : runPick d p .express = (c, some x)) :
    preemptPick d p = sendPicked (cutFrame c p) p (some x) := by
  simp only [preemptPick, hrun]

section
variable (hrun : runPick d p .express = (c, none))
include hrun

theorem preemptPick_goesOn (hframe : (portOf c p).pre.inFrame.isSome = true) (hhold : (portOf c p).gate.hold = false) :
    preemptPick d p = runFrame c p := by
  simp only [preemptPick, hrun, hframe, hhold, Bool.false_eq_true, if_false, if_true]

theorem preemptPick_held (hframe : (portOf c p).pre.inFrame.isSome = true) (hhold : (portOf c p).gate.hold = true) :
    preemptPick d p = cutFrame c p := by
  simp only [preemptPick, hrun, hframe, hhold, if_true]

theorem preemptPick_begins (hframe : (portOf c p).pre.inFrame = none) {e : Ix9} {x : Option Picked}
    (hnext : runPick c p .preemptible = (e, x)) : preemptPick d p = sendPicked e p x := by
  simp only [preemptPick, hrun, hframe, hnext, Option.isSome_none, Bool.false_eq_true, if_false]

end

end

/-- Settles O25, by the equations above. Where a frame in progress may be cut, and the current lane that each of the two runs
keeps, are the model's choice (log entry 70). -/
theorem portsPickTheirNextPacket : Obligations.PortsPickTheirNextPacket := by
  rintro s p _ hup hstill rfl
  refine ⟨fun hpre hframe => ⟨fun i k o hready htokens => ?laneZero, fun c l m i k o hzero hm hready hdrr hlane => ?robin⟩,
    fun hpre => ⟨fun c l i k o hrun => ?express, fun c hrun =>
      ⟨fun hframe hhold => ?goesOn, fun hframe hhold => ?held, fun e l i k o hframe hnext => ?begins⟩⟩⟩
  case laneZero => rw [exec_portPick, portPick_plain hup hstill hpre hframe (runPick_laneZero rfl hready htokens), sendPicked]
  case robin =>
    rw [exec_portPick, portPick_plain hup hstill hpre hframe (runPick_drr hzero hm rfl hready hdrr hlane), sendPicked]
  case express => rw [exec_portPick, portPick_preemptive hup hstill hpre, preemptPick_express hrun, sendPicked]
  case goesOn => rw [exec_portPick, portPick_preemptive hup hstill hpre, preemptPick_goesOn hrun hframe hhold]
  case held => rw [exec_portPick, portPick_preemptive hup hstill hpre, preemptPick_held hrun hframe hhold]
  case begins => rw [exec_portPick, portPick_preemptive hup hstill hpre, preemptPick_begins hrun hframe hnext, sendPicked]

/-! ## Gate lists (R214, R215, R218, R219) -/

theorem exec_gateEntryBegin (p : Nat) (s : State) : exec (.gateEntryBegin p) s = .next (s.only (gateNext s.dev p)) := rfl

theorem exec_gateEnable (p : Nat) (s : State) : exec (.gateEnable p) s =
    .next (s.only (if wrote s.dev 0 Fld.GATE_CTRL_EN p then gateEnable s.dev p else s.dev)) := rfl

theorem exec_gateDisable (p : Nat) (s : State) : exec (.gateDisable p) s =
    .next (s.only (if wrote s.dev 0 Fld.GATE_CTRL_EN p then gateDisable s.dev p else s.dev)) := rfl

theorem exec_swapReq (p : Nat) (s : State) : exec (.swapReq p) s =
    .next (s.only (if wrote s.dev 0 Fld.GATE_CTRL_SWAP_REQ p then swapReq s.dev p else s.dev)) := rfl

theorem exec_gateSwap (p : Nat) (s : State) : exec (.gateSwap p) s = .next (s.only (gateSwap s.dev p)) := rfl

theorem exec_ptpTimeStep (t : Nat) (s : State) : exec (.ptpTimeStep t) s = .next (s.only (ptpStep s.dev t)) := rfl

section
variable {d : Ix9} {p : Nat}

/-- A field of one bit, as a number. -/
theorem b2n_rflag {f : Fld} (h : rget d f p < 2) : b2n (rflag d f p) = rget d f p := by
  obtain h | h : rget d f p = 0 ∨ rget d f p = 1 := by omega
  all_goals
    rw [rflag, h]
    rfl

section
variable (hport : portExists d p = true)
include hport

theorem gateEnable_sets_en : gateEnable d p = rset d Fld.GATE_CTRL_EN p 1 := if_pos hport

theorem gateDisable_opens : gateDisable d p = updGate (rset (rset (rset (rset d Fld.GATE_CTRL_EN p 0)
    Fld.GATE_STATUS_LIST_ACTIVE p 0) Fld.GATE_STATUS_HOLD p 0) Fld.GATE_STATUS_SWAP_PENDING p 0) p (fun _ => {}) := by
  simp only [gateDisable, hport, Bool.not_true, Bool.false_eq_true, if_false]

section
variable (hfree : rflag d Fld.GATE_STATUS_SWAP_PENDING p = false)
include hfree

/-- With a list active the swap falls on a boundary of that list (R218). -/
theorem swapReq_active (hlist : rflag d Fld.GATE_STATUS_LIST_ACTIVE p = true) : swapReq d p =
    rset (rset d Fld.GATE_STATUS_SWAP_PENDING p 1) Fld.GATE_SWAP_TIME p (boundaryFrom (rget d Fld.GATE_ACT_BASE p)
      (rget d Fld.GATE_ACT_CYCLE p) (max (rget d Fld.GATE_PEND_BASE p) (d.now + 2000))) := by
  simp only [swapReq, hport, hfree, hlist, Bool.not_true, Bool.or_self, Bool.false_eq_true, if_false, if_true]

/-- Without one the swap falls on a boundary of the pending list (R218). -/
theorem swapReq_first (hlist : rflag d Fld.GATE_STATUS_LIST_ACTIVE p = false) : swapReq d p =
    rset (rset d Fld.GATE_STATUS_SWAP_PENDING p 1) Fld.GATE_SWAP_TIME p
      (boundaryFrom (rget d Fld.GATE_PEND_BASE p) (rget d Fld.GATE_PEND_CYCLE p) (d.now + 2000)) := by
  simp only [swapReq, hport, hfree, hlist, Bool.not_true, Bool.or_self, Bool.false_eq_true, if_false]

end

end

/-- The block once the pending list of `p` is the active one: the swap has come, and `ACT_` holds what `PEND_` held. -/
def listSwapped (d : Ix9) (p : Nat) : Ix9 :=
  let a := rset (rset d Fld.GATE_STATUS_ACTIVE p (1 - gateActive d p)) Fld.GATE_STATUS_LIST_ACTIVE p (rget d Fld.GATE_CTRL_EN p)
  rset (rset (rset (rset a Fld.GATE_ACT_BASE p (rget d Fld.GATE_SWAP_TIME p)) Fld.GATE_ACT_CYCLE p
    (rget a Fld.GATE_PEND_CYCLE p)) Fld.GATE_ACT_LEN p (rget a Fld.GATE_PEND_LEN p)) Fld.GATE_STATUS_SWAP_PENDING p 0

theorem gateSwap_pending (hpending : rflag d Fld.GATE_STATUS_SWAP_PENDING p = true) (hbit : rget d Fld.GATE_CTRL_EN p < 2) :
    gateSwap d p = if rflag d Fld.GATE_CTRL_EN p then
        gateFirst (updGate (listSwapped d p) p (fun g => { g with realign := false })) p (rget d Fld.GATE_SWAP_TIME p)
      else listSwapped d p := by
  simp only [gateSwap, b2n_rflag hbit, hpending, Bool.not_true, Bool.false_eq_true, if_false, listSwapped]

/-- The active list stands in registers, which the state of the gates leaves alone. -/
@[simp] theorem gateCycle_updGate (d : Ix9) (p q : Nat) (g : Gate → Gate) : gateCycle (updGate d q g) p = gateCycle d p := rfl

section
variable {i gates n : Nat} {r : List (Nat × Nat × Nat)}

theorem gateFirst_begins (h : gateCycle d p = (i, gates, n) :: r) (at_ : Nat) :
    gateFirst d p at_ = gateBegin d p i gates n at_ := by
  simp only [gateFirst, h]

section
variable (hgated : gated d p = true)
include hgated

theorem gateNext_later {x : Nat × Nat × Nat} (hrealign : (gateOf d p).realign = false)
    (h : (gateCycle d p).dropWhile (fun e => e.1 != (gateOf d p).entry) = x :: (i, gates, n) :: r) :
    gateNext d p = gateBegin (updGate d p (fun g => { g with realign := false })) p i gates n (gateOf d p).endAt := by
  simp only [gateNext, hgated, hrealign, gateCycle_updGate, h, Bool.not_true, Bool.false_eq_true, if_false]

/-- After a step of time, and after the last entry, the list begins anew. -/
theorem gateNext_first (h : (gateOf d p).realign = true ∨
      ((gateCycle d p).dropWhile (fun e => e.1 != (gateOf d p).entry)).length < 2) :
    gateNext d p = gateFirst (updGate d p (fun g => { g with realign := false })) p (gateOf d p).endAt := by
  simp only [gateNext, hgated, gateCycle_updGate, Bool.not_true, Bool.false_eq_true, if_false]
  split
  next => rfl
  next hrealign =>
    have hlast := h.resolve_left hrealign
    split
    next hmore => exact absurd hlast (by rw [hmore, List.length_cons, List.length_cons]; omega)
    next => rfl

end

end

end

/-- Settles O26, by the equations above. That a swapped-in list whose intervals are all 0 runs no entry, in `gateFirst`, is the
model's choice (log entry 66). -/
theorem gateListsRunInTheirCycle : Obligations.GateListsRunInTheirCycle := by
  intro s p hport
  refine ⟨fun hwrote => ⟨?enable, ?disable⟩, fun t hwrote hfree hactive hfirst => ?request, ?swap, ?entry, fun t => ?time⟩
  case enable => rw [exec_gateEnable, if_pos hwrote, gateEnable_sets_en hport]
  case disable => rw [exec_gateDisable, if_pos hwrote, gateDisable_opens hport]
  case request =>
    rw [exec_swapReq, if_pos hwrote]
    cases hlist : rflag s.dev Fld.GATE_STATUS_LIST_ACTIVE p with
    | true => rw [swapReq_active hport hfree hlist, hactive hlist]
    | false => rw [swapReq_first hport hfree hlist, hfirst hlist]
  case swap =>
    rintro _ _ _ hpending rfl rfl hbit rfl
    refine ⟨fun hen => ?_, fun hen => ?_⟩
    · rw [exec_gateSwap, gateSwap_pending hpending hbit, if_pos hen, listSwapped]
    · rw [exec_gateSwap, gateSwap_pending hpending hbit, if_neg (Bool.eq_false_iff.1 hen), listSwapped]
  case entry =>
    rintro _ hgated rfl
    refine ⟨fun x i gates n r hrealign hcycle => ?_, fun i gates n r hcycle hends => ?_⟩
    · rw [exec_gateEntryBegin, gateNext_later hgated hrealign hcycle]
    · rw [exec_gateEntryBegin, gateNext_first hgated hends, gateFirst_begins ((gateCycle_updGate s.dev p p _).trans hcycle)]
  case time => rw [exec_ptpTimeStep, ptpStep]

end Sys2Proof.Machine
end

section
/-!
SUPPORT and proofs, family 08_native_fabric: the route of a packet (R241), the link layer of a native port (R227 to R233), the
routing of received packets and the steps of an epoch change (R241 to R251). One equation for each case of an event, then the
statements.
-/

namespace Sys2Proof.Machine

/-! ## Set bits of a port set (R241) -/

theorem flag_succ (v i : Nat) : flag v (i + 1) = flag (v / 2) i := by
  rw [flag, flag, Nat.shiftRight_succ_inside]

/-- Of the numbers of `w` bits only 0 has no one bit. -/
theorem popcount_eq_zero {w v : Nat} (h : v < 2 ^ w) : popcount w v = 0 ↔ v = 0 := by
  induction w generalizing v with
  | zero => simpa [popcount] using h
  | succ w ih =>
    have hhalf : popcount w (v / 2) = 0 ↔ v / 2 = 0 := ih (by omega)
    rw [popcount]
    omega

theorem nthSetBit_sets {w v j p : Nat} (h : nthSetBit w v j = some p) : flag v p = true ∧ p < w := by
  induction w generalizing v j p with
  | zero => cases h
  | succ w ih =>
    rw [nthSetBit] at h
    split at h
    next hodd =>
      split at h
      next =>
        cases h
        exact ⟨beq_iff_eq.2 hodd, Nat.succ_pos w⟩
      next =>
        obtain ⟨q, hq, rfl⟩ := Option.map_eq_some_iff.1 h
        exact ⟨(flag_succ v q).trans (ih hq).1, Nat.succ_lt_succ (ih hq).2⟩
    next =>
      obtain ⟨q, hq, rfl⟩ := Option.map_eq_some_iff.1 h
      exact ⟨(flag_succ v q).trans (ih hq).1, Nat.succ_lt_succ (ih hq).2⟩

theorem nthSetBit_exists {w v j : Nat} (h : j < popcount w v) : ∃ p, nthSetBit w v j = some p := by
  induction w generalizing v j with
  | zero => exact absurd h (Nat.not_lt_zero j)
  | succ w ih =>
    rw [popcount] at h
    rw [nthSetBit]
    split
    next hodd =>
      split
      next => exact ⟨0, rfl⟩
      next =>
        obtain ⟨p, hp⟩ := ih (v := v / 2) (j := j - 1) (by omega)
        exact ⟨p + 1, by rw [hp, Option.map_some]⟩
    next =>
      obtain ⟨p, hp⟩ := ih (v := v / 2) (j := j) (by omega)
      exact ⟨p + 1, by rw [hp, Option.map_some]⟩

/-! ## The route of a packet (R241) -/

/-- The packet has reached its intermediate group, before or here. -/
def routeHop (d : Ix9) (k : Packet) : Bool := k.hopdone || fabGroup d == k.intm / 256

/-- The port set of the entry that a packet for another endpoint is routed by. -/
def routePorts (d : Ix9) (k : Packet) : Nat :=
  if !routeHop d k then groupPorts d k.epoch (k.intm / 256)
  else if fabGroup d != k.dst / 256 then groupPorts d k.epoch (k.dst / 256) else memberPorts d k.epoch (k.dst % 256)

/-- The set bit of the port set that the packet's flow picks. -/
def routePick (d : Ix9) (k : Packet) : Option Nat :=
  nthSetBit 16 (routePorts d k) (((k.src ^^^ k.dst) + k.lane) % popcount 16 (routePorts d k))

theorem route_eq (d : Ix9) (k : Packet) :
    route d k = if k.dst = fabEp d then .local_ else if popcount 16 (routePorts d k) = 0 then .none_ else
      match routePick d k with | some p => .port p (routeHop d k) | none => .none_ := rfl

/-- All that a route can be: here, nowhere, or by a port of the set. -/
theorem route_cases {d : Ix9} {k : Packet} (h : routePorts d k < 2 ^ 16) :
    (k.dst = fabEp d ∧ route d k = .local_) ∨
    (k.dst ≠ fabEp d ∧ routePorts d k = 0 ∧ route d k = .none_) ∨
    (k.dst ≠ fabEp d ∧ routePorts d k ≠ 0 ∧
      ∃ p, flag (routePorts d k) p = true ∧ p < 16 ∧ route d k = .port p (routeHop d k)) := by
  rw [route_eq]
  by_cases hdst : k.dst = fabEp d
  · exact .inl ⟨hdst, if_pos hdst⟩
  rw [if_neg hdst]
  by_cases hset : routePorts d k = 0
  · exact .inr (.inl ⟨hdst, hset, if_pos ((popcount_eq_zero h).2 hset)⟩)
  have hcount : popcount 16 (routePorts d k) ≠ 0 := mt (popcount_eq_zero h).1 hset
  obtain ⟨p, hp⟩ : ∃ p, routePick d k = some p := nthSetBit_exists (Nat.mod_lt _ (Nat.pos_of_ne_zero hcount))
  obtain ⟨hflag, hlt⟩ := nthSetBit_sets hp
  exact .inr (.inr ⟨hdst, hset, p, hflag, hlt, by rw [if_neg hcount, hp]⟩)

/-- Settles O30, by the three cases of a route. -/
theorem routesFollowTheirPortSets : Obligations.RoutesFollowTheirPortSets := by
  intro d k set hlt hset
  obtain rfl : set = routePorts d k := hset
  obtain ⟨hdst, hroute⟩ | ⟨hdst, hnone, hroute⟩ | ⟨hdst, hsome, p, hflag, hp, hroute⟩ := route_cases hlt
  · rw [hroute]
    exact ⟨⟨fun _ => hdst, fun _ => rfl⟩, nofun, fun h => absurd hdst h, fun h => absurd hdst h⟩
  · rw [hroute]
    exact ⟨⟨nofun, fun h => absurd h hdst⟩, nofun, fun _ h => absurd hnone h, fun _ _ => rfl⟩
  · rw [hroute]
    refine ⟨⟨nofun, fun h => absurd h hdst⟩, ?_, fun _ _ => ⟨p, _, rfl⟩, fun _ h => absurd h hsome⟩
    rintro q hd ⟨⟩
    exact ⟨hflag, hp, rfl⟩

/-! ## The state of a link -/

@[simp] theorem linkOf_updLink (d : Ix9) (p : Nat) (g : Link → Link) : linkOf (updLink d p g) p = g (linkOf d p) := by
  simp [linkOf, updLink, updPort, portOf]

/-- A change of a link depends on the link as it stands alone. -/
theorem updLink_congr {d : Ix9} {p : Nat} {g h : Link → Link} (heq : g (linkOf d p) = h (linkOf d p)) :
    updLink d p g = updLink d p h := by
  have hport : lookD d.net.ports p = portOf d p := rfl
  simp only [linkOf] at heq
  simp only [updLink, updPort, updD, hport, heq]

/-! ## Bring-up, credits and acknowledgements (R227, R229 to R231) -/

theorem exec_linkTrainingDone (p : Nat) (s : State) :
    exec (.linkTrainingDone p) s = .next (s.only (trainingDone s.dev p)) := rfl

theorem exec_initTimer (p : Nat) (s : State) : exec (.initTimer p) s = .next (s.only (initTimer s.dev p)) := rfl

theorem exec_initReceived (p w : Nat) (s : State) :
    exec (.initReceived p w) s = .next (s.store (initReceived s.dev p w)) := rfl

theorem exec_creditReceived (p w : Nat) (s : State) :
    exec (.creditReceived p w) s = .next (s.only (creditReceived s.dev p w)) := rfl

theorem exec_creditTimer (p : Nat) (s : State) : exec (.creditTimer p) s = .next (s.only (creditTimer s.dev p)) := rfl

theorem exec_lackReceived (p w : Nat) (s : State) :
    exec (.lackReceived p w) s = .next (s.only (lackReceived s.dev p w)) := rfl

theorem exec_lackTimer (p : Nat) (s : State) : exec (.lackTimer p) s = .next (s.only (lackTimer s.dev p)) := rfl

theorem exec_lnakReceived (p w : Nat) (s : State) :
    exec (.lnakReceived p w) s = .next (s.store (lnakReceived s.dev p w)) := rfl

section
variable {d : Ix9} {p w : Nat}

theorem trainingDone_sends_init (hnative : isNative d p = true) (hport : portExists d p = true)
    (hstage : (linkOf d p).stage = .training) {e : Ix9} (he : e = updLink d p (fun l => { l with stage := .init })) :
    trainingDone d p = emit e (.linkWord p (initWord e p)) := by
  simp only [he, trainingDone, hnative, hport, hstage, decide_true, Bool.and_self, if_true]

theorem initTimer_sends_init (hstage : (linkOf d p).stage = .init) :
    initTimer d p = emit d (.linkWord p (initWord d p)) := if_pos hstage

theorem creditTimer_sends (hup : rflag d Fld.LINK_STATUS_UP p = true) : creditTimer d p = sendCredits d p := if_pos hup

theorem lackTimer_sends (h : (linkOf d p).sinceLack ≠ 0) :
    lackTimer d p = emit (updLink d p (fun l => { l with sinceLack := 0 })) (.linkWord p (lackWord (linkOf d p).rxSeq)) :=
  if_neg h

theorem initReceived_opens (hword : wordOk w 5 = true) (hstage : (linkOf d p).stage = .init) {e : Ix9} {share : Nat}
    (he : e = rset d Fld.LINK_STATUS_PEER_EP p (bits w 56 40)) (hshare : share = rget e Fld.LINK_CRED_SHARE p) :
    initReceived d p w = openCredits (rset (rset (updLink e p (fun l =>
      { l with stage := .up, peerGen := some (bits w 39 32), share := share,
               given := (List.range 8).map (fun i => (i, shareCredits e p share i - heldCredits l i)) }))
      Fld.LINK_STATUS_UP p 1) Fld.LINK_STATUS_TRAINING p 0) p := by
  simp only [hshare, he, initReceived, hword, hstage, Bool.not_true, Bool.false_eq_true, if_false]

theorem creditReceived_moves (hword : wordOk w 2 = true) (hstage : (linkOf d p).stage = .up) :
    creditReceived d p w = resendGo (updLink d p (fun l =>
      { l with granted := (List.range 4).foldl (fun t i => put t (4 * bit w 59 + i) (num t (4 * bit w 59 + i) +
        (bits w (19 + 12 * i) (8 + 12 * i) + 4096 - num t (4 * bit w 59 + i) % 4096) % 4096)) l.granted })) p := by
  simp only [creditReceived, creditReceived.resendTry, hword, hstage, Bool.not_true, decide_true, Bool.or_true,
    Bool.false_eq_true, if_false, if_true]

theorem lackReceived_covers (hword : wordOk w 3 = true) {l : Link} (hl : l = linkOf d p)
    (hseq : replayHas l (bits w 51 40) = true ∨ bits w 51 40 = l.txSeq) {rest : List (Nat × Packet)}
    (hrest : rest = l.replay.dropWhile (fun r => r.1 != bits w 51 40)) :
    lackReceived d p w = updLink d p
      (fun _ => { l with replay := rest, retries := if rest.length < l.replay.length then (0, 0) else l.retries }) := by
  subst hl hrest
  simp only [lackReceived, hword, Bool.not_true, Bool.false_eq_true, if_false]
  refine updLink_congr (if_pos ?_)
  simpa using hseq

/-! ## Replay (R232) -/

/-- The first LNAK for an LSEQ is no retry too many: every packet from that LSEQ is sent again. -/
theorem lnakReceived_resends (hword : wordOk w 4 = true) (hhas : replayHas (linkOf d p) (bits w 51 40) = true)
    (hfirst : (linkOf d p).retries = (0, 0)) (hmax : 1 ≤ rget d Fld.LINK_CFG_RETRY_MAX p) {again : List (Nat × Packet)}
    (hagain : again = (linkOf d p).replay.dropWhile (fun r => r.1 != bits w 51 40)) :
    lnakReceived d p w =
      resendGo (updLink d p (fun l => { l with retries := (bits w 51 40, 1), resend := again.map (·.1) })) p := by
  have hfew : ¬ rget d Fld.LINK_CFG_RETRY_MAX p < 1 := Nat.not_lt.2 hmax
  simp only [hagain, lnakReceived, hword, hhas, hfirst, hfew, bne_self_eq_false, Bool.and_false, Bool.not_true,
    Bool.false_eq_true, if_false]

theorem resendGo_one {k : Packet} {seq n : Nat} (hresend : (portOf d p).link.resend = [seq])
    (hfind : (portOf d p).link.replay.find? (fun e => e.1 == seq) = some (seq, k)) (hn : n = creditsOf k.payLen)
    (hcredit : n ≤ linkCredit d p k.lane) :
    resendGo d p = updPort (emit (count (updPort d p
        (fun x => { x with link := { x.link with used := bump x.link.used k.lane n } })) Fld.LINK_REPLAYS p)
        (.tx p (.native k) seq)) p (fun x => { x with link := { x.link with resend := [] } }) := by
  subst hn
  simp only [resendGo, hresend, resendFrom, hfind, Nat.not_lt.2 hcredit, List.isEmpty_cons, Bool.false_eq_true, if_false]

/-! ## Loss of a link (R233) -/

section
variable (hport : portExists d p = true)
include hport

theorem lockLost_native (hnative : isNative d p = true) : lockLost d p = linkDown d p := by
  simp only [lockLost, hport, hnative, Bool.not_true, Bool.false_eq_true, if_false, if_true]

theorem lockLost_ethernet (hnative : isNative d p = false) (hup : rflag d Fld.ETH_STATUS_UP p = true) :
    lockLost d p = ethFall d p := by
  simp only [lockLost, hport, hnative, hup, Bool.not_true, Bool.false_eq_true, if_false, if_true]

/-- The LINK_CFG word of the other mode, with the RETRY_MAX that the register holds (R254). -/
theorem linkCfgWrite_other_mode {b : Bool} {r : Nat} (hmode : isNative d p = !b) (hleast : 1 ≤ r) (hmost : r < 256) :
    linkCfgWrite d p (b2n b + r * 2 ^ 8) = linkDown (rset (rset (rset (rset d Fld.LINK_CFG_RETRY_MAX p r)
      Fld.LINK_CFG_NATIVE p (b2n b)) Fld.ETH_STATUS_UP p 0) Fld.ETH_STATUS_AN_DONE p 0) p := by
  have hbit : b2n b < 2 := by cases b <;> decide
  have hretry : bits (b2n b + r * 2 ^ 8) 15 8 = r := by
    rw [bits, Nat.shiftRight_eq_div_pow]
    omega
  have hmodeBit : bit (b2n b + r * 2 ^ 8) 0 = b2n b := by
    rw [bit, Nat.shiftRight_zero]
    omega
  have hother : ¬ (!b) = (b2n b == 1) := by cases b <;> decide
  simp only [linkCfgWrite, hport, hretry, hmodeBit, hmode, hleast, hother, Bool.not_true, Bool.false_eq_true, if_false,
    if_true]

end

/-! ## Link words with a wrong CRC-8 (R227) -/

theorem initReceived_bad (h : wordOk w 5 = false) : initReceived d p w = count d Fld.LINK_CRC_ERR p := by
  rw [initReceived, h]
  rfl

theorem creditReceived_bad (h : wordOk w 2 = false) : creditReceived d p w = count d Fld.LINK_CRC_ERR p := by
  rw [creditReceived, h]
  rfl

theorem lackReceived_bad (h : wordOk w 3 = false) : lackReceived d p w = count d Fld.LINK_CRC_ERR p := by
  rw [lackReceived, h]
  rfl

theorem lnakReceived_bad (h : wordOk w 4 = false) : lnakReceived d p w = count d Fld.LINK_CRC_ERR p := by
  rw [lnakReceived, h]
  rfl

end

theorem exec_linkWordTimeout (p : Nat) (s : State) : exec (.linkWordTimeout p) s =
    .next (s.store (if isNative s.dev p && portExists s.dev p then linkDown s.dev p else s.dev)) := rfl

theorem exec_pcsBlockLockLoss (p : Nat) (s : State) :
    exec (.pcsBlockLockLoss p) s = .next (s.store (lockLost s.dev p)) := rfl

theorem exec_linkCfgNativeWrite (p : Nat) (b : Bool) (s : State) : exec (.linkCfgNativeWrite p b) s =
    .next (s.store (if wrote s.dev 0 Fld.LINK_CFG_NATIVE p then
      linkCfgWrite s.dev p (b2n b + rget s.dev Fld.LINK_CFG_RETRY_MAX p * 2 ^ 8) else s.dev)) := rfl

/-! ## The packet that a native link takes (R228, R231, R232) -/

theorem exec_linkPacketReceived (p w : Nat) (k : Packet) (s : State) :
    exec (.linkPacketReceived p w k) s = .next (s.only (rxPulse (linkPacket s.dev p w k) p k.wireLen)) := rfl

theorem meterApply_unbound {d : Ix9} {i : Nat} (h : meterAt d i = none) (len : Nat) (egress : Bool) :
    meterApply d i len .green egress = (d, .pass, .green) := by
  simp only [meterApply, h, if_true]

theorem linkPacket_down {d : Ix9} {p : Nat} (h : rflag d Fld.LINK_STATUS_UP p = false) (w : Nat) (k : Packet) :
    linkPacket d p w k = count d Fld.LINK_DOWN_DISCARDS p := by
  simp only [linkPacket, h, Bool.not_false, if_true]

/-- The packet as the START word before it completes it (R228). -/
def withStart (w : Nat) (k : Packet) : Packet :=
  { k with hops := bits w 59 56, hopdone := bit w 55 = 1, birth := bits w 39 24, srcConn := bits w 23 0 }

/-- The link after the packet it awaited. -/
def nextExpected : Link → Link := fun l =>
  { l with rxSeq := (l.rxSeq + 1) % 4096, lnak := none, sinceLack := l.sinceLack + 1 }

/-- An intact packet with the LSEQ awaited passes the checks of R232; no LACK is due before the 32nd (R231). -/
theorem linkPacket_joins {d : Ix9} {p w : Nat} {k : Packet} (hup : rflag d Fld.LINK_STATUS_UP p = true)
    (htype : bits w 63 60 = 1) (hcrc3 : crc3 w = bits w 54 52) (hcrc : k.crc = (withStart w k).trailer)
    (hseq : bits w 51 40 = (linkOf d p).rxSeq) (hlack : (linkOf d p).sinceLack < 31) (hwell : packetWell (withStart w k) = true)
    (hmeter : meterAt (updLink d p nextExpected) (8192 + 8 * p + k.lane) = none) :
    linkPacket d p w k =
      updLink (updLink d p nextExpected) p (fun l => { l with rx := l.rx ++ [withStart w k] }) := by
  have hlater : ¬ 32 ≤ (linkOf d p).sinceLack + 1 := by omega
  unfold withStart nextExpected at *
  simp only [linkPacket, hup, htype, hcrc3, ← hcrc, hseq, linkOf_updLink, hlater, hwell, decide_true, bne_self_eq_false,
    Bool.and_self, Bool.and_false, Bool.or_self, Bool.not_true, Bool.false_eq_true, if_false]
  rw [meterApply_unbound hmeter]

/-- Settles O28, by the equations above, one for each case of an event. The credits that packets of an earlier bring-up still
hold and those that a resend takes are the model's choice (log entry 30), and so is the loss of block lock on an Ethernet
port (log entry 26). -/
theorem nativeLinksComeUpAndKeepOrder : Obligations.NativeLinksComeUpAndKeepOrder := by
  rintro s p w _ rfl
  refine ⟨fun d hnative hport hstage hd => ?trained, fun hstage => ?initAgain, fun share d hword hstage hd hshare => ?init,
    fun hword hstage => ?credit, fun hup => ?creditTime, fun rest hword hseq hrest => ?lack, fun howed => ?lackTime,
    fun again hword hhas hfirst hmax hagain => ?lnak, fun k seq n => resendGo_one, fun k hdown => ?down,
    fun hnative hport => ?silent, fun hnative hport => ?lockNative, fun hnative hport hup => ?lockEthernet,
    fun b r hwrote hport hmode hr hleast hmost => ?config, fun hbad => ?badInit, fun hbad => ?badCredit,
    fun hbad => ?badLack, fun hbad => ?badLnak⟩
  case trained => rw [exec_linkTrainingDone, trainingDone_sends_init hnative hport hstage hd]
  case initAgain => rw [exec_initTimer, initTimer_sends_init hstage]
  case init => rw [exec_initReceived, initReceived_opens hword hstage hd hshare]
  case credit => rw [exec_creditReceived, creditReceived_moves hword hstage]
  case creditTime => rw [exec_creditTimer, creditTimer_sends hup]
  case lack => rw [exec_lackReceived, lackReceived_covers hword rfl hseq hrest]
  case lackTime => rw [exec_lackTimer, lackTimer_sends howed]
  case lnak => rw [exec_lnakReceived, lnakReceived_resends hword hhas hfirst hmax hagain]
  case down => rw [exec_linkPacketReceived, linkPacket_down hdown]
  case silent => rw [exec_linkWordTimeout, if_pos (Bool.and_eq_true_iff.2 ⟨hnative, hport⟩)]
  case lockNative => rw [exec_pcsBlockLockLoss, lockLost_native hport hnative]
  case lockEthernet => rw [exec_pcsBlockLockLoss, lockLost_ethernet hport hnative hup]
  case config =>
    subst hr
    rw [exec_linkCfgNativeWrite, if_pos hwrote, linkCfgWrite_other_mode hport hmode hleast hmost]
  case badInit => rw [exec_initReceived, initReceived_bad hbad]
  case badCredit => rw [exec_creditReceived, creditReceived_bad hbad]
  case badLack => rw [exec_lackReceived, lackReceived_bad hbad]
  case badLnak => rw [exec_lnakReceived, lnakReceived_bad hbad]

/-- Settles O29: the packet passes every check, and no meter is bound to its lane. -/
theorem intactPacketsWithTheExpectedSequenceAreTaken : Obligations.IntactPacketsWithTheExpectedSequenceAreTaken := by
  rintro s p w k _ _ _ rfl hup rfl htype hcrc3 hcrc hseq hlack hwell rfl hmeter
  rw [exec_linkPacketReceived, linkPacket_joins (k := k) hup htype hcrc3 hcrc hseq hlack hwell hmeter]
  rfl

/-! ## Routing of received packets (R239, R241, R245) -/

theorem exec_nativePacketRoute (p lane : Nat) (s : State) :
    exec (.nativePacketRoute p lane) s = .next (s.follow (nativeRoute s.dev p lane)) := rfl

section
variable {d e : Ix9} {p q lane i : Nat} {k : Packet} {hd : Bool}

theorem forward_far (hhops : 14 ≤ k.hops) : forward d q k = count d Fld.FAB_HOP_DISCARDS := if_pos hhops

section
variable (hhops : k.hops < 14)
include hhops

theorem forward_old (hage : 500 ≤ ageMs d k) : forward d q k = count d Fld.FAB_EXPIRED := by
  rw [forward, if_neg (Nat.not_le.2 hhops), if_pos hage]

theorem forward_goes_on (hage : ageMs d k < 500) : forward d q k = toPort d q { k with hops := k.hops + 1 } none := by
  rw [forward, if_neg (Nat.not_le.2 hhops), if_neg (Nat.not_le.2 hage)]

end

theorem routePacket_off (hoff : rflag d Fld.FAB_CTRL_FWD_EN = false) :
    routePacket d p k = (count d Fld.FAB_TRANSIT_DISCARDS, false) := by
  rw [routePacket, hoff]
  rfl

section
variable (hon : rflag d Fld.FAB_CTRL_FWD_EN = true) (hepoch : epochRouted d k.epoch = true)
include hon hepoch

theorem routePacket_multicast (hmc : k.mc = true) : routePacket d p k = multicast d (some p) none k := by
  simp only [routePacket, hon, hepoch, hmc, Bool.not_true, Bool.false_eq_true, if_false, if_true]

section
variable (hmc : k.mc = false)
include hmc

theorem routePacket_local (hroute : route d k = .local_) : routePacket d p k = (deliverLocal d k, false) := by
  simp only [routePacket, hon, hepoch, hmc, hroute, Bool.not_true, Bool.false_eq_true, if_false]

theorem routePacket_none (hroute : route d k = .none_) : routePacket d p k = (count d Fld.FAB_NO_ROUTE, false) := by
  simp only [routePacket, hon, hepoch, hmc, hroute, Bool.not_true, Bool.false_eq_true, if_false]

theorem routePacket_port (hroute : route d k = .port q hd) :
    routePacket d p k = (forward d q { k with hopdone := hd }, false) := by
  simp only [routePacket, hon, hepoch, hmc, hroute, Bool.not_true, Bool.false_eq_true, if_false]

end

end

section
variable (holdest : findAt (linkOf d p).rx (fun k => k.lane == lane) = some (i, k))
include holdest

theorem nativeRoute_leaves (hgone : routePacket d p k = (e, false)) :
    nativeRoute d p lane = freeCredits (updLink e p (fun l => { l with rx := l.rx.eraseIdx i })) p k := by
  simp only [nativeRoute, holdest, routeAt, hgone]

theorem nativeRoute_waits (hwaits : routePacket d p k = (e, true))
    (halone : findAt (linkOf e p).rx (fun k => k.lane == lane && !k.mc) = none) : nativeRoute d p lane = e := by
  simp only [nativeRoute, holdest, routeAt, hwaits, halone]

end

end

/-! ## Epochs (R246, R247, R251) -/

theorem exec_pairCountTimeout (i : Nat) (s : State) :
    exec (.pairCountTimeout i) s = .next (s.only (pairTimeout s.dev i)) := rfl

theorem exec_fabEpochCommit (s : State) : exec .fabEpochCommit s =
    .next (s.only (if wrote s.dev 0 Fld.FAB_EPOCH_COMMIT 0 then epochCommit s.dev else s.dev)) := rfl

theorem exec_fabEpochFlip (s : State) : exec .fabEpochFlip s =
    .next (s.only (if wrote s.dev 0 Fld.FAB_EPOCH_FLIP 0 then epochFlip s.dev else s.dev)) := rfl

theorem exec_flipTime (s : State) : exec .flipTime s = .next (s.only (flipTime s.dev)) := rfl

theorem exec_fabEpochForceExpiry (s : State) : exec .fabEpochForceExpiry s = .next (s.only (epochForce s.dev)) := rfl

theorem exec_fabEpochSettleExpiry (s : State) :
    exec .fabEpochSettleExpiry s = .next (s.only (rset s.dev Fld.FAB_EPOCH_SETTLING 0 0)) := rfl

theorem exec_fabEpochCurWrite (v : Nat) (s : State) : exec (.fabEpochCurWrite v) s =
    .next (s.only (if wrote s.dev 0 Fld.FAB_EPOCH_CUR 0 then epochCurWrite s.dev v else s.dev)) := rfl

/-- The pair entries once they have moved to epoch `e` with a count of 0. -/
def pairsIn (e : Nat) (l : Tbl PairEnt) : Tbl PairEnt :=
  l.map fun x => (x.1, { x.2 with epoch := e, count := 0, drawn := x.2.drawn && x.2.epoch == e })

theorem pairsToCur_eq (d : Ix9) : pairsToCur d =
    { d with net := { d.net with pairs := pairsIn (rget d Fld.FAB_EPOCH_CUR) d.net.pairs } } := rfl

/-- The epoch registers turn (R247 step 4). -/
def turned (d : Ix9) : Ix9 :=
  rset (rset (rset d Fld.FAB_EPOCH_CUR 0 (1 - rget d Fld.FAB_EPOCH_CUR)) Fld.FAB_EPOCH_COMMITTED 0 0) Fld.FAB_EPOCH_SETTLING 0 1

theorem rget_turned_cur (d : Ix9) : rget (turned d) Fld.FAB_EPOCH_CUR = (1 - rget d Fld.FAB_EPOCH_CUR) % 2 := by
  rw [turned, rget_rset_ne _ _ _ _ _ _ (by decide), rget_rset_ne _ _ _ _ _ _ (by decide), rget_rset_eq]
  rfl

theorem rflag_turned_fwd (d : Ix9) : rflag (turned d) Fld.FAB_CTRL_FWD_EN = rflag d Fld.FAB_CTRL_FWD_EN := by
  rw [rflag, turned, rget_rset_ne _ _ _ _ _ _ (by decide), rget_rset_ne _ _ _ _ _ _ (by decide),
    rget_rset_ne _ _ _ _ _ _ (by decide), rflag]

theorem flipNow_eq (d : Ix9) : flipNow d =
    { turned d with net := { d.net with
        flipArmed := false
        pairs := if rflag d Fld.FAB_CTRL_FWD_EN = true then d.net.pairs
          else pairsIn ((1 - rget d Fld.FAB_EPOCH_CUR) % 2) d.net.pairs } } := by
  have hflip : flipNow d =
      if rflag (turned d) Fld.FAB_CTRL_FWD_EN = true then { turned d with net := { d.net with flipArmed := false } }
      else { turned d with net := { d.net with
        flipArmed := false, pairs := pairsIn (rget (turned d) Fld.FAB_EPOCH_CUR) d.net.pairs } } := rfl
  rw [hflip, rget_turned_cur, rflag_turned_fwd]
  split <;> rfl

section
variable {d : Ix9}

theorem epochCommit_commits (h : rflag d Fld.FAB_EPOCH_SETTLING = false) :
    epochCommit d = { rset d Fld.FAB_EPOCH_COMMITTED 0 1 with net := { d.net with late := [] } } := by
  simp only [epochCommit, h, Bool.false_eq_true, if_false, rset_net]

section
variable (hcommitted : rflag d Fld.FAB_EPOCH_COMMITTED = true)
include hcommitted

theorem epochFlip_due (h : rget d Fld.FAB_FLIP_AT ≤ d.now) : epochFlip d = flipNow d := by
  simp only [epochFlip, hcommitted, h, Bool.not_true, Bool.false_eq_true, if_false, if_true]

theorem epochFlip_arms (h : d.now < rget d Fld.FAB_FLIP_AT) :
    epochFlip d = { d with net := { d.net with flipArmed := true } } := by
  simp only [epochFlip, hcommitted, Nat.not_le.2 h, Bool.not_true, Bool.false_eq_true, if_false]

theorem flipTime_armed (h : d.net.flipArmed = true) : flipTime d = flipNow d := by
  simp only [flipTime, h, hcommitted, Bool.and_self, if_true]

end

theorem epochForce_moves (h : rflag d Fld.FAB_EPOCH_SETTLING = true) :
    epochForce d = { d with net := { d.net with pairs := d.net.pairs.map (fun (i, e) =>
      (i, if e.epoch = rget d Fld.FAB_EPOCH_CUR then e
        else { e with epoch := rget d Fld.FAB_EPOCH_CUR, drawn := false })) } } := by
  rw [epochForce, h]
  rfl

theorem epochCurWrite_off (h : rflag d Fld.FAB_CTRL_FWD_EN = false) (v : Nat) : epochCurWrite d v =
    { rset d Fld.FAB_EPOCH_CUR 0 v with net := { d.net with pairs := pairsIn (v % 2) d.net.pairs } } := by
  rw [epochCurWrite, if_neg (Bool.eq_false_iff.1 h), pairsToCur_eq, rget_rset_eq]
  rfl

theorem epochCurWrite_on (h : rflag d Fld.FAB_CTRL_FWD_EN = true) (v : Nat) : epochCurWrite d v = d := if_pos h

end

/-- Settles O31, by the equations above. That a multicast packet that must wait stays in the link's buffer is the model's
choice (log entry 27). -/
theorem fabricRoutesAndChangesEpoch : Obligations.FabricRoutesAndChangesEpoch := by
  intro s flipped hflipped
  obtain rfl : flipped = flipNow := hflipped.trans (funext fun d => (flipNow_eq d).symm)
  refine ⟨?routing, fun i => ?count, fun hwrote hsettled => ?commit,
    fun hwrote hcommitted => ⟨fun hdue => ?flip, fun hlater => ?arm⟩,
    fun harmed hcommitted => ?flipTime, fun hsettling => ?force, exec_fabEpochSettleExpiry s,
    fun v hwrote => ⟨fun hoff => ?curOff, fun hon => ?curOn⟩⟩
  case routing =>
    rintro p lane i k holdest _ rfl
    rw [exec_nativePacketRoute]
    refine ⟨fun hoff => ?off, fun hon hepoch => ⟨fun q hd hmc hroute => ?port, fun hmc hroute => ?here,
      fun hmc hroute => ?nowhere, fun d hmc hsent => ?copied, fun d hmc hwaits halone => ?waits⟩⟩
    case off => rw [nativeRoute_leaves holdest (routePacket_off hoff)]
    case port =>
      rw [nativeRoute_leaves holdest (routePacket_port hon hepoch hmc hroute)]
      refine ⟨fun hhops hage => ?_, fun hhops => ?_, fun hhops hage => ?_⟩
      · rw [forward_goes_on (k := { k with hopdone := hd }) hhops hage]
      · rw [forward_far (k := { k with hopdone := hd }) hhops]
      · rw [forward_old (k := { k with hopdone := hd }) hhops hage]
    case here => rw [nativeRoute_leaves holdest (routePacket_local hon hepoch hmc hroute)]
    case nowhere => rw [nativeRoute_leaves holdest (routePacket_none hon hepoch hmc hroute)]
    case copied => rw [nativeRoute_leaves holdest ((routePacket_multicast hon hepoch hmc).trans hsent)]
    case waits => rw [nativeRoute_waits holdest ((routePacket_multicast hon hepoch hmc).trans hwaits) halone]
  case count => rw [exec_pairCountTimeout, pairTimeout]
  case commit => rw [exec_fabEpochCommit, if_pos hwrote, epochCommit_commits hsettled]
  case flip => rw [exec_fabEpochFlip, if_pos hwrote, epochFlip_due hcommitted hdue]
  case arm => rw [exec_fabEpochFlip, if_pos hwrote, epochFlip_arms hcommitted hlater]
  case flipTime => rw [exec_flipTime, flipTime_armed hcommitted harmed]
  case force => rw [exec_fabEpochForceExpiry, epochForce_moves hsettling]
  case curOff => rw [exec_fabEpochCurWrite, if_pos hwrote, epochCurWrite_off hoff, pairsIn]
  case curOn => rw [exec_fabEpochCurWrite, if_pos hwrote, epochCurWrite_on hon, State.only]

end Sys2Proof.Machine
end

section
/-!
SUPPORT and proofs, family 09_ethernet_ports: received frames (R257 to R259), pauses and preemption (R255, R268, R269), lane
sparing, lane shedding and timestamps (R272 to R279). One equation for each case of an event, then the statements.
-/

namespace Sys2Proof.Machine

/-! ## Received frames (R257) -/

theorem exec_ethFrameReceived_frame (p : Nat) (codeErr : Bool) (l : List Byte) (s : State) :
    exec (.ethFrameReceived p (.frame codeErr l)) s =
      .next (s.store (rxPulse (ethFrame s.dev p (.frame codeErr l)) p l.length)) := rfl

theorem exec_ethFrameReceived_badFragments (p : Nat) (s : State) : exec (.ethFrameReceived p .badFragments) s =
    .next (s.store (rxPulse (ethFrame s.dev p .badFragments) p 0)) := rfl

theorem exec_ethFrameReceived_verify (p : Nat) (s : State) : exec (.ethFrameReceived p .verify) s =
    .next (s.store (rxPulse (ethFrame s.dev p .verify) p 0)) := rfl

section
variable {d : Ix9} {p : Nat} (hnative : isNative d p = false) (hup : portUp d p = true)
  (hawake : rflag d Fld.PWR_STATUS_STANDBY = false)
include hnative hup hawake

theorem ethFrame_badFragments : ethFrame d p .badFragments = count d Fld.ETH_RX_ASSY_ERR p := by
  simp only [ethFrame, hnative, hup, hawake, Bool.not_true, Bool.or_self, Bool.false_eq_true, if_false]

theorem ethFrame_verify : ethFrame d p .verify = emit d (.verify p true) := by
  simp only [ethFrame, hnative, hup, hawake, Bool.not_true, Bool.or_self, Bool.false_eq_true, if_false]

theorem ethFrame_codeErr (l : List Byte) : ethFrame d p (.frame true l) = count d Fld.ETH_RX_CODE_ERR p := by
  simp only [ethFrame, hnative, hup, hawake, Bool.not_true, Bool.or_self, Bool.false_eq_true, if_false, if_true]

/-- Checks 2 to 4: the length, and the FCS of what stands before it. -/
theorem ethFrame_intact (l : List Byte) : ethFrame d p (.frame false l) =
    if l.length < 64 then count d Fld.ETH_RX_RUNT p
    else if rget d Fld.ETH_CFG_MAX_FRAME p < l.length then count d Fld.ETH_RX_OVERSIZE p
    else if fcs (l.take (l.length - 4)) != l.drop (l.length - 4) then count d Fld.ETH_RX_FCS_ERR p
    else checkMacsec d p l.length (l.take (l.length - 4)) := by
  simp only [ethFrame, hnative, hup, hawake, Bool.not_true, Bool.or_self, Bool.false_eq_true, if_false]

section
variable {l b : List Byte}

theorem ethFrame_runt (hshort : l.length < 64) : ethFrame d p (.frame false l) = count d Fld.ETH_RX_RUNT p := by
  rw [ethFrame_intact hnative hup hawake, if_pos hshort]

variable (hmin : 64 ≤ l.length)
include hmin

theorem ethFrame_oversize (hlong : rget d Fld.ETH_CFG_MAX_FRAME p < l.length) :
    ethFrame d p (.frame false l) = count d Fld.ETH_RX_OVERSIZE p := by
  rw [ethFrame_intact hnative hup hawake, if_neg (Nat.not_lt.2 hmin), if_pos hlong]

variable (hmax : l.length ≤ rget d Fld.ETH_CFG_MAX_FRAME p) (hb : b = l.take (l.length - 4))
include hmax hb

theorem ethFrame_badFcs (hfcs : fcs b ≠ l.drop (l.length - 4)) :
    ethFrame d p (.frame false l) = count d Fld.ETH_RX_FCS_ERR p := by
  subst hb
  rw [ethFrame_intact hnative hup hawake, if_neg (Nat.not_lt.2 hmin), if_neg (Nat.not_lt.2 hmax), if_pos (bne_iff_ne.2 hfcs)]

/-- A frame with a right FCS goes on to check 6 where MACsec is off. -/
theorem ethFrame_classified (hfcs : fcs b = l.drop (l.length - 4)) (hplain : rflag d Fld.ETH_MACSEC_CFG_EN p = false) :
    ethFrame d p (.frame false l) = classify d p l.length b := by
  subst hb
  rw [ethFrame_intact hnative hup hawake, if_neg (Nat.not_lt.2 hmin), if_neg (Nat.not_lt.2 hmax), hfcs,
    if_neg (by rw [bne_self_eq_false]; exact Bool.false_ne_true), checkMacsec, hplain, Bool.not_false, if_pos rfl]

end

end

section
variable {d : Ix9} {p wire : Nat} {l : List Byte} {v : EthView}

/-- Checks 6 to 8: a frame for the port's address, of no exception class, goes on to the checks of its packet. -/
theorem classify_ip (hv : v = ethView l) (hnotControl : v.etype ≠ 0x8808) (hcls : excClass v = none)
    (hdst : v.dst = rget d Fld.ETH_MAC p) : classify d p wire l = classifyIp d p wire v := by
  subst hv
  simp only [classify, hnotControl, hcls, hdst, bne_self_eq_false, Bool.false_and, Bool.false_eq_true, if_false]

/-- Checks 6 to 8: a frame of an enabled exception class, for the port's address or a group. -/
theorem classify_exception (hv : v = ethView l) (hnotControl : v.etype ≠ 0x8808) {c : Nat} (hcls : excClass v = some c)
    (henabled : flag (rget d Fld.ETH_EXC_CFG p) c = true)
    (hdst : v.dst = rget d Fld.ETH_MAC p ∨ flag (fieldBE l 0 1) 0 = true) :
    classify d p wire l = excFrame d p wire c v l := by
  subst hv
  have htaken : ((ethView l).dst != rget d Fld.ETH_MAC p && !flag (fieldBE l 0 1) 0) = false := by
    obtain hmac | hgroup := hdst
    · rw [hmac, bne_self_eq_false, Bool.false_and]
    · rw [hgroup, Bool.not_true, Bool.and_false]
  simp only [classify, hnotControl, hcls, henabled, htaken, Option.isSome_some, Bool.and_true, Bool.false_eq_true,
    if_false, if_true]

theorem excFrame_unmetered {c : Nat} (hmeter : meterAt d (8192 + 8 * p + excLane d p v) = none)
    (hgreen : rxColour v = .green) : excFrame d p wire c v l =
      excDeliver (count (count d Fld.ETH_RX_FRAMES p) Fld.ETH_RX_BYTES p wire) p c l
        ((d.now : Int) + rsigned d Fld.ETH_TS_ADJ_RX p 16).toNat := by
  simp only [excFrame, excFrame.go, hgreen, meterApply_unbound hmeter]

/-- The opcodes that an Ethernet port takes (check 13). -/
theorem roceOpcode_taken {op : Nat} (h : op < 0x20 ∨ op = 0x81) : (decide (op < 0x20) || decide (op = 0x81)) = true := by
  simpa using h

/-- Checks 9 to 14 passed: the frame is one for the transport. -/
theorem classifyIp_accepts {ip : IpView} {b : List Byte} (hb : b = ip.pay.drop 8)
    (htype : v.etype = 0x0800 ∨ v.etype = 0x86DD) (hip : ipView v.etype v.rest = some ip) (hlocal : localIp d p ip = true)
    (hudp : ip.proto = 17) (hport : fieldBE ip.pay 2 2 = 4791) (hversion : fieldBE b 1 1 % 16 = 0)
    (hop : fieldBE b 0 1 < 0x20 ∨ fieldBE b 0 1 = 0x81)
    (hicrc : icrc ip.ipv6 ip.hdr (ip.pay.take 8) (b.take 12) ((b.drop 12).take (b.length - 16)) = b.drop (b.length - 4)) :
    classifyIp d p wire v = acceptFrame d p wire v ip := by
  subst hb
  have hknown : (v.etype != 0x0800 && v.etype != 0x86DD) = false := by
    obtain h4 | h6 := htype
    · rw [h4]; rfl
    · rw [h6]; rfl
  simp only [classifyIp, hknown, hip, hlocal, hudp, hport, hversion, roceOpcode_taken hop, hicrc, bne_self_eq_false,
    Bool.not_true, Bool.or_self, Bool.false_eq_true, if_false]

/-- The transport takes a frame that no meter is bound to and that its lane has room for. -/
theorem acceptFrame_unmetered {ip : IpView} {lane : Nat} {r : Roce}
    (hlane : lane = rxLane d p (fieldBE (ip.pay.drop 8) 0 1) v ip) (hr : r = rocePktOf d p lane wire ip)
    (hmeter : meterAt d (8192 + 8 * p + lane) = none) (hgreen : rxColour v = .green)
    (hroom : num (portOf d p).rxFill lane + wire ≤ shareBytes d p lane) {e : Ix9}
    (he : e = updPort (count (count d Fld.ETH_RX_FRAMES p) Fld.ETH_RX_BYTES p wire) p
      (fun x => { x with rxFill := bump x.rxFill lane wire })) :
    acceptFrame d p wire v ip = pfcCheck (arrive e (homeTile e r.destQp) lane (.roce r)) p lane := by
  subst hlane hr he
  simp only [acceptFrame, hgreen, meterApply_unbound hmeter, Nat.not_lt.2 hroom, if_false, reduceCtorEq]

end

/-- Settles O32, by the equations above, check by check. Which frames ETH_RX_FRAMES counts and where the meter stands among the
checks are the model's choice (log entry 28); the FCS and the ICRC are taken from their standards (log entry 10). -/
theorem framesPassTheChecksInOrder : Obligations.FramesPassTheChecksInOrder := by
  intro s p l b hnative hup hawake hb
  simp only [exec_ethFrameReceived_frame, exec_ethFrameReceived_badFragments, exec_ethFrameReceived_verify]
  refine ⟨?codeErr, fun hshort => ?runt, fun hmin hlong => ?oversize, fun hmin hmax hfcs => ?badFcs,
    fun v ip hmin hmax hfcs hplain hv hcls hdst htype hip hlocal hudp hport hversion hop hicrc => ?transport,
    fun v c hmin hmax hfcs hplain hv hnotControl hcls henabled hdst hmeter hgreen => ?exception, ?fragments, ?verify⟩
  case codeErr => rw [ethFrame_codeErr hnative hup hawake]
  case runt => rw [ethFrame_runt hnative hup hawake hshort]
  case oversize => rw [ethFrame_oversize hnative hup hawake hmin hlong]
  case badFcs => rw [ethFrame_badFcs hnative hup hawake hmin hmax hb hfcs]
  case transport =>
    have hnotControl : v.etype ≠ 0x8808 := by
      obtain h4 | h6 := htype <;> omega
    rw [ethFrame_classified hnative hup hawake hmin hmax hb hfcs hplain, classify_ip hv hnotControl hcls hdst,
      classifyIp_accepts rfl htype hip hlocal hudp hport hversion hop hicrc]
    refine ⟨rfl, fun lane r hlane hr hmeter hgreen hroom d hd => ?_⟩
    rw [acceptFrame_unmetered hlane hr hmeter hgreen hroom hd]
  case exception =>
    rintro _ rfl
    rw [ethFrame_classified hnative hup hawake hmin hmax hb hfcs hplain,
      classify_exception hv hnotControl hcls henabled hdst, excFrame_unmetered hmeter hgreen]
  case fragments => rw [ethFrame_badFragments hnative hup hawake]
  case verify => rw [ethFrame_verify hnative hup hawake]

/-! ## Registers and state of one port -/

/-- Two fields of the same port have keys of their own. -/
theorem regKey_ne {f g : Fld} (h : g.id ≠ f.id) (i : Nat) : regKey g i ≠ regKey f i := by
  simp only [regKey]
  omega

/-- What a port holds depends on the port as it stands alone. -/
theorem updPort_congr {d : Ix9} {p : Nat} {g h : Port → Port} (heq : g (portOf d p) = h (portOf d p)) :
    updPort d p g = updPort d p h := by
  simp only [portOf] at heq
  simp only [updPort, updD, heq]

/-! ## Link up and group modes (R255) -/

theorem exec_ethLinkUp (p : Nat) (s : State) : exec (.ethLinkUp p) s = .next (s.only (ethLinkUp s.dev p)) := rfl

theorem exec_ethGrpModeWrite (g v : Nat) (s : State) : exec (.ethGrpModeWrite g v) s =
    .next (s.store (if wrote s.dev 0 Fld.ETH_GRP_CFG_MODE g then grpMode s.dev g v else s.dev)) := rfl

/-- A port that holds its width from before keeps it. -/
theorem ethLinkUp_keeps_width {d : Ix9} {p : Nat} (hnative : isNative d p = false) (hport : portExists d p = true)
    (hwidth : rget d Fld.ETH_LS_STATUS_LANES p ≠ 0) :
    ethLinkUp d p = preemptFollow (rset (rset d Fld.ETH_STATUS_UP p 1) Fld.ETH_STATUS_AN_DONE p 1) p := by
  have hkept : rget (rset (rset d Fld.ETH_STATUS_UP p 1) Fld.ETH_STATUS_AN_DONE p 1) Fld.ETH_LS_STATUS_LANES p =
      rget d Fld.ETH_LS_STATUS_LANES p := by
    rw [rget_rset_ne _ _ _ _ _ _ (regKey_ne (by decide) p), rget_rset_ne _ _ _ _ _ _ (regKey_ne (by decide) p)]
  simp only [ethLinkUp, hnative, hport, hkept, hwidth, Bool.not_true, Bool.or_self, Bool.false_eq_true, if_false]

theorem grpMode_fitted {d : Ix9} {g : Nat} (hfitted : lanesFitted d.code g ≠ 0) (v : Nat) {ports : List Nat}
    (hports : ports = (List.range 8).map (8 * g + ·)) {e e' : Ix9}
    (he : e = ports.foldl
      (fun d p => if portExists d p then (if isNative d p then linkFall d p else ethFall d p) else d) d)
    (he' : e' = { rset (rset e Fld.ETH_GRP_CFG_MODE g v) Fld.ETH_SPARE_STATUS_BUSY g 0 with
      net := { e.net with spare := put e.net.spare g {} } }) :
    grpMode d g v = ports.foldl (fun d p => if portExists d p && isNative d p then bringUp d p else d) e' := by
  subst hports he he'
  exact if_neg hfitted

/-! ## Pauses received (R268) -/

theorem exec_pfcFrameReceived (p prios : Nat) (quanta : List Nat) (s : State) :
    exec (.pfcFrameReceived p prios quanta) s = .next (s.only (pfcReceived s.dev p prios quanta)) := rfl

theorem exec_pfcPauseExpiry (p lane : Nat) (s : State) :
    exec (.pfcPauseExpiry p lane) s = .next (s.only (pfcExpiry s.dev p lane)) := rfl

/-- A fold in which no element acts. -/
theorem foldl_eq_self {α β : Type} {f : β → α → β} {b : β} {l : List α} (h : ∀ x ∈ l, f b x = b) : l.foldl f b = b := by
  induction l with
  | nil => rfl
  | cons x xs ih =>
    rw [List.foldl_cons, h x List.mem_cons_self]
    exact ih fun y hy => h y (List.mem_cons_of_mem x hy)

/-- A fold in which one element alone acts, before and after its turn. -/
theorem foldl_eq_once {α β : Type} {f : β → α → β} {b : β} {l : List α} {x : α} (hx : x ∈ l) (hnodup : l.Nodup)
    (hbefore : ∀ y ∈ l, y ≠ x → f b y = b) (hafter : ∀ y ∈ l, y ≠ x → f (f b x) y = f b x) : l.foldl f b = f b x := by
  obtain ⟨l₁, l₂, rfl⟩ := List.append_of_mem hx
  obtain ⟨hnot, -⟩ := List.nodup_cons.1 (List.perm_middle.nodup_iff.1 hnodup)
  have hne : ∀ y ∈ l₁ ++ l₂, y ≠ x := fun y hy heq => hnot (heq ▸ hy)
  rw [List.foldl_append, List.foldl_cons,
    foldl_eq_self fun y hy => hbefore y (List.mem_append_left _ hy) (hne y (List.mem_append_left _ hy)),
    foldl_eq_self fun y hy =>
      hafter y (List.mem_append_right _ (List.mem_cons_of_mem x hy)) (hne y (List.mem_append_right _ hy))]

/-- The priorities of a PFC frame that name a lane. -/
def pfcNamed (d : Ix9) (p prios lane : Nat) : List Nat :=
  (List.range 8).filter (fun c => flag prios c && pcpLane d p c == lane)

/-- The quanta that a PFC frame has for some priorities. -/
def quantaOf (quanta classes : List Nat) : List Nat := classes.map (fun c => (quanta[c]?).getD 0)

/-- A lane paused for `n` quanta from now; 0 ends its pause. -/
def pausedFor (d : Ix9) (p lane n : Nat) : Ix9 :=
  updPort d p (fun x => { x with
    paused := if n = 0 then drop x.paused lane else put x.paused lane (d.el + ceilDiv (n * 512 * 1000) (portRate d p)) })

/-- One lane's share of a PFC frame. -/
def pauseLane (p prios : Nat) (quanta : List Nat) (d : Ix9) (lane : Nat) : Ix9 :=
  let q := quantaOf quanta (pfcNamed d p prios lane)
  if q.isEmpty || !flag (rget d Fld.ETH_PFC_EN p) lane then d else pausedFor d p lane (q.foldl max 0)

theorem pfcReceived_eq (d : Ix9) (p prios : Nat) (quanta : List Nat) : pfcReceived d p prios quanta =
    (List.range 8).foldl (pauseLane p prios quanta) (count d Fld.ETH_RX_PFC p) := rfl

section
variable {d : Ix9} {p prios lane : Nat} {quanta : List Nat}

theorem pauseLane_idle (h : pfcNamed d p prios lane = [] ∨ flag (rget d Fld.ETH_PFC_EN p) lane = false) :
    pauseLane p prios quanta d lane = d := by
  refine if_pos ?_
  simpa [quantaOf] using h

theorem pauseLane_acts (hnamed : pfcNamed d p prios lane ≠ []) (henabled : flag (rget d Fld.ETH_PFC_EN p) lane = true) :
    pauseLane p prios quanta d lane =
      pausedFor d p lane ((quantaOf quanta (pfcNamed d p prios lane)).foldl max 0) := by
  refine if_neg ?_
  simpa [quantaOf, henabled] using hnamed

/-- Counting a PFC frame changes neither the mapping of priorities nor the lanes enabled. -/
theorem rget_count_rxPfc {f : Fld} (h : f.id ≠ Fld.ETH_RX_PFC.id) :
    rget (count d Fld.ETH_RX_PFC p) f p = rget d f p := rget_count_ne _ _ _ _ _ _ (regKey_ne h p)

theorem pfcNamed_count : pfcNamed (count d Fld.ETH_RX_PFC p) p prios lane = pfcNamed d p prios lane := by
  simp only [pfcNamed, pcpLane, rget_count_rxPfc (f := Fld.ETH_PCP_LANE) (by decide)]

/-- A frame that names no enabled lane is counted alone. -/
theorem pfcReceived_counts (h : ∀ lane < 8, pfcNamed d p prios lane = [] ∨ flag (rget d Fld.ETH_PFC_EN p) lane = false) :
    pfcReceived d p prios quanta = count d Fld.ETH_RX_PFC p := by
  rw [pfcReceived_eq]
  refine foldl_eq_self fun lane hlane => pauseLane_idle ?_
  rw [pfcNamed_count, rget_count_rxPfc (f := Fld.ETH_PFC_EN) (by decide)]
  exact h lane (List.mem_range.1 hlane)

section
variable (hall : ∀ c < 8, flag prios c = true → pcpLane d p c = lane)
include hall

theorem pfcNamed_all : pfcNamed d p prios lane = (List.range 8).filter (flag prios) := by
  refine List.filter_congr fun c hc => ?_
  by_cases hflag : flag prios c = true
  · rw [hall c (List.mem_range.1 hc) hflag, beq_self_eq_true, Bool.and_true]
  · rw [Bool.eq_false_iff.2 hflag, Bool.false_and]

theorem pfcNamed_other {other : Nat} (hne : other ≠ lane) : pfcNamed d p prios other = [] := by
  refine List.filter_eq_nil_iff.2 fun c hc hnamed => ?_
  obtain ⟨hflag, hlane⟩ := Bool.and_eq_true_iff.1 hnamed
  exact hne ((beq_iff_eq.1 hlane).symm.trans (hall c (List.mem_range.1 hc) hflag))

end

/-- A frame whose priorities all name one enabled lane pauses it for the longest of their quanta; 0 ends its pause. -/
theorem pfcReceived_pauses {e : Ix9} (he : e = count d Fld.ETH_RX_PFC p) (hlane : lane < 8)
    (henabled : flag (rget e Fld.ETH_PFC_EN p) lane = true) (hsome : ∃ c < 8, flag prios c = true)
    (hall : ∀ c < 8, flag prios c = true → pcpLane e p c = lane) {n : Nat}
    (hn : n = (quantaOf quanta ((List.range 8).filter (flag prios))).foldl max 0) :
    pfcReceived d p prios quanta = pausedFor e p lane n := by
  have hnamed : pfcNamed e p prios lane ≠ [] := by
    obtain ⟨c, hc, hflag⟩ := hsome
    rw [pfcNamed_all hall]
    exact List.ne_nil_of_mem (List.mem_filter.2 ⟨List.mem_range.2 hc, hflag⟩)
  have hturn : pauseLane p prios quanta e lane = pausedFor e p lane n := by
    rw [pauseLane_acts hnamed henabled, pfcNamed_all hall, hn]
  rw [pfcReceived_eq, ← he, foldl_eq_once (List.mem_range.2 hlane) List.nodup_range, hturn]
  · exact fun other _ hne => pauseLane_idle (.inl (pfcNamed_other hall hne))
  · intro other _ hne
    rw [hturn]
    exact pauseLane_idle (.inl (pfcNamed_other (d := pausedFor e p lane n) hall hne))

end

/-! ## Pauses sent, and preemption (R268, R269) -/

theorem exec_pfcRepeatTimer (p lane : Nat) (s : State) :
    exec (.pfcRepeatTimer p lane) s = .next (s.only (pfcRepeat s.dev p lane)) := rfl

theorem exec_preemptVerifyTimer (p : Nat) (s : State) :
    exec (.preemptVerifyTimer p) s = .next (s.only (preemptTimer s.dev p)) := rfl

section
variable {d : Ix9} {p lane : Nat}

theorem pfcRepeat_outstanding (hpausing : lane ∈ (portOf d p).pausing) (hready : pfcReady d p = true) : pfcRepeat d p lane =
    if num (portOf d p).rxFill lane + 32768 ≤ pfcLevel d p lane then
      updPort (sendPfc d p lane 0) p (fun x => { x with pausing := x.pausing.filter (· != lane) })
    else sendPfc d p lane 0xFFFF := by
  simp only [pfcRepeat, List.contains_iff_mem.2 hpausing, hready, Bool.not_true, Bool.or_self, Bool.false_eq_true, if_false]

theorem preemptTimer_verifying (hverify : rget d Fld.ETH_PREEMPT_STATUS_VERIFY p = 1) : preemptTimer d p =
    if (portOf d p).pre.attempts < 3 then
      emit (updPort d p (fun x => { x with pre := { x.pre with attempts := x.pre.attempts + 1 } })) (.verify p false)
    else rset d Fld.ETH_PREEMPT_STATUS_VERIFY p 3 := by
  simp only [preemptTimer, hverify, bne_self_eq_false, Bool.false_eq_true, if_false]

end

/-- Settles O33, by the equations above. The retries of a verify exchange are those of IEEE 802.3 as the model takes them (log
entry 10). -/
theorem pausesAndPreemptionFollowTheirTimers : Obligations.PausesAndPreemptionFollowTheirTimers := by
  intro s p
  refine ⟨fun hnative hport hwidth => ?linkUp, fun g v hwrote hfitted => ?groupMode, fun prios quanta hidle => ?counted,
    fun prios quanta d lane n hd hlane henabled hsome hall hn => ?paused,
    fun prios quanta => exec_pfcFrameReceived p prios quanta s, fun lane => ?expiry,
    fun lane hpausing hready => ?repeats, fun hverify => ?verify⟩
  case linkUp => rw [exec_ethLinkUp, ethLinkUp_keeps_width hnative hport hwidth]
  case groupMode =>
    intro ports d e hports hd he
    rw [exec_ethGrpModeWrite, if_pos hwrote, grpMode_fitted hfitted v hports hd he]
  case counted => rw [exec_pfcFrameReceived, pfcReceived_counts hidle]
  case paused =>
    rw [exec_pfcFrameReceived, pfcReceived_pauses hd hlane henabled hsome hall hn, pausedFor]
    exact ⟨fun hpause => by simp only [hpause, if_false], fun hend => by simp only [hend, if_true]⟩
  case expiry => rw [exec_pfcPauseExpiry, pfcExpiry]
  case repeats =>
    rw [exec_pfcRepeatTimer, pfcRepeat_outstanding hpausing hready]
    exact ⟨fun hlow => by rw [if_pos hlow], fun hhigh => by rw [if_neg (Nat.not_le.2 hhigh)]⟩
  case verify =>
    rw [exec_preemptVerifyTimer, preemptTimer_verifying hverify]
    exact ⟨fun hfew => by rw [if_pos hfew], fun hmany => by rw [if_neg (Nat.not_lt.2 hmany)]⟩

/-! ## Lane sparing (R272, R277) -/

theorem exec_laneLockLoss (g lane : Nat) (s : State) :
    exec (.laneLockLoss g lane) s = .next (s.store (lockLoss s.dev g lane)) := rfl

theorem exec_ethSpareReq (g lane : Nat) (s : State) : exec (.ethSpareReq g lane) s =
    .next (s.store (if wrote s.dev 0 Fld.ETH_SPARE_CTRL_REQ g then spareReq s.dev g lane else s.dev)) := rfl

theorem exec_spareAdaptDone (g : Nat) (s : State) :
    exec (.spareAdaptDone g) s = .next (s.store (spareDone s.dev g)) := rfl

theorem exec_fecWindowEnd (g : Nat) (lanes : List (Nat × Nat × Nat)) (s : State) :
    exec (.fecWindowEnd g lanes) s = .next (s.store (fecWindow s.dev g lanes)) := rfl

@[simp] theorem rflag_updSpare (d : Ix9) (g : Nat) (h : Spare → Spare) (f : Fld) (i : Nat) :
    rflag (updSpare d g h) f i = rflag d f i := rfl

section
variable {d : Ix9} {g lane : Nat}

/-- The first sparing of a group begins at once where its port does not retrain. -/
theorem spareTrigger_begins (hfree : spareOf d g = {}) (hunused : rflag d Fld.ETH_SPARE_MAP_USED g = false)
    (hsteady : rflag d Fld.ETH_LS_STATUS_RETRAINING (lanePort d g lane) = false) :
    spareTrigger d g lane =
      rset (updSpare d g (fun x => { x with busy := some lane })) Fld.ETH_SPARE_STATUS_BUSY g 1 := by
  simp only [spareTrigger, hfree, hunused, hsteady, reduceCtorEq, decide_false, Option.isSome_none, Bool.or_self,
    Bool.false_eq_true, if_false]

theorem lockLoss_triggers (hlane : lane < 8) (huse : laneInUse d g lane = true)
    (hauto : rflag d Fld.ETH_SPARE_CFG_AUTO g = true) : lockLoss d g lane = spareTrigger d g lane := by
  simp only [lockLoss, hlane, huse, hauto, decide_true, Bool.and_self, if_true]

theorem spareReq_triggers {e : Ix9} (he : e = rset d Fld.ETH_SPARE_CTRL_LANE g lane)
    (hport : portExists e (lanePort e g (lane % 8)) = true) : spareReq d g lane = spareTrigger e g (lane % 8) := by
  subst he
  exact if_pos hport

theorem spareDone_ends (hbusy : (spareOf d g).busy = some lane) {e : Ix9}
    (he : e = rset (rset (rset d Fld.ETH_SPARE_MAP_FAILED g lane) Fld.ETH_SPARE_MAP_USED g 1) Fld.ETH_SPARE_STATUS_BUSY g 0) :
    spareDone d g = portEvent (updSpare e g (fun x =>
      { x with busy := none, overs := drop (drop x.overs (2 * lane)) (2 * lane + 1) })) (lanePort e g lane) 2 lane := by
  subst he
  simp only [spareDone, hbusy]

section
variable {corr unc : Nat} {e : Ix9}
  (he : e = count (count d Fld.ETH_LANE_CORR (g * 16 + lane) corr) Fld.ETH_LANE_UNCORR (g * 16 + lane) unc)
include he

/-- A lane beyond the eight of the group has counters and no windows. -/
theorem fecWindow_spare_lane (hlane : 8 ≤ lane) : fecWindow d g [(lane, corr, unc)] = e := by
  subst he
  exact if_pos hlane

/-- Without AUTO a lane's windows in a row are counted, and nothing is triggered. -/
theorem fecWindow_counts (hlane : lane < 8) (huse : laneInUse e g lane = true)
    (hmanual : rflag e Fld.ETH_SPARE_CFG_AUTO g = false) : fecWindow d g [(lane, corr, unc)] =
      updSpare e g (fun x => { x with
        overs := put (put x.overs (2 * lane)
            (if rget e Fld.ETH_SPARE_CFG_THRESH g < corr then num (spareOf e g).overs (2 * lane) + 1 else 0))
          (2 * lane + 1) (if 0 < unc then num (spareOf e g).overs (2 * lane + 1) + 1 else 0) }) := by
  subst he
  simp only [fecWindow, List.foldl_cons, List.foldl_nil, Nat.not_le.2 hlane, huse, rflag_updSpare, hmanual, Bool.not_true,
    Bool.false_and, Bool.false_eq_true, if_false]

end

end

/-! ## Lane shedding and timestamps (R273, R274, R279) -/

theorem exec_laneShedWindow (p tx rx : Nat) (s : State) :
    exec (.laneShedWindow p tx rx) s = .next (s.only (shedWindow s.dev p tx rx)) := rfl

theorem exec_lsRetrainDone (p : Nat) (s : State) : exec (.lsRetrainDone p) s = .next (s.store (lsDone s.dev p)) := rfl

theorem exec_ethTsPop (p : Nat) (s : State) : exec (.ethTsPop p) s =
    .next (s.only (if wrote s.dev 0 Fld.ETH_TS_SEC p then tsPop s.dev p else s.dev)) := rfl

section
variable {d : Ix9} {p : Nat}

theorem sheds_of_up (hcode : d.code < 2) (hen : rflag d Fld.ETH_LS_EN p = true) (hnative : isNative d p = false)
    (hup : portUp d p = true) (hsteady : rflag d Fld.ETH_LS_STATUS_RETRAINING p = false) : sheds d p = true := by
  simp only [sheds, hcode, hen, hnative, hup, hsteady, decide_true, Bool.not_false, Bool.and_self]

/-- A window of low load at the full width: the lanes are halved after DWELL of them. -/
theorem shedWindow_low {tx rx : Nat} (hsheds : sheds d p = true) (hfull : portLanes d p = laneWidth d (p / 8))
    (hlow : max tx rx * 16 < rget d Fld.ETH_LS_THRESH p * portRate d p) : shedWindow d p tx rx =
      if rget d Fld.ETH_LS_DWELL p * 10 ≤ (portOf d p).shedLow + 1 && 1 < portLanes d p && minLanes d p ≤ portLanes d p / 2
      then lsRetrain d p (portLanes d p / 2)
      else updPort d p (fun x => { x with shedLow := (portOf d p).shedLow + 1 }) := by
  have hwide : ¬ portLanes d p < laneWidth d (p / 8) := Nat.not_lt.2 (Nat.le_of_eq hfull.symm)
  simp only [shedWindow, hsheds, hwide, hlow, decide_false, Bool.false_and, Bool.not_true,
    Bool.false_eq_true, if_false, if_true]

theorem lsDone_no_sparing {n : Nat} (htarget : (portOf d p).lsTarget = some n) {b e : Ix9}
    (hb : b = rset (rset d Fld.ETH_LS_STATUS_RETRAINING p 0) Fld.ETH_LS_STATUS_LANES p n)
    (he : e = (List.range 8).foldl (fun d lane => shedQueue d p lane)
      (portEvent (updPort b p (fun x => { x with lsTarget := none, shedLow := 0 })) p 4 n))
    (hnone : (spareOf e (p / 8)).wait = none) : lsDone d p = e := by
  simp only [lsDone, htarget]
  rw [← hb, ← he, hnone]

theorem tsPop_head {a b c sec x : Nat} {r : List (Nat × Nat × Nat × Nat × Nat)}
    (hfifo : (portOf d p).tsFifo = (a, b, c, sec, x) :: r) :
    tsPop d p = emit (updPort d p (fun q => { q with tsFifo := r })) (.value (sec % 2 ^ 48)) := by
  have htail : updPort d p (fun q => { q with tsFifo := q.tsFifo.drop 1 }) = updPort d p (fun q => { q with tsFifo := r }) :=
    updPort_congr (by rw [hfifo]; rfl)
  simp only [tsPop, hfifo, htail]

end

/-- Settles O34, by the equations above. DWELL counted in windows of 100 µs is the model's choice (log entry 28). -/
theorem lanesAreSparedAndShed : Obligations.LanesAreSparedAndShed := by
  intro s p g lane
  refine ⟨fun hlane huse hauto hfree hunused hsteady => ?lockLoss,
    fun d hwrote hd hport hfree hunused hsteady => ?request, fun hbusy d hd => ?adapted, fun corr unc d hd => ?window,
    fun tx rx hcode hen hnative hup hsteady hfull hlow => ?shed, fun n d htarget hd e he hnone => ?retrained,
    fun a b c sec x r hwrote hfifo => ?timestamp⟩
  case lockLoss => rw [exec_laneLockLoss, lockLoss_triggers hlane huse hauto, spareTrigger_begins hfree hunused hsteady]
  case request =>
    have hfree' : spareOf d g = {} := by rw [hd]; exact hfree
    rw [exec_ethSpareReq, if_pos hwrote, spareReq_triggers hd hport, spareTrigger_begins hfree' hunused hsteady]
  case adapted => rw [exec_spareAdaptDone, spareDone_ends hbusy hd]
  case window =>
    rw [exec_fecWindowEnd]
    refine ⟨fun hspare => ?_, fun hlane huse hmanual hcorr hunc => ?_, fun hlane huse hmanual hcorr hunc => ?_⟩
    · rw [fecWindow_spare_lane hd hspare]
    · rw [fecWindow_counts hd hlane huse hmanual, if_neg (Nat.not_lt.2 hcorr), hunc, if_neg (Nat.lt_irrefl 0)]
    · rw [fecWindow_counts hd hlane huse hmanual, if_pos hcorr, hunc, if_neg (Nat.lt_irrefl 0)]
  case shed =>
    rw [exec_laneShedWindow, shedWindow_low (sheds_of_up hcode hen hnative hup hsteady) hfull hlow]
    refine ⟨fun hdwell hmany hleast => ?_, fun hearly => ?_⟩
    · rw [decide_eq_true hdwell, decide_eq_true hmany, decide_eq_true hleast, Bool.and_self, Bool.and_self, if_pos rfl]
    · rw [decide_eq_false (Nat.not_le.2 hearly), Bool.false_and, Bool.false_and, if_neg Bool.false_ne_true]
  case retrained => rw [exec_lsRetrainDone, lsDone_no_sparing htarget hd he hnone]
  case timestamp => rw [exec_ethTsPop, if_pos hwrote, tsPop_head hfifo]

end Sys2Proof.Machine
end

section
/-!
SUPPORT and proofs, family 10_collectives: Heat entries and the groups they run in (R281 to R291), control messages (R296 to
R305) and the timers of a Heat (R298 to R304). What each command runs and one equation for each case of an operation come
first in each part, then its statement.
-/

namespace Sys2Proof.Machine

/-! ## Heat entries (R287, R288, R291) -/

theorem exec_opAllReduce (k slot : Nat) (s : State) :
    exec (.opAllReduce k slot) s = .next (s.follow (opHeat s.cells s.dev 0x20 k slot)) := rfl

theorem exec_opReduceScatter (k slot : Nat) (s : State) :
    exec (.opReduceScatter k slot) s = .next (s.follow (opHeat s.cells s.dev 0x21 k slot)) := rfl

theorem exec_opAllGather (k slot : Nat) (s : State) :
    exec (.opAllGather k slot) s = .next (s.follow (opHeat s.cells s.dev 0x22 k slot)) := rfl

theorem exec_opReduce (k slot : Nat) (s : State) :
    exec (.opReduce k slot) s = .next (s.follow (opHeat s.cells s.dev 0x23 k slot)) := rfl

theorem exec_opBroadcast (k slot : Nat) (s : State) :
    exec (.opBroadcast k slot) s = .next (s.follow (opHeat s.cells s.dev 0x24 k slot)) := rfl

theorem exec_opAllToAll (k slot : Nat) (s : State) :
    exec (.opAllToAll k slot) s = .next (s.follow (opHeat s.cells s.dev 0x25 k slot)) := rfl

theorem exec_opAllToAllv (k slot : Nat) (s : State) :
    exec (.opAllToAllv k slot) s = .next (s.follow (opHeat s.cells s.dev 0x26 k slot)) := rfl

theorem exec_opGroupBarrier (k slot : Nat) (s : State) :
    exec (.opGroupBarrier k slot) s = .next (s.follow (opHeat s.cells s.dev 0x27 k slot)) := rfl

/-- A started Heat entry of a group that its queue may use enters the engine under the HEAT_SEQ it starts with. -/
theorem opHeat_enters {m : List Host.Cell} {d b : Ix9} {op k slot gn seq next : Nat} {q : Sq} {e : Entry} {g : Group}
    (h : startedEntry d op k slot = some (q, e)) (hgn : gn = e.object % 4096) (hgroup : look d.h.groups gn = some g)
    (howner : g.owner = q.func) (htile : g.tile = q.tile) (hseq : startSeq g e = (seq, next))
    (hb : b = updGroup (updEntry d k slot (fun e => { e with phase := 1 })) gn (fun g => { g with nextSeq := next })) :
    opHeat m d op k slot =
      heatsRun m (replayEarly m (enterHeat b (heatKey gn g.ep.epoch seq) (heatOf b g gn seq k e)) gn) := by
  subst hgn hb
  simp only [opHeat, h, hgroup, howner, htile, hseq, bne_self_eq_false, Bool.or_self, Bool.false_eq_true, if_false]

/-- Whether a member table can be reached does not depend on the Heats and groups. -/
theorem tableDown_groups (d : Ix9) (w : Colls) (g : Group) : tableDown { d with h := w } g = tableDown d g := rfl

section
variable {c : Ix9} {h : Heat} {g : Group} (key : Nat) (hgroup : look c.h.groups h.group = some g)
  (hrecorded : look g.recorded h.seq = none) (htable : tableDown c g = false)
include hgroup hrecorded htable

/-- Without a recorded ABORT, and with its member table at hand, a Heat enters with the transfers planned for it. -/
theorem enterHeat_starts : enterHeat c key h = { c with h := { c.h with
    groups := upd c.h.groups h.group (fun g => { g with lastStarted := some h.seq })
    heats := put c.h.heats key { h with xfers := planOf h } } } := by
  have hg : lookD c.h.groups h.group = g := by rw [lookD, hgroup, Option.getD_some]
  simp only [enterHeat, updGroup, hg, hrecorded, tableDown_groups, htable, Bool.false_eq_true, if_false]

theorem heatAt_enterHeat : heatAt (enterHeat c key h) key = some { h with xfers := planOf h } := by
  rw [enterHeat_starts key hgroup hrecorded htable, heatAt, look_put_eq]

theorem look_groups_enterHeat :
    look (enterHeat c key h).h.groups h.group = some { g with lastStarted := some h.seq } := by
  rw [enterHeat_starts key hgroup hrecorded htable, look_upd_eq, hgroup, Option.map_some]

end

/-- Settles O35: the eight opcodes run one operation, each on the entries of its own opcode. That an entry accepted in an
epoch that has been replaced takes the next HEAT_SEQ of the new one is the model's choice (log entry 33). -/
theorem heatEntriesEnterTheEngine : Obligations.HeatEntriesEnterTheEngine := by
  intro s k slot q e gn g seq next op b d h hgn hgroup howner htile hseq hb hd
  have hrun : opHeat s.cells s.dev op k slot = d := hd ▸ opHeat_enters h hgn hgroup howner htile hseq hb
  refine ⟨?allReduce, ?reduceScatter, ?allGather, ?reduce, ?broadcast, ?allToAll, ?allToAllv, ?barrier, ?entering⟩
  case allReduce => rintro rfl; rw [exec_opAllReduce, hrun]
  case reduceScatter => rintro rfl; rw [exec_opReduceScatter, hrun]
  case allGather => rintro rfl; rw [exec_opAllGather, hrun]
  case reduce => rintro rfl; rw [exec_opReduce, hrun]
  case broadcast => rintro rfl; rw [exec_opBroadcast, hrun]
  case allToAll => rintro rfl; rw [exec_opAllToAll, hrun]
  case allToAllv => rintro rfl; rw [exec_opAllToAllv, hrun]
  case barrier => rintro rfl; rw [exec_opGroupBarrier, hrun]
  case entering =>
    intro c key h hgroup hrecorded htable
    exact ⟨heatAt_enterHeat key hgroup hrecorded htable, look_groups_enterHeat key hgroup hrecorded htable⟩

/-! ## OP_GROUP_SET (R282 to R286) -/

theorem exec_opGroupSet (k slot : Nat) (r : ReadData) (s : State) :
    exec (.opGroupSet k slot r) s = .next (s.follow (opGroupSet s.cells s.dev k slot r)) := rfl

section
variable {m : List Host.Cell} {d : Ix9} {k slot gn : Nat} {q : Sq} {e : Entry} {r : ReadData} {old : Option Group}
  (h : startedEntry d 0x28 k slot = some (q, e)) (hgn : gn = e.object % 4096) (hold : old = look d.h.groups gn)
include h hgn hold

theorem opGroupSet_destroys {g : Group} (haction : e.opflags % 4 = 2) (hgroup : old = some g) (howner : g.owner = q.func)
    (hdying : g.dying = none) : opGroupSet m d k slot r = destroyWaits (updGroup
      (updEntry d k slot (fun e => { e with phase := 1 })) gn (fun g => { g with dying := some (k, slot) })) := by
  subst hgn
  simp only [opGroupSet, h, haction, ← hold, hgroup, howner, hdying, bne_self_eq_false, Option.isSome_none, Bool.or_self,
    Bool.false_eq_true, if_true, if_false]

section
variable {b : List Byte} {place : List Seg}
  (hread : readSegs m d ((e.bufs.head?.map (·.segs)).getD []) r = .ok b)
  (hplace : place = if stacksOf d.code = 0 then (e.bufs.head?.map (·.segs)).getD [] else [])
  (hcheck : groupCheck d q (e.opflags % 4) old (groupEpOf e b) = none)
include hread hplace hcheck

theorem opGroupSet_creates (haction : e.opflags % 4 = 0) (hquota : quotaAllows d q.func rHEAT 1 = true) :
    opGroupSet m d k slot r = endEntry { d with h := { d.h with
      groups := put d.h.groups gn { owner := q.func, tile := q.tile, ep := groupEpOf e b, place := place } } }
      k slot ST_OK 0 b.length := by
  subst hgn hplace
  rw [haction] at hcheck
  simp [opGroupSet, h, haction, ← hold, hread, hcheck, hquota]

theorem opGroupSet_advances (haction : e.opflags % 4 = 1) :
    opGroupSet m d k slot r = endEntry (updGroup d gn (fun o => { o with
      ep := groupEpOf e b, place := place, mcLast := none, nextSeq := 0, lastStarted := none, recorded := [],
      early := o.early.filter (fun c => c.epoch == (groupEpOf e b).epoch) })) k slot ST_OK 0 b.length := by
  subst hgn hplace
  rw [haction] at hcheck
  simp [opGroupSet, h, haction, ← hold, hread, hcheck]

end

end

/-- Settles O36, by the equations above. That a group without HBM keeps the place of its member table, to be read there, is
the model's choice (log entry 63). -/
theorem groupsAreCreatedAdvancedAndDestroyed : Obligations.GroupsAreCreatedAdvancedAndDestroyed := by
  intro s k slot q e r gn old h hgn hold
  rw [exec_opGroupSet]
  refine ⟨fun g haction hgroup howner hdying => ?destroy, fun b place hread hplace hcheck =>
    ⟨fun haction hquota => ?create, fun haction => ?advance⟩⟩
  case destroy => rw [opGroupSet_destroys h hgn hold haction hgroup howner hdying]
  case create => rw [opGroupSet_creates h hgn hold hread hplace hcheck haction hquota]
  case advance => rw [opGroupSet_advances h hgn hold hread hplace hcheck haction]

/-! ## Control messages (R296 to R304) -/

/-- An opened message of the row's KIND acts where the collective engine of its tile is ready, and then the Heats go on. -/
theorem ctrlReceived_acts {s : State} {d r : Ix9} {k : Packet} {kind tile : Nat} {c : Ctrl}
    (hopen : openCtrl s.dev k = (d, some (tile, c))) (hready : islandReady s.dev (iCOLL tile) = true) (hkind : c.kind = kind)
    (hact : onCtrl s.cells d tile c = r) :
    s.act (fun m d => ctrlReceived m d kind k) = .next (s.follow (heatsRun s.cells r)) := by
  simp only [State.act, ctrlReceived, hopen, hkind, hready, hact, decide_true, Bool.and_self, if_true]

section
variable {s : State} {k : Packet} {d : Ix9} {tile : Nat} {c : Ctrl} (hopen : openCtrl s.dev k = (d, some (tile, c)))
  (hready : islandReady s.dev (iCOLL tile) = true)
include hopen hready

theorem exec_heatCreditReceived (hkind : c.kind = 1) :
    exec (.heatCreditReceived k) s = .next (s.follow (heatsRun s.cells (onCredit d tile c))) :=
  ctrlReceived_acts hopen hready hkind (by simp [onCtrl, hkind])

theorem exec_heatAbortReceived (hkind : c.kind = 2) :
    exec (.heatAbortReceived k) s = .next (s.follow (heatsRun s.cells (onHeatAbort d tile c))) :=
  ctrlReceived_acts hopen hready hkind (by simp [onCtrl, hkind])

theorem exec_finishUpReceived (hkind : c.kind = 3) :
    exec (.finishUpReceived k) s = .next (s.follow (heatsRun s.cells (onFinishUp d tile c))) :=
  ctrlReceived_acts hopen hready hkind (by simp [onCtrl, hkind])

theorem exec_releaseReceived (hkind : c.kind = 4) :
    exec (.releaseReceived k) s = .next (s.follow (heatsRun s.cells (onRelease d tile c))) :=
  ctrlReceived_acts hopen hready hkind (by simp [onCtrl, hkind])

theorem exec_queryReceived (hkind : c.kind = 5) :
    exec (.queryReceived k) s = .next (s.follow (heatsRun s.cells (onQuery d tile c))) :=
  ctrlReceived_acts hopen hready hkind (by simp [onCtrl, hkind])

theorem exec_markReceived (hkind : c.kind = 6) :
    exec (.markReceived k) s = .next (s.follow (heatsRun s.cells (onMark s.cells d tile c))) :=
  ctrlReceived_acts hopen hready hkind (by simp [onCtrl, hkind])

theorem exec_repairReceived (hkind : c.kind = 7) :
    exec (.repairReceived k) s = .next (s.follow (heatsRun s.cells (onRepair d tile c))) :=
  ctrlReceived_acts hopen hready hkind (by simp [onCtrl, hkind])

end

section
variable {m : List Host.Cell} {d : Ix9} {tile : Nat} {c : Ctrl} {key : Nat} {h : Heat}
  (hheat : ctrlHeat d tile c = some (key, h))
include hheat

/-- A CREDIT with the Heat's DESC_HASH, for the multicast Lap: the sender has freed the slot. -/
theorem onCredit_multicast (haborted : h.aborted = none) (hhash : c.a = h.hash) {x : Xfer} (hx : x ∈ h.xfers)
    (hmc : x.mc = true) (hlap : x.lap = c.lap) : onCredit d tile c =
      mcCredit (updHeat d key (fun h => { h with mcFreed := (c.sender, c.b % 1024) :: h.mcFreed })) key (c.b % 1024) := by
  have hany : h.xfers.any (fun x => x.mc && x.lap == c.lap) = true :=
    List.any_eq_true.2 ⟨x, hx, by rw [hmc, hlap, beq_self_eq_true, Bool.and_self]⟩
  simp only [onCredit, hheat, haborted, hhash, hany, Option.isSome_none, bne_self_eq_false, Bool.false_and,
    Bool.false_eq_true, if_false, if_true]

/-- A CREDIT with the Heat's DESC_HASH, for a send outside the multicast Lap: its slot joins the credits of the send. -/
theorem onCredit_unicast (haborted : h.aborted = none) (hhash : c.a = h.hash)
    (hlaps : ∀ x ∈ h.xfers, x.mc = true → x.lap ≠ c.lap) (hop : h.op ≠ 0x26) {i : Nat} {x : Xfer}
    (hsend : findAt h.xfers (fun x => x.send && x.lap == c.lap && x.peer == c.sender) = some (i, x)) : onCredit d tile c =
      updHeat d key (fun h => { h with xfers := h.xfers.set i { x with cred := x.cred ++ [c.b % 1024] } }) := by
  have hany : h.xfers.any (fun x => x.mc && x.lap == c.lap) = false := by simpa using hlaps
  simp only [onCredit, hheat, haborted, hhash, hany, hsend, hop, Option.isSome_none, bne_self_eq_false, Bool.false_and,
    decide_false, Bool.false_eq_true, if_false]

/-- A CREDIT with another DESC_HASH: the members disagree on the Heat. -/
theorem onCredit_other_hash (haborted : h.aborted = none) (hhash : c.a ≠ h.hash) (hop : h.op ≠ 0x30) :
    onCredit d tile c = heatOrigin d key ST_HEAT_ABORTED 0x05 c.sender := by
  simp only [onCredit, hheat, haborted, bne_iff_ne.2 hhash, hop, Option.isSome_none, decide_false, Bool.false_and,
    Bool.not_false, Bool.and_self, Bool.false_eq_true, if_false, if_true]

theorem onHeatAbort_undecided (hfinished : h.finished = false) (haborted : h.aborted = none) (hup : h.sentUp = false) :
    onHeatAbort d tile c = heatAbort (count d Fld.COLL_ABORTS_RCVD h.tile) key
      ⟨c.status, c.cause, c.origin, c.lap, c.a % 65536, none, false⟩ (some c.sender) := by
  simp only [onHeatAbort, hheat, hfinished, haborted, hup, Option.isSome_none, Bool.or_self, Bool.false_eq_true, if_false]

theorem onFinishUp_first (hsender : c.sender ∉ h.ups) : onFinishUp d tile c =
    updHeat d key (fun h => noteArrived d.now { h with ups := insertNat h.ups c.sender } 0xFFFE c.sender) := by
  have hnew : h.ups.contains c.sender = false := by simpa using hsender
  simp only [onFinishUp, hheat, hnew, Bool.false_eq_true, if_false]

theorem onRelease_ok (hdecision : h.decision = none) (hfast : h.fast = false) (hstatus : c.status = 0)
    (hup : h.sentUp = true) (hfinished : h.finished = false) : onRelease d tile c =
      heatComplete (sendRelease (updHeat d key (fun h => noteArrived d.now { h with decision := some (0, 0) } 0xFFFF c.sender))
        h 0 0 (h.tree0.children h.ep.bib)) key ST_OK 0 := by
  simp only [onRelease, hheat, hdecision, hfast, hstatus, hup, hfinished, Option.isSome_none, Bool.or_self, Bool.not_false,
    Bool.and_self, Bool.false_eq_true, if_false, if_true]

theorem onQuery_decided (hkey : heatAt d key = some h) {st cs : Nat} (hdecision : h.decision = some (st, cs)) :
    onQuery d tile c = sendRelease d h st cs [c.sender] := by
  simp only [onQuery, hheat, hkey, hdecision, Option.isNone_some, Bool.and_false, Bool.false_and, Bool.false_eq_true, if_false]

/-- A MARK for the Heat's multicast input: taken already, landed whole, or to be asked of the root again. -/
theorem onMark_input {x : Xfer} (hx : h.xfers.find? (fun x => x.mc && !x.send) = some x) {e : Ix9}
    (he : e = updHeat d key (fun h => { h with mcMark := put h.mcMark (c.a % 8) (c.a, c.b) })) : onMark m d tile c =
      if x.done || has x.chunks c.a then mcCredit e key (c.a % 8) true
      else if c.b ≤ num h.mcGot (c.a % 8) then mcTake m e key c.a c.b .own
      else ctrlTo e h.ep x.peer { kind := 7, seq := h.seq, lap := x.lap, a := c.a } := by
  subst he
  simp only [onMark, hheat, hx]

/-- A REPAIR for one of the eight newest chunks: the root posts it again by unicast, into the slot it had. -/
theorem onRepair_in_slot {i : Nat} {x : Xfer} {p : Member} (hx : findAt h.xfers (fun x => x.mc && x.send) = some (i, x))
    (hpeer : h.ep.peer c.sender = some p) (hsent : c.a < x.n) (hnew : x.n ≤ c.a + 8) {e : Ix9}
    (he : e = updHeat (count { d with h := { d.h with nextLocal := d.h.nextLocal + 1 } } Fld.COLL_MC_REPAIRS tile) key
      (fun h => { h with inflight := h.inflight + 1 }))
    {b : List Byte} (hb : b = sub (xData h x) (c.a * chunkBytes d h x) ((c.a + 1) * chunkBytes d h x)) : onRepair d tile c =
      postMsg e p.conn { org := .heat key ((i + 1) * 2 ^ 40 + d.h.nextLocal), op := 0x11, inl := some b, window := p.win,
                         rkey := p.rkey, offset := c.a % 8 * chunkSize e, total := b.length } := by
  subst he hb
  simp only [onRepair, hheat, hx, hpeer, Nat.not_le.2 hsent, Nat.not_lt.2 hnew, decide_false, Bool.or_self,
    Bool.false_eq_true, if_false]

end

/-- Settles O37, by the equations above, one for each case of a message. The slot of a multicast chunk as its
number modulo 8 is the model's reading of R295, which reserves slots 0 to 7 and does not say which chunk takes which. -/
theorem controlMessagesActOnTheirHeat : Obligations.ControlMessagesActOnTheirHeat := by
  rintro s k kind d tile c key h hopen rfl hready hheat
  refine ⟨fun hkind haborted hlaps hhash hop i x hsend => ?credit, fun x hx hkind haborted hhash hmc hlap => ?multicast,
    fun hkind haborted hhash hop => ?mismatch, fun hkind hfinished haborted hup => ?abort, fun hkind hsender => ?finishUp,
    fun hkind hdecision hfast hstatus hup hfinished => ?release, fun st cs hkind hkey hdecision => ?query,
    fun x hkind hx htaken => ?markTaken, fun x e hkind hx hdone hchunk he => ?markOpen,
    fun i x p hkind hx hpeer hsent hnew b e hb he msg hmsg => ?repair⟩
  case credit =>
    rw [exec_heatCreditReceived hopen hready hkind, onCredit_unicast hheat haborted hhash hlaps hop hsend]
  case multicast =>
    rw [exec_heatCreditReceived hopen hready hkind, onCredit_multicast hheat haborted hhash hx hmc hlap]
  case mismatch => rw [exec_heatCreditReceived hopen hready hkind, onCredit_other_hash hheat haborted hhash hop]
  case abort => rw [exec_heatAbortReceived hopen hready hkind, onHeatAbort_undecided hheat hfinished haborted hup]
  case finishUp => rw [exec_finishUpReceived hopen hready hkind, onFinishUp_first hheat hsender]
  case release =>
    rw [exec_releaseReceived hopen hready hkind, onRelease_ok hheat hdecision hfast hstatus hup hfinished]
  case query => rw [exec_queryReceived hopen hready hkind, onQuery_decided hheat hkey hdecision]
  case markTaken =>
    rw [exec_markReceived hopen hready hkind, onMark_input hheat hx rfl, if_pos (Bool.or_eq_true_iff.2 htaken)]
  case markOpen =>
    rw [exec_markReceived hopen hready hkind, onMark_input hheat hx he, hdone, hchunk, Bool.or_self, if_neg Bool.false_ne_true]
    exact ⟨fun hlanded => by rw [if_pos hlanded], fun hmissing => by rw [if_neg (Nat.not_le.2 hmissing)]⟩
  case repair =>
    rw [exec_repairReceived hopen hready hkind, onRepair_in_slot hheat hx hpeer hsent hnew he hb, hmsg]

/-! ## Timers of a Heat (R298 to R304) -/

theorem exec_abortRepeatTimer (gn ep seq : Nat) (s : State) :
    exec (.abortRepeatTimer gn ep seq) s = .next (s.follow (abortRepeat s.dev (heatKey gn ep seq))) := rfl

theorem exec_queryRepeatTimer (gn ep seq : Nat) (s : State) :
    exec (.queryRepeatTimer gn ep seq) s = .next (s.follow (queryRepeat s.dev (heatKey gn ep seq))) := rfl

theorem exec_decisionHoldExpiry (gn ep seq : Nat) (s : State) :
    exec (.decisionHoldExpiry gn ep seq) s = .next (s.follow (decisionHoldEnd s.dev (heatKey gn ep seq))) := rfl

theorem exec_mcRepairTimer (gn ep seq slot : Nat) (s : State) :
    exec (.mcRepairTimer gn ep seq slot) s = .next (s.follow (mcRepairTimer s.dev (heatKey gn ep seq) slot)) := rfl

theorem exec_lapWindowExpiry (gn ep seq lap : Nat) (s : State) :
    exec (.lapWindowExpiry gn ep seq lap) s = .next (s.follow (lapWindowEnd s.dev (heatKey gn ep seq) lap)) := rfl

section
variable {d : Ix9} {key : Nat} {h : Heat} (hheat : heatAt d key = some h)
include hheat

theorem abortRepeat_sends {a : Abort} (haborted : h.aborted = some a) (hleft : h.repeats ≠ 0) : abortRepeat d key =
    heatForget (sendAborts (updHeat d key (fun h => { h with repeats := h.repeats - 1 })) h a h.repeatTo) key := by
  simp only [abortRepeat, hheat, haborted, hleft, if_false]

/-- A QUERY with repeats left goes to Bib 0 and to the tree-0 parent. -/
theorem queryRepeat_sends {n p : Nat} (hleft : h.queries = some (n + 1)) (hparent : h.tree0.parent h.ep.bib = some p) :
    queryRepeat d key = (insertNat [0] p).foldl (fun d b => ctrlTo d h.ep b { kind := 5, seq := h.seq, lap := 0xFFFF })
      (updHeat d key (fun h => { h with queries := some n })) := by
  simp only [queryRepeat, hheat, hleft, hparent, List.foldl_cons, List.foldl_nil]

theorem queryRepeat_ends (hspent : h.queries = some 0) : queryRepeat d key = heatComplete (updHeat d key (fun h =>
    { h with aborted := some ⟨ST_HEAT_ABORTED, 0x09, h.ep.bib, 0xFFFF, 0, none, false⟩ })) key ST_HEAT_ABORTED 0x09 := by
  simp only [queryRepeat, hheat, hspent]

theorem decisionHoldEnd_drops (hfinished : h.finished = true) : decisionHoldEnd d key =
    heatForget (updHeat d key (fun h => { h with decision := none, repeats := 0 })) key := by
  simp only [decisionHoldEnd, hheat, hfinished, if_true]

/-- While a child has not freed a slot, the MARK of its newest chunk is sent again. -/
theorem mcRepairTimer_marks {slot i mcg : Nat} {x : Xfer} (hx : h.xfers.find? (fun x => x.mc && x.send) = some x)
    (hmcg : h.ep.dataMc = some mcg) (hn : x.n ≠ 0) (haborted : h.aborted = none)
    (hchild : ∃ c ∈ h.rooted.children h.ep.bib, (c, slot) ∉ h.mcFreed)
    (hlast : ((List.range x.n).filter (fun i => i % 8 == slot)).getLast? = some i) : mcRepairTimer d key slot =
      sendMark d h mcg x.lap i (min (chunkBytes d h x) (xBytes h x - i * chunkBytes d h x)) := by
  have hheld : (h.rooted.children h.ep.bib).all (fun c => h.mcFreed.contains (c, slot)) = false := by simpa using hchild
  simp only [mcRepairTimer, hheat, hx, hmcg, hn, haborted, hheld, hlast, decide_false, Option.isSome_none, Bool.or_self,
    Bool.false_eq_true, if_false]

section
variable (hfinished : h.finished = false) (haborted : h.aborted = none)
include hfinished haborted

theorem lapWindowEnd_finish (hwindow : has h.windowEnd 0xFFFF = true) (hup : h.sentUp = true)
    (hdecision : h.decision = none) : lapWindowEnd d key 0xFFFF = startQuery d key h := by
  simp only [lapWindowEnd, hheat, hfinished, haborted, hwindow, hup, hdecision, Option.isSome_none, Option.isNone_none,
    Bool.not_true, Bool.or_self, Bool.and_self, Bool.false_eq_true, if_false, if_true]

theorem lapWindowEnd_finishUp {b : Nat} (hwindow : has h.windowEnd 0xFFFE = true) (hup : h.sentUp = false)
    (hvisible : h.visible = true)
    (hmissing : (h.tree0.children h.ep.bib).find? (fun b => !h.ups.contains b) = some b) :
    lapWindowEnd d key 0xFFFE = heatOrigin d key ST_HEAT_ABORTED 0x01 b := by
  have hlap : (0xFFFE : Nat) ≠ 0xFFFF := by decide
  simp only [lapWindowEnd, hheat, hfinished, haborted, hwindow, hup, hvisible, hmissing, hlap, Option.isSome_none,
    Bool.not_true, Bool.or_self, Bool.false_eq_true, if_false, if_true]

theorem lapWindowEnd_input {lap : Nat} {x : Xfer} (hwindow : has h.windowEnd lap = true) (hlap : lap < 0xFFFE)
    (hmissing : h.xfers.find? (fun x => !x.send && !x.done && x.lap == lap) = some x) :
    lapWindowEnd d key lap = heatOrigin d key ST_HEAT_ABORTED 0x01 x.peer := by
  have hdecision : lap ≠ 0xFFFF := by omega
  have hfinish : lap ≠ 0xFFFE := by omega
  simp only [lapWindowEnd, hheat, hfinished, haborted, hwindow, hdecision, hfinish, hmissing, Option.isSome_none,
    Bool.not_true, Bool.or_self, Bool.false_eq_true, if_false]

end

end

/-- Settles O38, by the equations above, one for each timer and each Lap it is about. The Lap 0xFFFF that a QUERY carries
is the model's reading of R302, which names no Lap for it. -/
theorem heatTimersRepeatAndEnd : Obligations.HeatTimersRepeatAndEnd := by
  rintro s gn ep seq _ h rfl hheat
  refine ⟨fun a haborted hleft => ?abort, fun n p hleft hparent msg hmsg => ?query, fun hspent => ?queryEnd,
    fun hfinished => ?hold, fun slot i x mcg hx hmcg hn haborted hchild hlast => ?mark,
    fun hfinished haborted hwindow hup hdecision => ?decision,
    fun b hfinished haborted hwindow hup hvisible hmissing => ?finishUp,
    fun lap x hfinished haborted hwindow hlap hmissing => ?input⟩
  case abort => rw [exec_abortRepeatTimer, abortRepeat_sends hheat haborted hleft]
  case query => rw [exec_queryRepeatTimer, queryRepeat_sends hheat hleft hparent, hmsg]
  case queryEnd => rw [exec_queryRepeatTimer, queryRepeat_ends hheat hspent]
  case hold => rw [exec_decisionHoldExpiry, decisionHoldEnd_drops hheat hfinished]
  case mark => rw [exec_mcRepairTimer, mcRepairTimer_marks hheat hx hmcg hn haborted hchild hlast]
  case decision => rw [exec_lapWindowExpiry, lapWindowEnd_finish hheat hfinished haborted hwindow hup hdecision]
  case finishUp =>
    rw [exec_lapWindowExpiry, lapWindowEnd_finishUp hheat hfinished haborted hwindow hup hvisible hmissing]
  case input => rw [exec_lapWindowExpiry, lapWindowEnd_input hheat hfinished haborted hwindow hlap hmissing]

end Sys2Proof.Machine
end

section
/-!
SUPPORT and proofs: the queue of commands, the step and landing memory (R366, R367; log entries 1 and 4). Every command runs
in one of three ways, `State.plain`, `State.run` or `State.act`; what holds of each of the three holds of every command.
-/

namespace Sys2Proof.Machine

/-! ## The three ways a command runs -/

/-- The ways a meaning runs, the same one on every state. -/
inductive RunsAs : (State → Result) → Prop
  | plain (f : Ix9 → Ix9) : RunsAs (fun s => s.plain f)
  | run (f : Ix9 → Ix9) : RunsAs (fun s => s.run f)
  | act (f : List Host.Cell → Ix9 → Ix9) : RunsAs (fun s => s.act f)

/-- Most commands are followed by `react`; the first two groups are those that are not. -/
theorem runsAs_exec (i : Instr) : RunsAs (exec i) := by
  unfold exec
  cases i with
  | cqDoorbellWrite | fqDoorbellWrite | busyHoldEnd | resetBackoffEnd | ackDelayExpiry | pacerPeriod | gateEntryBegin
  | gateEnable | gateDisable | swapReq | gateSwap | ptpTimeStep | linkTrainingDone | initTimer | creditReceived
  | creditTimer | lackReceived | lackTimer | linkPacketReceived | pairCountTimeout | fabEpochCommit | fabEpochFlip
  | flipTime | fabEpochForceExpiry | fabEpochSettleExpiry | fabEpochCurWrite | pfcFrameReceived | pfcPauseExpiry
  | pfcRepeatTimer | preemptVerifyTimer | laneShedWindow | ethTsPop | requestLinePulse | dreqEdge | ppsInEdge
  | timeSecondBoundary | tagFailCountExpiry | drbgReseed | sbHelp | sbVer | sbRd | sbMap | sbErr | sbCnt | sbPhoto
  | sbLog | sbCon | sbBaud | sbUnlock | sbLock | unlockExpiry | unlockLockoutEnd | hostHb | photoArm | photoTime
  | photoLateCopy | behavLevelNextWrite | behavLevelStoreDone | clockRestored | capTick | thermalStep | pwrCapMctpWrite
  | accCfgDataAccess | inboundRequestDiscard | ackHoldExpiry | spdmGetVersion | spdmGetCapabilities
  | spdmNegotiateAlgorithms | spdmGetDigests | spdmGetCertificate | spdmChallenge | spdmGetMeasurements | rcCounterRead
  | regulatorStatus | ethLinkUp | dynamicAddressAssignment => exact .plain _
  | eqDoorbellWrite | modTimeExpiry | xlateLock | portPick | initReceived | lnakReceived | linkWordTimeout
  | pcsBlockLockLoss | linkCfgNativeWrite | ethFrameReceived | ethGrpModeWrite | fecWindowEnd | laneLockLoss
  | ethSpareReq | spareAdaptDone | lsRetrainDone | patrolScrubTick | rowReq | rowSpareCopyDone | postPackageRepairDone
  | pinReq | pinThreshWindow | pinSteerCopyDone | sealCommand | mboxGo | mboxRespond | mboxRelease | mboxClaim
  | mboxTimeout | version | logRead | fwCommit | jtagInstructionLoad => exact .run _
  | _ => exact .act _

section
variable {meaning : State → Result} (h : RunsAs meaning)
include h

theorem RunsAs.answers (s : State) : ∃ t, meaning s = .next t ∧ t.pending = s.pending := by
  cases h with
  | plain f => exact ⟨_, rfl, only_pending s _⟩
  | run f => exact ⟨_, rfl, store_pending s _⟩
  | act f => exact ⟨_, rfl, follow_pending s _⟩

theorem RunsAs.keeps_wf {s t : State} (hwf : Memory.wf s.cells) (hnext : meaning s = .next t) : Memory.wf t.cells := by
  cases h with
  | plain f => cases hnext; exact hwf
  | run f => cases hnext; exact store_wf s _ hwf
  | act f => cases hnext; exact follow_wf s _ hwf

/-- What waits behind a command changes nothing of its effect. -/
theorem RunsAs.queue_irrelevant {s t : State} (hnext : meaning s = .next t) (l : List Instr) :
    meaning { s with pending := l } = .next { t with pending := l } := by
  cases h with
  | plain f => cases hnext; rfl
  | run f => cases hnext; rfl
  | act f => cases hnext; rfl

end

/-! ## The step -/

theorem step_of_empty {s : State} (h : s.pending = []) : step s = .next s.idle := by simp only [step, h]

theorem step_of_front {c : Instr} {rest : List Instr} {s : State} (h : s.pending = c :: rest) :
    step s = exec c { s with pending := rest } := by simp only [step, h]

/-- Settles O1. -/
theorem stepRunsTheFrontCommand : Obligations.StepRunsTheFrontCommand := fun _ _ _ h => step_of_front h

/-- Settles O2. That a step without a command advances time by one nanosecond is the model's choice (log entry 4). -/
theorem stepWithEmptyQueueOnlyMovesTime : Obligations.StepWithEmptyQueueOnlyMovesTime := fun _ h => step_of_empty h

/-- Settles O4, by the three ways a command runs. -/
theorem everyCommandAnswersANextState : Obligations.EveryCommandAnswersANextState :=
  fun i s => (runsAs_exec i).answers s

/-- Settles O3, by induction on the commands: the front one answers what it answers with nothing behind it, and the rest run
from there. That a queue holds the commands in their order is the model's form (log entry 1). -/
theorem queueIsServedFirstInFirstOut : Obligations.QueueIsServedFirstInFirstOut := by
  intro cs
  induction cs with
  | nil => exact fun s => ⟨s, rfl, rfl, rfl⟩
  | cons c cs ih =>
    intro s
    obtain ⟨u, hexec, hqueue⟩ := (runsAs_exec c).answers s
    obtain ⟨t, hran, hsteps, hrest⟩ := ih u
    refine ⟨t, ⟨u, hexec, hran⟩, ⟨{ u with pending := cs ++ u.pending }, ?_, hsteps⟩, hrest.trans hqueue⟩
    rw [hqueue, step_of_front (List.cons_append ..)]
    exact (runsAs_exec c).queue_irrelevant hexec _

/-! ## Landing memory -/

/-- Settles O5: each way a command runs writes landing memory through `State.store` or not at all. -/
theorem landingMemoryKeepsItsForm : Obligations.LandingMemoryKeepsItsForm := by
  intro s t hwf hstep
  cases hpending : s.pending with
  | nil =>
    rw [step_of_empty hpending] at hstep
    cases hstep
    exact hwf
  | cons c rest =>
    rw [step_of_front hpending] at hstep
    exact (runsAs_exec c).keeps_wf (s := { s with pending := rest }) hwf hstep

/-- Settles O6. That PTP time is 0 at reset is the model's choice (log entry 4). -/
theorem resetLandingMemoryIsInForm : Obligations.ResetLandingMemoryIsInForm := ⟨reset_wf, rfl, rfl, rfl, rfl, rfl⟩

theorem storeAll_append_singleton (m w : List Host.Cell) (c : Host.Cell) :
    storeAll m (w ++ [c]) = cellPut (storeAll m w) c.1 c.2 := by simp [storeAll]

/-- After writes, a byte is the last one written to its address, and without one what it was. -/
theorem cellAt_storeAll {m : List Host.Cell} (hm : Memory.wf m) (w : List Host.Cell) (a : Nat) :
    cellAt (storeAll m w) a = ((w.reverse.find? (fun c => c.1 == a)).map (·.2)).getD (cellAt m a) := by
  induction w using List.reverseRecOn with
  | nil => rfl
  | append_singleton w c ih =>
    rw [storeAll_append_singleton, List.reverse_append, List.reverse_singleton, List.singleton_append]
    by_cases h : c.1 = a
    · rw [List.find?_cons_of_pos (by simpa using h), ← h]
      exact cellAt_put_eq _ _ _ (storeAll_wf _ _ hm)
    · rw [List.find?_cons_of_neg (by simpa using h), ← ih]
      exact cellAt_put_ne _ _ _ _ (Ne.symm h)

/-- Taking entries out by their address leaves the others as they are. -/
theorem cellAt_filter (m : List Host.Cell) (p : Nat → Bool) (a : Nat) :
    cellAt (m.filter (fun c => p c.1)) a = if p a then cellAt m a else 0 := by
  induction m with
  | nil => simp [cellAt]
  | cons c r ih =>
    obtain ⟨i, b⟩ := c
    by_cases hia : i = a
    · subst hia
      cases hp : p i <;> simp_all [cellAt]
    · cases hp : p i <;> simp [cellAt, hp, hia, ih]

/-- Settles O7: `State.store` takes out what was zeroed, then stores what was written. -/
theorem storedBytesAreTheLastOnesWritten : Obligations.StoredBytesAreTheLastOnesWritten := by
  intro s d a hwf
  have hstore : cellAt (s.store d).cells a = _ := cellAt_storeAll (filter_wf _ _ hwf) d.wr a
  rw [hstore, cellAt_filter s.cells (fun x => !zapped d.zap x) a]
  cases d.wr.reverse.find? (fun c => c.1 == a) with
  | some c => rfl
  | none =>
    show (if !zapped d.zap a then cellAt s.cells a else 0) = if zapped d.zap a then 0 else cellAt s.cells a
    cases zapped d.zap a <;> rfl

end Sys2Proof.Machine
end

section
/-!
SUPPORT and proofs, family 12_marathon_engine: sequence objects and attention requests (R338 to R344), the passes of a request
and the opening of a scatter Heat (R337, R350, R353 to R355). What each command runs and one equation for each case of an
operation come first in each part, then its statement.
-/

namespace Sys2Proof.Machine

/-! ## Sequence objects (R338 to R343) -/

theorem exec_opAttBlockTable (k slot : Nat) (r : ReadData) (s : State) :
    exec (.opAttBlockTable k slot r) s = .next (s.follow (opBlockTable s.cells s.dev k slot r)) := rfl

theorem exec_opAttDecode (k slot : Nat) (s : State) :
    exec (.opAttDecode k slot) s = .next (s.follow (opAtt s.cells s.dev 0x30 k slot)) := rfl

theorem exec_opAttPrefill (k slot : Nat) (s : State) :
    exec (.opAttPrefill k slot) s = .next (s.follow (opAtt s.cells s.dev 0x31 k slot)) := rfl

section
variable {m : List Host.Cell} {d : Ix9} {k slot : Nat} {q : Sq} {e : Entry} {r : ReadData}
  (h : startedEntry d 0x32 k slot = some (q, e))
include h

section
variable {b : List Byte} {x : SeqObj} (hread : readSegs m d ((e.bufs.head?.map (·.segs)).getD []) r = .ok b)
  (hx : x = seqOf q b) (hlo : 1 ≤ x.cap) (hhi : x.cap ≤ 16384)
  (hcheck : seqCheck d q (look d.h.seqs (e.object % 65536)) x = none)
include hread hx hlo hhi hcheck

theorem opBlockTable_creates (haction : e.opflags % 4 = 0) (hnew : look d.h.seqs (e.object % 65536) = none)
    (hquota : quotaAllows d q.func rSEQ 1 = true) : opBlockTable m d k slot r =
      endEntry { d with h := { d.h with seqs := put d.h.seqs (e.object % 65536) { x with dying := none } } } k slot ST_OK 0 64 := by
  subst hx
  have hcap : ¬ ((seqOf q b).cap = 0 ∨ 16384 < (seqOf q b).cap) := by omega
  rw [hnew] at hcheck
  simp [opBlockTable, h, haction, hnew, hread, hcap, hcheck, hquota]

/-- A modify keeps the mark of a destroy that waits. -/
theorem opBlockTable_modifies {o : SeqObj} (haction : e.opflags % 4 = 1) (hold : look d.h.seqs (e.object % 65536) = some o)
    (howner : o.owner = q.func) (htile : o.tile = q.tile) : opBlockTable m d k slot r =
      endEntry { d with h := { d.h with seqs := put d.h.seqs (e.object % 65536) { x with dying := o.dying } } } k slot ST_OK 0 64 := by
  subst hx
  have hcap : ¬ ((seqOf q b).cap = 0 ∨ 16384 < (seqOf q b).cap) := by omega
  rw [hold] at hcheck
  simp [opBlockTable, h, haction, hold, howner, htile, hread, hcap, hcheck]

end

theorem opBlockTable_destroys {o : SeqObj} (haction : e.opflags % 4 = 2) (hold : look d.h.seqs (e.object % 65536) = some o)
    (howner : o.owner = q.func) (htile : o.tile = q.tile) {c : Ix9}
    (hc : c = updEntry d k slot (fun e => { e with phase := 1 })) : opBlockTable m d k slot r =
      destroyWaits { c with h := { c.h with seqs := upd d.h.seqs (e.object % 65536) (fun o => { o with dying := some (k, slot) }) } } := by
  subst hc
  simp [opBlockTable, h, haction, hold, howner, htile]

end

/-! ## Attention requests (R344, R354, R356, R359) -/

section
variable {m : List Host.Cell} {d b : Ix9} {op k slot : Nat} {q : Sq} {e : Entry} {o : SeqObj} {h : Heat}
  (hentry : startedEntry d op k slot = some (q, e)) (hobject : look d.h.seqs (e.object % 65536) = some o)
  (howner : o.owner = q.func) (htile : o.tile = q.tile) (hready : maraReady d = true)
  (hb : b = updEntry d k slot (fun e => { e with phase := 1 })) (hh : h = Heat.ofAtt o (attOf e o.tokens) k e)
include hentry hobject howner htile hready hb hh

/-- Outside a group the request gets the next number of the local ones. -/
theorem opAtt_local (halone : attGrouped e o = false) : opAtt m d op k slot = heatsRun m { b with
    h := { b.h with nextLocal := b.h.nextLocal + 1, heats := put b.h.heats (localBase + b.h.nextLocal) h } } := by
  subst hb hh
  simp only [opAtt, hentry, hobject, howner, htile, hready, halone, bne_self_eq_false, Bool.or_self, Bool.not_true,
    Bool.not_false, Bool.false_eq_true, if_false, if_true]

section
variable {gn seq next : Nat} {g : Group} (hgrouped : attGrouped e o = true) (hgn : gn = o.group.getD 0)
  (hgroup : look b.h.groups gn = some g) (hseq : startSeq g e = (seq, next))
include hgrouped hgn hgroup hseq

/-- In scatter mode the request enters its group as a Heat. -/
theorem opAtt_scatter (hop : op = 0x30) : opAtt m d op k slot = heatsRun m (replayEarly m (enterHeat
    (updGroup b gn (fun g => { g with nextSeq := next })) (heatKey gn g.ep.epoch seq)
    { h with group := gn, ep := g.ep, seq := seq, root := g.ep.bib }) gn) := by
  subst hb hh hgn hop
  have hring : (0x30 : Nat) ≠ 0x31 := by decide
  simp only [opAtt, hentry, hobject, howner, htile, hready, hgrouped, hgroup, hseq, hring, bne_self_eq_false, Bool.or_self,
    Bool.not_true, Bool.false_eq_true, if_false]

/-- In ring mode it does so with the stream of its own shard. -/
theorem opAtt_ring (hop : op = 0x31) {c : Ix9} (hc : c = updGroup b gn (fun g => { g with nextSeq := next })) {x : List Byte}
    (hstream : batonStream m c o (attOf e o.tokens) g.ep.bib = .inr x) : opAtt m d op k slot =
      heatsRun m (replayEarly m (enterHeat c (heatKey gn g.ep.epoch seq)
        { h with group := gn, ep := g.ep, seq := seq, root := g.ep.bib, res := x }) gn) := by
  subst hb hh hgn hop hc
  simp only [opAtt, hentry, hobject, howner, htile, hready, hgrouped, hgroup, hseq, hstream, bne_self_eq_false, Bool.or_self,
    Bool.not_true, Bool.false_eq_true, if_false, if_true]

end

end

/-- Settles O39, by the equations above. Attention entries of both opcodes run one operation, each on the entries of its own
opcode. -/
theorem attentionEntriesEnterTheEngine : Obligations.AttentionEntriesEnterTheEngine := by
  rintro s k slot q e op hentry
  refine ⟨?stored, ?destroyed, ?requests⟩
  case stored =>
    rintro r b x _ rfl rfl hread hx hlo hhi hcheck
    refine ⟨fun haction hnew hquota => ?create, fun o haction hold howner htile => ?modify⟩
    case create =>
      rw [exec_opAttBlockTable, opBlockTable_creates hentry hread hx hlo hhi hcheck haction hnew hquota]
    case modify =>
      rw [exec_opAttBlockTable, opBlockTable_modifies hentry hread hx hlo hhi hcheck haction hold howner htile]
  case destroyed =>
    rintro r o d rfl haction hold howner htile hd
    rw [exec_opAttBlockTable, opBlockTable_destroys hentry haction hold howner htile hd]
  case requests =>
    rintro o _ h d hobject howner htile hready rfl hd hh
    refine ⟨?alone, ?scatter, ?ring⟩
    case alone =>
      rintro halone _ rfl
      have hrun := opAtt_local (m := s.cells) hentry hobject howner htile hready hd hh halone
      refine ⟨?_, ?_⟩
      · rintro rfl
        rw [exec_opAttDecode, hrun]
      · rintro rfl
        rw [exec_opAttPrefill, hrun]
    case scatter =>
      rintro gn g seq next hgrouped hgn hgroup hseq rfl
      rw [exec_opAttDecode, opAtt_scatter hentry hobject howner htile hready hd hh hgrouped hgn hgroup hseq rfl]
    case ring =>
      rintro gn g seq next c x hgrouped hgn hgroup hseq rfl hc hstream
      rw [exec_opAttPrefill, opAtt_ring hentry hobject howner htile hready hd hh hgrouped hgn hgroup hseq rfl hc hstream]

/-! ## The passes of a request (R337, R350) -/

theorem exec_maraIslandDone (key island : Nat) (s : State) :
    exec (.maraIslandDone key island) s = .next (s.follow (maraIslandDone s.cells s.dev key island)) := rfl

/-- The block with an island's blocks and skipped rows counted (R360). -/
def passCounted (d : Ix9) (island : Nat) (p : Pass) : Ix9 :=
  let c := if p.blocks = 0 then d else count d Fld.MARA_BLOCKS island p.blocks
  if p.skipped = 0 then c else count c Fld.MARA_SKIPPED island p.skipped

@[simp] theorem passCounted_code (d : Ix9) (island : Nat) (p : Pass) : (passCounted d island p).code = d.code := by
  unfold passCounted
  split <;> split <;> simp

/-- A local request whose pass on an island is due: nothing has ended it, its queries are at hand, it reads its own shard, and
the island has not done its part. -/
structure PassDue (d : Ix9) (key island : Nat) (h : Heat) (a : Att) (o : SeqObj) (qb : List Byte) (origin : Nat) : Prop where
  heat : heatAt d key = some h
  att : h.att = some a
  object : look d.h.seqs a.seq = some o
  queries : attQueries h = some qb
  shard : shardAt h a = some (origin, none)
  alone : localBase ≤ key
  unfinished : h.finished = false
  unaborted : h.aborted = none
  unwritten : h.written = false
  undone : a.done.contains island = false
  fitted : island < tilesOf d.code
  first : a.shards = []

/-- An island's records are kept; after the last island they are merged and written. -/
theorem maraIslandDone_passes {m : List Host.Cell} {d : Ix9} {key island origin : Nat} {h : Heat} {a : Att} {o : SeqObj}
    {qb : List Byte} {p : Pass} (hdue : PassDue d key island h a o qb origin) (hfresh : look a.islands island = none)
    (hpass : islandPass o a a.tokens o.first (shardRow m d o a.layer) (queryRows o a qb) (islandRows a.tokens island)
      { recs := List.replicate (attRows o a) (freshRow o.dim) } = .inr p)
    {isl : Tbl (List Nat)} (hisl : isl = put a.islands island (p.recs.flatMap id)) :
    maraIslandDone m d key island =
      if (List.range (tilesOf d.code)).all (island :: a.done).contains then
        attsRun m (attWrite (updHeat (passCounted d island p) key
          (fun h => { h with att := some { a with islands := isl, done := [], shards := a.shards ++ [origin] } })) key
          (mergeIslands ((List.range (tilesOf d.code)).map (fun i => chunksOf (lseD o.dim + 2) (lookD isl i)))))
      else attsRun m (updHeat (passCounted d island p) key
        (fun h => { h with att := some { a with islands := isl, done := island :: a.done } })) := by
  have hkey : decide (key < localBase) = false := decide_eq_false (Nat.not_lt.2 hdue.alone)
  have hcounted : (if p.skipped = 0 then if p.blocks = 0 then d else count d Fld.MARA_BLOCKS island p.blocks
      else count (if p.blocks = 0 then d else count d Fld.MARA_BLOCKS island p.blocks) Fld.MARA_SKIPPED island p.skipped) =
      passCounted d island p := rfl
  simp only [maraIslandDone, hdue.heat, hdue.att, hdue.object, hdue.queries, hdue.shard, hdue.unfinished, hdue.unaborted,
    hdue.unwritten, hdue.undone, hdue.first, hkey, hfresh, hpass, hcounted, passCounted_code, ← hisl, Nat.not_le.2 hdue.fitted,
    List.length_nil, Option.isSome_none, Bool.and_false, Bool.or_self, Bool.false_eq_true, decide_false, if_false]
  cases hall : (List.range (tilesOf d.code)).all (island :: a.done).contains with
  | false => simp
  | true => simp

/-! ## The opening of a scatter Heat (R353, R355) -/

theorem exec_scatterHeaderReceived (gn seq peer : Nat) (b : List Byte) (s : State) :
    exec (.scatterHeaderReceived gn seq peer b) s = .next (s.follow (scatterOpen s.cells s.dev gn seq peer b)) := rfl

/-- A header that names a sequence object of the group, in its shape, opens the Heat of that object. -/
theorem scatterOpen_opens {m : List Host.Cell} {d : Ix9} {gn seq peer sn len : Nat} {b : List Byte} {g : Group} {o : SeqObj}
    {a : Att} {h : Heat} (hgroup : look d.h.groups gn = some g) (hnew : has d.h.heats (heatKey gn g.ep.epoch seq) = false)
    (hstart : notStarted g { kind := 0, epoch := g.ep.epoch, seq := seq } = true) (hpresent : present d uMARATHON = true)
    (hobject : d.h.seqs.find? (fun (_, x) => x.group == some gn && x.tag == fieldLE b 0 4) = some (sn, o))
    (hdim : o.dim = fieldLE b 5 1) (hheads : o.heads = fieldLE b 6 1 + 1) (hlayer : fieldLE b 4 1 < o.layers)
    (hcontext : fieldLE b 12 3 + (fieldLE b 8 2 % 4096 + 1) ≤ 16777216) (ha : a = Att.ofHeader b sn o.tokens)
    (hlen : len = 32 + attRows o a * lseD o.dim * blockSize a.qFmt)
    (hh : h = (Heat.ofHeader g gn seq b (Att.ofHeader b)).serves o a) :
    scatterOpen m d gn seq peer b = heatsRun m (replayEarly m
      (updHeat (enterHeat { d with h := { d.h with groups := upd d.h.groups gn (fun g => { g with nextSeq := (seq + 1) % 65536 }) } }
          (heatKey gn g.ep.epoch seq) h) (heatKey gn g.ep.epoch seq)
        (fun h => { h with xfers := h.xfers.map (fun x => if x.space != .query then x
          else if !x.send && x.peer == peer then { x with hi := len, n := 1, chunks := [(0, b)] } else { x with hi := len }) })) gn) := by
  subst ha hlen hh
  have hlayers : ¬ o.layers ≤ (Att.ofHeader b).layer := Nat.not_le.2 hlayer
  have hpositions : ¬ 16777216 < (Att.ofHeader b).qPos + (Att.ofHeader b).q := Nat.not_lt.2 hcontext
  simp only [scatterOpen, hgroup, hnew, hstart, hpresent, hobject, ← hdim, ← hheads, hlayers, hpositions, bne_self_eq_false,
    Bool.not_true, Bool.or_self, Bool.false_eq_true, decide_false, if_false]

/-- Settles O40, by the equations above. -/
theorem attentionIslandsAndScatterHolders : Obligations.AttentionIslandsAndScatterHolders := by
  refine ⟨?islands, ?holders⟩
  case islands =>
    intro s key island h a o qb origin p d hheat hatt hobject hqueries hshard halone hunfinished hunaborted hunwritten hundone
      hfitted hfirst hfresh hpass hd isl hisl
    have hrun := maraIslandDone_passes ⟨hheat, hatt, hobject, hqueries, hshard, halone, hunfinished, hunaborted, hunwritten,
      hundone, hfitted, hfirst⟩ hfresh hpass hisl
    obtain rfl : d = passCounted s.dev island p := hd _ rfl
    refine ⟨fun hmore => ?kept, fun hlast => ?written⟩
    case kept =>
      have hall : (List.range (tilesOf s.dev.code)).all (island :: a.done).contains = false := by simpa using hmore
      rw [exec_maraIslandDone, hrun, hall, if_neg Bool.false_ne_true]
    case written =>
      have hall : (List.range (tilesOf s.dev.code)).all (island :: a.done).contains = true := by simpa using hlast
      rw [exec_maraIslandDone, hrun, hall, if_pos rfl]
  case holders =>
    intro s gn seq peer b g sn o hgroup hnew hstart hpresent hobject hdim hheads hlayer hcontext a h len ha hlen hh
    rw [exec_scatterHeaderReceived, scatterOpen_opens hgroup hnew hstart hpresent hobject hdim hheads hlayer hcontext ha hlen hh]

end Sys2Proof.Machine
end

section
/-!
SUPPORT and proofs, family 13_landing_memory: the patrol scrub, row sparing, pin steering and zeroing (R366, R373 to R375, R379).
What each command runs and one equation for each case of an operation come first in each part, then the statement.
-/

namespace Sys2Proof.Machine

@[simp] theorem updLm_lm (d : Ix9) (f : Lm → Lm) : (updLm d f).lm = f d.lm := rfl

@[simp] theorem lmStacks_updLm (d : Ix9) (f : Lm → Lm) : lmStacks (updLm d f) = lmStacks d := rfl

/-! ## The patrol scrub (R373) -/

theorem exec_patrolScrubTick (ecc : Ecc) (s : State) :
    exec (.patrolScrubTick ecc) s = .next (s.store (scrubTick s.dev ecc)) := rfl

section
variable {d : Ix9} {n : Nat} (hn : n = unitCount d * (unitBytes / 64)) (ecc : Ecc)
include hn

theorem scrubTick_moves (hmore : d.lm.scrub + 1 < n) : scrubTick d ecc =
    updLm (eccRead d true (d.lm.scrub * 64) ecc) (fun l => { l with scrub := d.lm.scrub + 1 }) := by
  have hsome : n ≠ 0 := Nat.ne_of_gt (Nat.lt_of_le_of_lt (Nat.zero_le _) hmore)
  simp only [scrubTick, ← hn, hsome, hmore, if_false, if_true]

/-- After the last codeword every stack counts a pass, and the scrub starts again. -/
theorem scrubTick_ends (hsome : n ≠ 0) (hlast : d.lm.scrub + 1 = n) : scrubTick d ecc =
    (List.range (lmStacks (eccRead d true (d.lm.scrub * 64) ecc))).foldl (fun d k => count d Fld.LM_SCRUB_PASSES k)
      (updLm (eccRead d true (d.lm.scrub * 64) ecc) (fun l => { l with scrub := 0, rowErr := [] })) := by
  simp only [scrubTick, ← hn, hsome, hlast, Nat.lt_irrefl, lmStacks_updLm, if_false]

end

/-! ## Row sparing (R374) -/

theorem exec_rowReq (stack : Nat) (s : State) : exec (.rowReq stack) s =
    .next (s.store (if wrote s.dev 0 Fld.LM_REPAIR_CTRL_ROW_REQ stack then rowReq s.dev stack else s.dev)) := rfl

theorem exec_rowSpareCopyDone (stack ch bank row : Nat) (s : State) :
    exec (.rowSpareCopyDone stack ch bank row) s = .next (s.store (rowCopied s.dev stack ch bank row)) := rfl

theorem exec_postPackageRepairDone (stack ch : Nat) (row : Option (Nat × Nat)) (s : State) :
    exec (.postPackageRepairDone stack ch row) s = .next (s.store (repairDone s.dev stack ch row)) := rfl

section
variable {d : Ix9} {stack ch bank row : Nat}

/-- A row with a spare left in its bank begins the copy, step 2 of R374. -/
theorem spareRow_begins (hidle : has d.lm.sparing (rowKey stack ch bank row) = false)
    (hnew : rowKey stack ch bank row ∉ d.lm.remapped) (hleft : num d.lm.rowSpares (bankKey stack ch bank) < 8)
    (pa : Option Nat) : spareRow d stack ch bank row pa = spareBusy (updLm d (fun l => { l with
      rowSpares := bump l.rowSpares (bankKey stack ch bank) 1, sparing := put l.sparing (rowKey stack ch bank row) 2 })) stack := by
  have hremapped : d.lm.remapped.contains (rowKey stack ch bank row) = false := by simpa using hnew
  simp only [spareRow, hidle, hremapped, Nat.not_le.2 hleft, Bool.or_self, Bool.false_eq_true, if_false]

/-- ROW_REQ of a fitted stack spares the row that LM_REPAIR names. -/
theorem rowReq_spares (hstack : stack < lmStacks d) : rowReq d stack =
    spareRow d stack (rget d Fld.LM_REPAIR_CTRL_CHANNEL stack) (rget d Fld.LM_REPAIR_CTRL_BANK stack)
      (rget d Fld.LM_REPAIR_ROW stack) none := if_neg (Nat.not_le.2 hstack)

theorem rowCopied_remaps (h : look d.lm.sparing (rowKey stack ch bank row) = some 2) : rowCopied d stack ch bank row =
    updLm d (fun l => { l with
      sparing := put l.sparing (rowKey stack ch bank row) 4, remapped := insertNat l.remapped (rowKey stack ch bank row) }) := by
  simp only [rowCopied, h]

theorem repairDone_row (h : look d.lm.sparing (rowKey stack ch bank row) = some 4) :
    repairDone d stack ch (some (bank, row)) = lmRecord (count
      (spareBusy (updLm d (fun l => { l with sparing := drop l.sparing (rowKey stack ch bank row) })) stack)
      Fld.LM_ROWS_SPARED stack) 5 true 0 stack ch bank row 0 := by
  simp only [repairDone, h]

end

/-! ## Pin steering (R375) -/

theorem exec_pinReq (stack : Nat) (s : State) : exec (.pinReq stack) s =
    .next (s.store (if wrote s.dev 0 Fld.LM_REPAIR_CTRL_PIN_REQ stack then pinReq s.dev stack else s.dev)) := rfl

theorem exec_pinThreshWindow (s : State) : exec .pinThreshWindow s = .next (s.store (pinWindow s.dev)) := rfl

theorem exec_pinSteerCopyDone (stack ch : Nat) (s : State) :
    exec (.pinSteerCopyDone stack ch) s = .next (s.store (pinCopied s.dev stack ch)) := rfl

section
variable {d : Ix9} {stack ch pin : Nat}

section
variable (hunused : has d.lm.steered (chanKey stack ch) = false) (hidle : has d.lm.steering (chanKey stack ch) = false)
include hunused hidle

/-- A channel with its spare pin left begins the rewrite, step 2 of R375. -/
theorem steerPin_begins : steerPin d stack ch pin =
    spareBusy (updLm d (fun l => { l with steering := put l.steering (chanKey stack ch) (pin, 2) })) stack := by
  simp only [steerPin, hunused, hidle, Bool.or_self, Bool.false_eq_true, if_false]

theorem pinReq_steers (hstack : stack < lmStacks d) (hch : ch = rget d Fld.LM_REPAIR_CTRL_CHANNEL stack) : pinReq d stack =
    spareBusy (updLm d (fun l => { l with
      steering := put l.steering (chanKey stack ch) (rget d Fld.LM_REPAIR_CTRL_PIN stack, 2) })) stack := by
  simp only [pinReq, Nat.not_le.2 hstack, ← hch, hunused, hidle, Bool.or_self, Bool.false_eq_true, if_false]
  exact steerPin_begins hunused hidle

end

theorem pinReq_exhausted (hstack : stack < lmStacks d) (hch : ch = rget d Fld.LM_REPAIR_CTRL_CHANNEL stack)
    (hused : has d.lm.steered (chanKey stack ch) = true) :
    pinReq d stack = lmEvent (rset d Fld.LM_SPARE_STATUS_PIN_EXHAUSTED stack 1) stack 4 ch := by
  simp only [pinReq, Nat.not_le.2 hstack, ← hch, hused, Bool.true_or, if_false, if_true]

theorem pinWindow_clears (h : ∀ x ∈ d.lm.pinErr, x.2 < rget d Fld.LM_REPAIR_PIN_THRESH) :
    pinWindow d = updLm d (fun l => { l with pinErr := [] }) := by
  have hnone : d.lm.pinErr.filter (fun x => decide (rget d Fld.LM_REPAIR_PIN_THRESH ≤ x.2)) = [] :=
    List.filter_eq_nil_iff.2 fun x hx => by simpa using h x hx
  simp only [pinWindow, hnone, List.foldl_nil]

/-- The pin that reached the threshold is steered, the counts cleared. -/
theorem pinWindow_steers {x : Nat × Nat}
    (h : d.lm.pinErr.filter (fun x => decide (rget d Fld.LM_REPAIR_PIN_THRESH ≤ x.2)) = [x])
    (hstack : stack = x.1 / 256 / 16) (hch : ch = x.1 / 256 % 16) (hpin : pin = x.1 % 256)
    (hunused : has d.lm.steered (chanKey stack ch) = false) (hidle : has d.lm.steering (chanKey stack ch) = false)
    {e : Ix9} (he : e = updLm d (fun l => { l with pinErr := [] })) :
    pinWindow d = spareBusy (updLm e (fun l => { l with steering := put l.steering (chanKey stack ch) (pin, 2) })) stack := by
  subst he
  simp only [pinWindow, h, List.foldl_cons, List.foldl_nil, ← hstack, ← hch, ← hpin]
  exact steerPin_begins hunused hidle

theorem pinCopied_remaps (h : look d.lm.steering (chanKey stack ch) = some (pin, 2)) : pinCopied d stack ch =
    updLm d (fun l => { l with
      steering := put l.steering (chanKey stack ch) (pin, 4), steered := put l.steered (chanKey stack ch) (pin + 1) }) := by
  simp only [pinCopied, h]

theorem repairDone_pin (h : look d.lm.steering (chanKey stack ch) = some (pin, 4)) {e : Ix9}
    (he : e = spareBusy (updLm d (fun l => { l with steering := drop l.steering (chanKey stack ch) })) stack) :
    repairDone d stack ch none = lmEvent (lmRecord
      (rset e Fld.LM_SPARE_STATUS_PINS stack (setBits (rget e Fld.LM_SPARE_STATUS_PINS stack) ch ch 1))
      4 true pin stack ch 0 0 0) stack 4 ch := by
  simp only [repairDone, h, ← he]

end

/-! ## Zeroing (R367, R379) -/

theorem exec_lmZeroDone_unit (u : Nat) (s : State) :
    exec (.lmZeroDone false u) s = .next (s.follow (unitZeroed s.dev u)) := rfl

theorem exec_lmZeroDone_block (b : Nat) (s : State) : exec (.lmZeroDone true b) s =
    .next (s.follow { s.dev with lm := { s.dev.lm with blocks := s.dev.lm.blocks.filter (· != b) } }) := rfl

theorem unitZeroed_ends {d : Ix9} {u x : Nat} (h : look d.lm.zeroing u = some x) : unitZeroed d u =
    quotaSettle (lmZero { d with lm := { d.lm with zeroing := drop d.lm.zeroing u } } (u * unitBytes) unitBytes) := by
  simp only [unitZeroed, h]

/-- Settles O41, by the equations above. The layout of the event of a pin is the model's choice (log entry 37). -/
theorem landingMemoryIsScrubbedAndRepaired : Obligations.LandingMemoryIsScrubbedAndRepaired := by
  intro s stack ch bank row pin
  refine ⟨fun ecc n hn => ⟨fun hmore => ?scrubs, fun hsome hlast => ?passes⟩, ?rowAsked, fun h => ?rowCopied, fun h => ?rowRepaired,
    ?pinAsked, fun h => ?windowQuiet, ?windowOver, fun hstack hwrote hch hused => ?pinExhausted, fun h => ?pinCopied,
    fun e h he => ?pinRepaired, fun u x h => ?unitZeroed, fun b => exec_lmZeroDone_block b s⟩
  case scrubs => rw [exec_patrolScrubTick, scrubTick_moves hn ecc hmore]
  case passes => rw [exec_patrolScrubTick, scrubTick_ends hn ecc hsome hlast]
  case rowAsked =>
    rintro hstack hwrote rfl rfl rfl hidle hnew hleft
    rw [exec_rowReq, if_pos hwrote, rowReq_spares hstack, spareRow_begins hidle hnew hleft]
  case rowCopied => rw [exec_rowSpareCopyDone, rowCopied_remaps h]
  case rowRepaired => rw [exec_postPackageRepairDone, repairDone_row h]
  case pinAsked =>
    intro hstack hwrote hch hunused hidle
    rw [exec_pinReq, if_pos hwrote, pinReq_steers hunused hidle hstack hch]
  case windowQuiet => rw [exec_pinThreshWindow, pinWindow_clears h]
  case windowOver =>
    intro x d hover hstack hch hpin hunused hidle hd
    rw [exec_pinThreshWindow, pinWindow_steers hover hstack hch hpin hunused hidle hd]
  case pinExhausted => rw [exec_pinReq, if_pos hwrote, pinReq_exhausted hstack hch hused]
  case pinCopied => rw [exec_pinSteerCopyDone, pinCopied_remaps h]
  case pinRepaired => rw [exec_postPackageRepairDone, repairDone_pin h he]
  case unitZeroed => rw [exec_lmZeroDone_unit, unitZeroed_ends h]

end Sys2Proof.Machine
end

section
/-!
SUPPORT and proofs, family 14_stride_engines: the entries and descriptors of a channel (R386 to R394) and its pacing and control
(R398 to R402). What each command runs and one equation for each case of an operation come first in each part, then its
statement.
-/

namespace Sys2Proof.Machine

/-! ## Entries (R387, R388, R393) -/

theorem exec_opCopy (k slot : Nat) (s : State) : exec (.opCopy k slot) s = .next (s.follow (opStride s.dev 0x01 k slot)) := rfl

theorem exec_opFill (k slot : Nat) (s : State) : exec (.opFill k slot) s = .next (s.follow (opStride s.dev 0x02 k slot)) := rfl

theorem exec_opChainStart (k slot : Nat) (s : State) :
    exec (.opChainStart k slot) s = .next (s.follow (opStride s.dev 0x03 k slot)) := rfl

section
variable {d b : Ix9} {op k slot c : Nat} {q : Sq} {e : Entry} (hentry : startedEntry d op k slot = some (q, e))
  (hchan : chanOfEntry d k slot = some c)
  (hb : b = updEntry (updChan d c (fun ch => { ch with begun := true })) k slot (fun e => { e with phase := 1 }))
include hentry hchan hb

/-- A copy or a fill begins its one transfer. -/
theorem opStride_begins (hop : op ≠ 0x03) : opStride d op k slot = strideRun b c := by
  simp only [opStride, hentry, hchan, ← hb, hop, if_false]

theorem opStride_chains (hop : op = 0x03) (hflag : flag e.opflags 0 = false) :
    opStride d op k slot = chainNext (rset b Fld.STRIDE_CH_DESC c (e.operandAt 1)) c (e.operandAt 1) := by
  subst hop
  simp only [opStride, hentry, hchan, ← hb, hflag, Bool.false_eq_true, if_false, if_true]

end

theorem chainNext_aligned {d : Ix9} {a : Nat} (h : a % 64 = 0) (c : Nat) :
    chainNext d c a = updChan d c (fun ch => { ch with next := some a }) := by simp [chainNext, h]

theorem chainNext_unaligned {d : Ix9} {a : Nat} (h : a % 64 ≠ 0) (c : Nat) : chainNext d c a =
    updChan d c (fun ch => { ch with next := none, fin := some (some (ST_BAD_ENTRY, 0x04, a)) }) := by simp [chainNext, h]

/-- A running channel may move a piece of up to `n` bytes of descriptor `r`. -/
structure PieceDue (d : Ix9) (c : Nat) (ch : Chan) (r : DescRun) (n : Nat) : Prop where
  chan : look d.stride c = some ch
  running : chanState d c = chRUN
  silent : ch.msg = none
  begun : ch.begun = true
  moving : movingRun ch = some r
  room : pieceRoom r = some n

section
variable {d : Ix9} {c f n : Nat} {ch : Chan} {r : DescRun} (hdue : PieceDue (strideStart d c) c ch r n)
include hdue

/-- A fill writes the next bytes of its pattern at the next piece of its destination, and goes on. -/
theorem strideGo_fills (hop : r.desc.op = 1) {g : Seg} {b : Ix9} (hside : sideNext (strideStart d c) c ch r true = (b, .seg g)) :
    strideGo (f + 1) d c = strideGo f (strideWrite b c r g (fillBytes r.desc.src r.pos (min n g.len))) c := by
  rw [strideGo]
  simp only [hdue.chan, hdue.running, hdue.silent, hdue.begun, hdue.moving, hdue.room, hop, hside, decide_true, Bool.true_or,
    Bool.not_true, Option.isSome_none, Bool.or_self, Bool.false_eq_true, if_false, if_true]

/-- A copy from memory that is not remote waits for its read. -/
theorem strideGo_waits (hop : r.desc.op = 0) {g t : Seg} (hsource : sideNext (strideStart d c) c ch r false = (strideStart d c, .seg g))
    (hdest : sideNext (strideStart d c) c ch r true = (strideStart d c, .seg t))
    (hlocal : ∀ n w key, g.phys.target ≠ .remote n w key) : strideGo (f + 1) d c = strideStart d c := by
  have hcopy : r.desc.op ≠ 1 := by omega
  rw [strideGo]
  simp only [hdue.chan, hdue.running, hdue.silent, hdue.begun, hdue.moving, hdue.room, hcopy, hsource, hdest, decide_true,
    Bool.true_or, Bool.not_true, Option.isSome_none, Bool.or_self, Bool.false_eq_true, if_false]

end

/-! ## Descriptors (R390, R391, R394) -/

theorem exec_descriptorReadReturn (c : Nat) (rd : ReadData) (s : State) :
    exec (.descriptorReadReturn c rd) s = .next (s.follow (descriptorRead s.cells s.dev c rd)) := rfl

theorem exec_descriptorEnd (c : Nat) (s : State) :
    exec (.descriptorEnd c) s = .next (s.follow (descriptorEnd s.dev c)) := rfl

section
variable {m : List Host.Cell} {b d : Ix9} {c a : Nat} {ch : Chan} {rd : ReadData} {g : Seg} {l : List Byte}

/-- A running channel whose earlier reads are issued takes its next descriptor. -/
theorem descriptorRead_takes (hchan : look b.stride c = some ch) (hrunning : chanState b c = chRUN) (hsilent : ch.msg = none)
    (hopen : ch.fin = none) (hroom : ch.runs.length < 2) (hissued : ∀ r ∈ ch.runs, r.ended = true) (hnext : ch.next = some a)
    (hside : chanXlate b ch c a 0 a false = (d, .seg g)) (hlocal : ∀ n w key, g.phys.target ≠ .remote n w key)
    (hread : memRead m d g.phys 48 rd = .ok l) : descriptorRead m b c rd = descRead d c a l := by
  have hall : ch.runs.all (·.ended) = true := List.all_eq_true.2 hissued
  simp only [descriptorRead, hchan, hrunning, hsilent, hopen, Nat.not_le.2 hroom, hall, hnext, hside, hread, bne_self_eq_false,
    Option.isSome_none, Bool.not_true, Bool.or_self, decide_false, Bool.false_eq_true, if_false]

/-- The block with a descriptor taken into its chain. -/
def descTaken (d : Ix9) (c a : Nat) (r : DescRun) : Ix9 :=
  updChan (rset d Fld.STRIDE_CH_DESC c a) c (fun ch => { ch with runs := ch.runs ++ [r], nextK := ch.nextK + 1, next := none })

section
variable (hchan : look d.stride c = some ch) (hvalid : (descOf l).v = true) (hwell : descMalformed (descOf l) = false)
  {r : DescRun} (hr : r = { k := ch.nextK, addr := some a, desc := descOf l, bad := none })
include hchan hvalid hwell hr

theorem descRead_last (hlast : (descOf l).last = true) :
    descRead d c a l = strideRun (updChan (descTaken d c a r) c (fun ch => { ch with fin := some none })) c := by
  simp only [descRead, hchan, hvalid, hwell, hlast, hr, descTaken, Option.isSome_none, Bool.not_true, Bool.false_eq_true,
    if_false, if_true]

theorem descRead_more (hlast : (descOf l).last = false) (haligned : (descOf l).next % 64 = 0) :
    descRead d c a l = strideRun (updChan (descTaken d c a r) c (fun ch => { ch with next := some (descOf l).next })) c := by
  simp only [descRead, hchan, hvalid, hwell, hlast, hr, descTaken, chainNext_aligned haligned, Option.isSome_none, Bool.not_true,
    Bool.false_eq_true, if_false]

end

/-- The oldest descriptor, its data and acknowledgements done, is written back, and waits for the acknowledgement of that. -/
theorem descriptorEnd_writes {e : Ix9} {r : DescRun} {rest : List DescRun} (hchan : look b.stride c = some ch)
    (hruns : ch.runs = r :: rest) (haddr : r.addr = some a) (hended : r.ended = true) (hacks : r.acks = 0) (hback : r.back = none)
    (hsilent : ch.msg = none) (hstate : chanState b c ≠ chPAUSED)
    (hside : chanXlate b ch c a r.desc.tag (a + 0x30) true = (d, .seg g)) (hlocal : ∀ n w key, g.phys.target ≠ .remote n w key)
    (hwrite : memWrite d g.phys r.wb = (e, false)) : descriptorEnd b c =
      needDest (updRun e c r.k (fun r => { r with back := some true })) (pathOf e g.phys) (.descBack c r.k) := by
  simp only [descriptorEnd, hchan, hruns, haddr, hended, hacks, hback, hsilent, hstate, hside, hwrite, bne_self_eq_false,
    Bool.not_true, Option.isSome_none, Bool.or_self, decide_false, Bool.false_eq_true, if_false]

end

/-- Settles O42, by the equations above. -/
theorem strideEntriesAndDescriptorsRun : Obligations.StrideEntriesAndDescriptorsRun := by
  refine ⟨?entries, ?reads, ?ends⟩
  case entries =>
    intro s k slot op c q e d hentry hchan hd
    have hbegins (hop : op ≠ 0x03) := opStride_begins hentry hchan hd hop
    refine ⟨?copy, ?fill, ?fills, ?copies, ?chain⟩
    case copy =>
      rintro rfl
      rw [exec_opCopy, hbegins (by decide)]
    case fill =>
      rintro rfl
      rw [exec_opFill, hbegins (by decide)]
    case fills =>
      rintro f ch r n rfl hfuel hchan hrunning hsilent hbegun hmoving hroom hop g b hside
      rw [exec_opFill, hbegins (by decide), strideRun, hfuel,
        strideGo_fills ⟨hchan, hrunning, hsilent, hbegun, hmoving, hroom⟩ hop hside]
    case copies =>
      rintro ch r n g t rfl hchan hrunning hsilent hbegun hmoving hroom hop hsource hdest hlocal hfuel
      obtain ⟨f, hf⟩ := Nat.exists_eq_succ_of_ne_zero hfuel
      rw [exec_opCopy, hbegins (by decide), strideRun, hf,
        strideGo_waits ⟨hchan, hrunning, hsilent, hbegun, hmoving, hroom⟩ hop hsource hdest hlocal]
    case chain =>
      rintro _ rfl hflag rfl
      have hrun := opStride_chains hentry hchan hd rfl hflag
      refine ⟨fun haligned => ?_, fun hunaligned => ?_⟩
      · rw [exec_opChainStart, hrun, chainNext_aligned haligned]
      · rw [exec_opChainStart, hrun, chainNext_unaligned hunaligned]
  case reads =>
    rintro s c ch a rd g b d _ r hchan hrunning hsilent hopen hroom hissued hnext hside hlocal hread hvalid hwell hafter hr rfl
    have hrun := descriptorRead_takes hchan hrunning hsilent hopen hroom hissued hnext hside hlocal hread
    refine ⟨fun hlast => ?_, fun hlast haligned => ?_⟩
    · rw [exec_descriptorReadReturn, hrun, descRead_last hafter hvalid hwell hr hlast, descTaken]
    · rw [exec_descriptorReadReturn, hrun, descRead_more hafter hvalid hwell hr hlast haligned, descTaken]
  case ends =>
    intro s c ch r rest a g d e hchan hruns haddr hended hacks hback hsilent hstate hside hlocal hwrite
    rw [exec_descriptorEnd,
      descriptorEnd_writes hchan hruns haddr hended hacks hback hsilent hstate hside hlocal hwrite]

/-! ## Request lines (R398, R399) -/

theorem exec_requestLinePulse (line : Nat) (s : State) :
    exec (.requestLinePulse line) s = .next (s.only (requestPulse s.dev line)) := rfl

theorem exec_dreqEdge (pin : Nat) (rising : Bool) (s : State) :
    exec (.dreqEdge pin rising) s = .next (s.only (dreqEdge s.dev pin rising)) := rfl

theorem exec_ppsInEdge (s : State) : exec .ppsInEdge s =
    .next (s.only (linePulse { s.dev with ppsAt := some s.dev.now } 32)) := rfl

theorem exec_timeSecondBoundary (s : State) : exec .timeSecondBoundary s =
    .next (s.only (linePulse (emit (emit s.dev (.pin .ppsOut true)) (.pin .ppsOut false)) 33)) := rfl

/-- What a pulse of a line does to one channel. -/
def pulseChan (line : Nat) (d : Ix9) (c : Nat) : Ix9 :=
  if line < 0x3F && rget d Fld.STRIDE_CH_CFG_REQ_LINE c = line then
    (if rget d Fld.STRIDE_CH_REQS c < 65535 then rset d Fld.STRIDE_CH_REQS c (rget d Fld.STRIDE_CH_REQS c + 1)
     else rset d Fld.STRIDE_CH_STATUS_REQ_OVF c 1)
  else d

theorem linePulse_eq (d : Ix9) (line : Nat) : linePulse d line = (List.range 128).foldl (pulseChan line) d := rfl

/-- Two channels share no register. -/
theorem regKey_ne_of_chan_ne {f g : Fld} {i j : Nat} (hi : i < 128) (hj : j < 128) (h : i ≠ j) : regKey f i ≠ regKey g j := by
  simp only [regKey]
  omega

section
variable {c : Nat} (hc : c < 128)
include hc

theorem rget_pulseChan_other {i : Nat} (hi : i < 128) (hne : c ≠ i) (line : Nat) (d : Ix9) (f : Fld) :
    rget (pulseChan line d i) f c = rget d f c := by
  unfold pulseChan
  split
  · split <;> exact rget_rset_ne _ _ _ _ _ _ (regKey_ne_of_chan_ne hc hi hne)
  · rfl

theorem rget_pulseChans_other {l : List Nat} (hl : ∀ i ∈ l, i < 128 ∧ c ≠ i) (line : Nat) (d : Ix9) (f : Fld) :
    rget (l.foldl (pulseChan line) d) f c = rget d f c := by
  induction l generalizing d with
  | nil => rfl
  | cons i l ih =>
    obtain ⟨hi, hne⟩ := hl i List.mem_cons_self
    rw [List.foldl_cons, ih fun j hj => hl j (List.mem_cons_of_mem i hj), rget_pulseChan_other hc hi hne]

/-- A channel hears a line by itself: the others' turns, before and after its own, leave its registers. -/
theorem rget_linePulse (line : Nat) (d : Ix9) (f : Fld) :
    ∃ e : Ix9, (∀ g : Fld, rget e g c = rget d g c) ∧ rget (linePulse d line) f c = rget (pulseChan line e c) f c := by
  obtain ⟨l₁, l₂, hsplit⟩ := List.append_of_mem (List.mem_range.2 hc)
  have hnodup : (c :: (l₁ ++ l₂)).Nodup := List.perm_middle.nodup_iff.1 (hsplit ▸ List.nodup_range)
  have hother : ∀ i ∈ l₁ ++ l₂, i < 128 ∧ c ≠ i := by
    intro i hi
    refine ⟨List.mem_range.1 ?_, fun heq => (List.nodup_cons.1 hnodup).1 (heq ▸ hi)⟩
    rw [hsplit]
    exact List.perm_middle.mem_iff.2 (List.mem_cons_of_mem c hi)
  refine ⟨l₁.foldl (pulseChan line) d, fun g => rget_pulseChans_other hc (fun i hi => hother i (List.mem_append_left _ hi)) _ _ _, ?_⟩
  rw [linePulse_eq, hsplit, List.foldl_append, List.foldl_cons]
  exact rget_pulseChans_other hc (fun i hi => hother i (List.mem_append_right _ hi)) _ _ _

section
variable {d : Ix9} {line : Nat} (hline : line < 0x3F) (hlistens : rget d Fld.STRIDE_CH_CFG_REQ_LINE c = line)
include hline hlistens

theorem linePulse_counts (hroom : rget d Fld.STRIDE_CH_REQS c < 65535) :
    rget (linePulse d line) Fld.STRIDE_CH_REQS c = rget d Fld.STRIDE_CH_REQS c + 1 := by
  obtain ⟨e, hsame, hpulse⟩ := rget_linePulse hc line d Fld.STRIDE_CH_REQS
  have hfits : rget d Fld.STRIDE_CH_REQS c + 1 < 2 ^ Fld.STRIDE_CH_REQS.width := Nat.succ_lt_succ hroom
  simp only [hpulse, pulseChan, hsame, hline, hlistens, hroom, decide_true, Bool.and_self, if_true, rget_rset_eq,
    Nat.mod_eq_of_lt hfits]

theorem linePulse_overflows (hfull : 65535 ≤ rget d Fld.STRIDE_CH_REQS c) :
    rget (linePulse d line) Fld.STRIDE_CH_STATUS_REQ_OVF c = 1 := by
  obtain ⟨e, hsame, hpulse⟩ := rget_linePulse hc line d Fld.STRIDE_CH_STATUS_REQ_OVF
  simp only [hpulse, pulseChan, hsame, hline, hlistens, Nat.not_lt.2 hfull, decide_true, Bool.and_self, if_true, if_false,
    rget_rset_eq]
  rfl

end

end

theorem requestPulse_exists {d : Ix9} {line : Nat} (h : lineExists d line = true) : requestPulse d line = linePulse d line :=
  if_pos h

theorem dreqEdge_selected {d : Ix9} {pin : Nat} {rising : Bool} (hpin : pin < 16)
    (h : flag (rget d Fld.STRIDE_DREQ_POL) pin ≠ rising) : dreqEdge d pin rising = linePulse d pin := by
  simp [dreqEdge, Nat.not_le.2 hpin, h]

/-! ## Bursts (R398) -/

theorem exec_strideBurstStart (c : Nat) (s : State) :
    exec (.strideBurstStart c) s = .next (s.follow (burstStart s.dev c)) := rfl

/-- A WAIT_REQ descriptor that waits takes one request. -/
theorem burstStart_takes {d : Ix9} {c b : Nat} {ch : Chan} {r : DescRun} (hchan : look d.stride c = some ch)
    (hrunning : chanState d c = chRUN) (hreqs : rget d Fld.STRIDE_CH_REQS c ≠ 0) (hmoving : movingRun ch = some r)
    (hwaits : r.desc.waitReq = true) (hidle : r.burst = none) (hb : b = rget d Fld.STRIDE_CH_CFG_BURST_LOG2 c) (hlo : 8 ≤ b)
    (hhi : b ≤ 24) : burstStart d c = strideRun
      (updRun (rset d Fld.STRIDE_CH_REQS c (rget d Fld.STRIDE_CH_REQS c - 1)) c r.k
        (fun r => { r with burst := some (min (2 ^ b) (r.total - r.pos)) })) c := by
  simp only [burstStart, hchan, hrunning, hreqs, hmoving, hwaits, hidle, ← hb, hlo, hhi, decide_true, decide_false, Bool.true_or,
    Bool.not_true, Option.isSome_none, Bool.or_self, Bool.and_self, Bool.false_eq_true, if_false, if_true]

/-! ## Pause, resume, stop (R400 to R402) -/

theorem exec_pausingDone (c : Nat) (s : State) : exec (.pausingDone c) s = .next (s.follow (pausingDone s.dev c)) := rfl

section
variable {s : State} {f c : Nat} {setup : Bool} (hreach : regReach s.dev f = true) (hc : c < 128)
  (howner : if setup = true then f = 0 else rget s.dev Fld.STRIDE_CH_CFG_OWNER c = f)
include hreach hc howner

/-- The channel's owner may write its control register, and PF0 in the set-up block. -/
theorem ctrl_allowed : (regReach s.dev f && chanCtrlAllowed s.dev c f setup) = true := by
  cases setup <;> simp_all [chanCtrlAllowed]

theorem exec_stridePause_allowed : exec (.stridePause f c setup) s = .next (s.follow (stridePause s.dev c)) :=
  congrArg (fun d => Host.Outcome.next (s.follow d)) (if_pos (ctrl_allowed hreach hc howner))

theorem exec_strideResume_allowed : exec (.strideResume f c setup) s = .next (s.follow (strideResume s.dev c)) :=
  congrArg (fun d => Host.Outcome.next (s.follow d)) (if_pos (ctrl_allowed hreach hc howner))

theorem exec_strideStop_allowed : exec (.strideStop f c setup) s = .next (s.follow (strideStop s.dev c)) :=
  congrArg (fun d => Host.Outcome.next (s.follow d)) (if_pos (ctrl_allowed hreach hc howner))

end

section
variable {d : Ix9} {c : Nat}

/-- At behaviour level 0x40 PAUSE acts as STOP (R402). -/
theorem stridePause_level40 (h : level40 d = true) : stridePause d c = strideStop d c := if_pos h

theorem strideStop_pausing (hstate : chanState d c = chPAUSING) :
    strideStop d c = rset d Fld.STRIDE_CH_STATUS_STOP_PENDING c 1 := by
  simp [strideStop, hstate, chPAUSING, chRUN]

/-- STOP of a paused chain with no NOTIFY completion reserved ends it. -/
theorem strideStop_paused {ch : Chan} {e : Ix9} (hstate : chanState d c = chPAUSED) (hchan : look d.stride c = some ch)
    (hchain : ch.chain = true) (hnone : ∀ r ∈ ch.runs, r.resv = false)
    (he : e = updChan d c (fun ch => { ch with runs := ch.runs.map (fun r => { r with resv := false }) })) : strideStop d c =
      chanFinish e c ST_STOPPED 0x03 (ch.bytes % 2 ^ 32) (rget d Fld.STRIDE_CH_DESC c) := by
  have hkept : ch.runs.foldl (fun b r => if r.resv = true then cqRelease b (((sqAt d ch.sq).map (·.cq)).getD 0) else b) d = d :=
    foldl_eq_self fun r hr => by simp [hnone r hr]
  have hrunning : ¬ chPAUSED = chRUN := by decide
  have hpausing : ¬ chPAUSED = chPAUSING := by decide
  simp only [strideStop, hstate, hrunning, hpausing, hchan, hkept, hchain, he, decide_false, Bool.false_and, Bool.false_eq_true,
    if_false, if_true]
  rfl

theorem pausingDone_pauses {ch : Chan} (hchan : look d.stride c = some ch) (hstate : chanState d c = chPAUSING)
    (hsilent : ch.msg = none) (hwork : ∀ r ∈ ch.runs, r.ended = false)
    (hpending : rflag (setChan d c chPAUSED) Fld.STRIDE_CH_STATUS_STOP_PENDING c = false) : pausingDone d c = setChan d c chPAUSED := by
  have hnone : ch.runs.any (fun r => r.ended) = false := List.any_eq_false.2 fun r hr => by simp [hwork r hr]
  simp only [pausingDone, hchan, hstate, hsilent, hnone, hpending, bne_self_eq_false, Option.isSome_none, Bool.or_self,
    Bool.false_eq_true, if_false]

section
variable (hlevel : level40 d = false)
include hlevel

theorem stridePause_running (hstate : chanState d c = chRUN) : stridePause d c = setChan d c chPAUSING := by
  simp [stridePause, hlevel, hstate]

theorem strideResume_paused (hstate : chanState d c = chPAUSED) : strideResume d c = strideRun (setChan d c chRUN) c := by
  simp [strideResume, hlevel, hstate]

end

theorem strideStop_running (hstate : chanState d c = chRUN) (hstop : rflag d Fld.STRIDE_CH_CFG_IX4_STOP c = true) :
    strideStop d c = chainEnd (setChan d c chSTOPPING) c := by
  simp [strideStop, hstate, hstop]

end

/-- Settles O43, by the equations above. That both edges of PPS_OUT come at the second's boundary is the model's choice (log
entry 32). -/
theorem strideChannelsArePacedAndControlled : Obligations.StrideChannelsArePacedAndControlled := by
  intro s c
  refine ⟨fun line hline hc hlistens => ⟨linePulse_counts hc hline hlistens, linePulse_overflows hc hline hlistens⟩,
    fun line hexists => ?pulse, fun pin up hpin hselected => ?edge, exec_ppsInEdge s, exec_timeSecondBoundary s,
    fun ch r b hchan hrunning hreqs hmoving hwaits hidle hb hlo hhi => ?burst,
    fun f setup hreach hc howner hlevel => ⟨fun hstate => ?pause, fun hstate => ?resume, fun hstate hstop => ?stop,
      fun ch d hstate hchan hchain hnone hd => ?stopPaused, fun hstate => ?stopPending⟩,
    fun f setup hreach hc howner hlevel => ?pause40, fun ch hchan hstate hsilent hwork hpending => ?paused⟩
  case pulse => rw [exec_requestLinePulse, requestPulse_exists hexists]
  case edge => rw [exec_dreqEdge, dreqEdge_selected hpin hselected]
  case burst => rw [exec_strideBurstStart, burstStart_takes hchan hrunning hreqs hmoving hwaits hidle hb hlo hhi]
  case pause => rw [exec_stridePause_allowed hreach hc howner, stridePause_running hlevel hstate]
  case resume => rw [exec_strideResume_allowed hreach hc howner, strideResume_paused hlevel hstate]
  case stop => rw [exec_strideStop_allowed hreach hc howner, strideStop_running hstate hstop]
  case stopPaused => rw [exec_strideStop_allowed hreach hc howner, strideStop_paused hstate hchan hchain hnone hd]
  case stopPending => rw [exec_strideStop_allowed hreach hc howner, strideStop_pausing hstate]
  case pause40 => rw [exec_stridePause_allowed hreach hc howner, stridePause_level40 hlevel]
  case paused => rw [exec_pausingDone, pausingDone_pauses hchan hstate hsilent hwork hpending]

end Sys2Proof.Machine
end

section
/-!
SUPPORT and proofs, family 15_cipher: key operations (R408, R421 to R423) and the Vault (R407 to R411, R418, R425, R426). What
each command runs and one equation for each case of an operation come first in each part, then its statement.
-/

namespace Sys2Proof.Machine

/-! ## Key operations (R408, R421 to R423) -/

theorem exec_opKeyBind (k slot : Nat) (r : ReadData) (s : State) :
    exec (.opKeyBind k slot r) s = .next (s.follow (keyBind s.cells s.dev k slot r)) := rfl

theorem exec_opKeyRotate (k slot : Nat) (s : State) :
    exec (.opKeyRotate k slot) s = .next (s.follow (keyRotate s.dev k slot)) := rfl

theorem exec_opKeyRetire (k slot : Nat) (s : State) :
    exec (.opKeyRetire k slot) s = .next (s.follow (keyRetire s.dev k slot)) := rfl

/-- The port without the association of this direction, AN and, on the receive side, channel. -/
def Port.withoutSa (p : Port) (tx : Bool) (ch an : Nat) : Port :=
  { p with sas := p.sas.filter (fun o => !(o.tx == tx && o.an == an && (tx || o.ch == ch))) }

section
variable {m : List Host.Cell} {d : Ix9} {k slot : Nat} {q : Sq} {e : Entry} {r : ReadData}

section
variable (h : startedEntry d 0x50 k slot = some (q, e))
include h

section
variable {b : List Byte} {x : Nat} (hkind : keyKind e = 0) (hread : readBuf m d k slot 0 e r = (d, some b))
  (hfree : has d.ciph.slots e.object = false) (hroot : d.ciph.drk = some x)
include hkind hread hfree hroot

/-- A tenant key whose blob opens under the device root key fills its slot. -/
theorem keyBind_opens {key : Nat} (hopen : openBlob x b = some key) : keyBind m d k slot r = endEntry (showSlots
    (updCiph d (fun c => { c with slots := put c.slots e.object (key, e.oparg1 % 2 ^ 10) }))) k slot ST_OK := by
  simp only [keyBind, h, hkind, hread, hfree, hroot, hopen, Option.bind_some, Bool.false_eq_true, if_false]

theorem keyBind_fails (hopen : openBlob x b = none) :
    keyBind m d k slot r = endEntry d k slot ST_KEY_UNAVAILABLE 0x10 := by
  simp only [keyBind, h, hkind, hread, hfree, hroot, hopen, Option.bind_some, Bool.false_eq_true, if_false]

end

/-- A connection in INIT starts at epoch 0 with the peer's incarnation. -/
theorem keyBind_connection (hkind : keyKind e = 1) (hconn : keyConnOk d q e.object = true)
    (hstate : (connOf d e.object).state = csINIT) (henc : (connOf d e.object).enc = true) : keyBind m d k slot r =
      endEntry (updConn d e.object (fun c => { c.setEpoch 0 with
        peerIncarn := some e.oparg0, txc := (0, 0), rxEpoch := (0, 0), epAcked := false })) k slot ST_OK := by
  simp only [keyBind, h, hkind, hconn, hstate, henc, bne_self_eq_false, Bool.not_true, Bool.or_self, Bool.false_eq_true,
    if_false]

/-- A MACsec association takes the place of the one of its AN. -/
theorem keyBind_association {b : List Byte} {p ch an : Nat} {tx : Bool} {f : Nat → Nat → Nat} {sa : Sa} (hkind : 2 ≤ keyKind e)
    (hread : readBuf m d k slot 0 e r = (d, some b)) (hplace : saOf e = (p, tx, ch, an))
    (hf : f = fun i n => leNat ((b.drop i).take n))
    (hsa : sa = Sa.mk tx ch an (f 0 32) (f 0x20 12) (f 0x2C 4)
      (if tx then rget d Fld.ETH_MAC p * 2 ^ 16 + (p + 1) else f 0x30 8) (f 0x38 8) (f 0x38 8)) : keyBind m d k slot r =
      endEntry (updPort d p (fun x => { x with sas := (x.withoutSa tx ch an).sas ++ [sa] })) k slot ST_OK := by
  obtain ⟨n, hn⟩ : ∃ n, keyKind e = n + 2 := ⟨keyKind e - 2, by omega⟩
  subst hsa hf
  simp only [keyBind, h, hn, hread, hplace]
  rfl

end

section
variable (h : startedEntry d 0x51 k slot = some (q, e))
include h

/-- A connection whose epoch is acknowledged takes the next one, its counter at 0. -/
theorem keyRotate_connection (hkind : keyKind e = 0) (hconn : keyConnOk d q e.object = true)
    (hacked : (connOf d e.object).epAcked = true) : keyRotate d k slot = endEntry (updConn d e.object (fun c =>
      { c.setEpoch ((c.keyEpoch + 1) % 256) with txc := (0, 0), epAcked := false })) k slot ST_OK := by
  simp only [keyRotate, h, hkind, hconn, hacked, Bool.not_true, Bool.false_eq_true, if_false, if_true]

theorem keyRotate_port (hkind : keyKind e ≠ 0) : keyRotate d k slot =
    endEntry (updPort d (saOf e).1 (fun p => { p with txAn := (saOf e).2.2.2 })) k slot ST_OK := by
  simp only [keyRotate, h, hkind, if_false]

end

/-- The block without a tenant slot and the keys derived from it (R423). -/
def slotErased (d : Ix9) (slot : Nat) : Ix9 :=
  showSlots (updCiph d (fun c => { c with
    slots := drop c.slots slot
    fetching := c.fetching.filter (fun f => (connOf d f.2.conn).tenant != slot)
    keys := c.keys.map (fun (t, l) => (t, l.filter (fun x => (connOf d x.1.conn).tenant != slot))) }))

section
variable (h : startedEntry d 0x52 k slot = some (q, e))
include h

/-- The connections that use a slot, where there are any, enter ERROR before it is emptied. -/
theorem keyRetire_slot (hkind : keyKind e = 0) (hmay : slotUsers d e.object = [] ∨ flag e.opflags 2 = true) {b : Ix9}
    (hb : b = (slotUsers d e.object).foldl
      (fun d n => if (connOf d n).state = csERROR then dropRx d n else enterError d n 5 none true) d) :
    keyRetire d k slot = endEntry (slotErased b e.object) k slot ST_OK := by
  have hallowed : (!(slotUsers d e.object).isEmpty && !flag e.opflags 2) = false := by
    rcases hmay with hnone | hforce
    · simp [hnone]
    · simp [hforce]
  simp only [keyRetire, h, hkind, hallowed, hb, slotErased, Bool.false_eq_true, if_false, if_true]

theorem keyRetire_association {p ch an : Nat} {tx : Bool} (hkind : keyKind e ≠ 0) (hplace : saOf e = (p, tx, ch, an))
    (hunused : tx = true → an ≠ (portOf d p).txAn) :
    keyRetire d k slot = endEntry (updPort d p (fun x => x.withoutSa tx ch an)) k slot ST_OK := by
  have hfree : (tx && decide (an = (portOf d p).txAn) && (txSa d p).isSome) = false := by
    cases tx with
    | false => rfl
    | true => simp [hunused rfl]
  simp only [keyRetire, h, hkind, hplace, hfree, Port.withoutSa, Bool.false_eq_true, if_false]

end

end

/-- Settles O44, by the equations above. -/
theorem keysAreBoundRotatedAndRetired : Obligations.KeysAreBoundRotatedAndRetired := by
  intro s k slot q e r
  refine ⟨fun h => ⟨fun b x hkind hread hfree hroot => ⟨fun key hopen => ?opens, fun hopen => ?fails⟩,
      fun hkind hconn hstate henc => ?connection, fun b p tx ch an f sa hkind hread hplace hf hsa => ?association⟩,
    fun h => ⟨fun hkind hconn hacked => ?rotates, fun hkind => ?takesAn⟩,
    fun h => ⟨fun hkind hnone => ?unused, fun d hkind hforce hd => ?forced,
      fun p tx ch an hkind hplace hunused => ?removed⟩⟩
  case opens => rw [exec_opKeyBind, keyBind_opens h hkind hread hfree hroot hopen]
  case fails => rw [exec_opKeyBind, keyBind_fails h hkind hread hfree hroot hopen]
  case connection => rw [exec_opKeyBind, keyBind_connection h hkind hconn hstate henc]
  case association =>
    rw [exec_opKeyBind, keyBind_association h hkind hread hplace hf hsa]
    rfl
  case rotates => rw [exec_opKeyRotate, keyRotate_connection h hkind hconn hacked]
  case takesAn => rw [exec_opKeyRotate, keyRotate_port h hkind]
  case unused =>
    rw [exec_opKeyRetire, keyRetire_slot h hkind (.inl hnone) rfl, hnone, List.foldl_nil, slotErased]
  case forced => rw [exec_opKeyRetire, keyRetire_slot h hkind (.inr hforce) hd, slotErased]
  case removed =>
    rw [exec_opKeyRetire, keyRetire_association h hkind hplace hunused]
    rfl

/-! ## The Vault (R407, R409 to R411, R418, R425, R426) -/

theorem exec_sealCommand (chan : Nat) (s : State) : exec (.sealCommand chan) s = .next (s.store (fwSeal s.dev chan)) := rfl

theorem exec_vaultKeyFetchDone (tile conn dir epoch : Nat) (send : Bool) (s : State) :
    exec (.vaultKeyFetchDone tile conn dir epoch send) s =
      .next (s.follow (keyFetched s.dev tile ⟨conn, dir, epoch, send⟩)) := rfl

theorem exec_tagFailCountExpiry (n : Nat) (s : State) :
    exec (.tagFailCountExpiry n) s = .next (s.only (tagExpiry s.dev n)) := rfl

theorem exec_drbgReseed (s : State) : exec .drbgReseed s = .next (s.only (drbgReseed s.dev)) := rfl

theorem exec_healthTestFail (s : State) : exec .healthTestFail s = .next (s.follow (healthFail s.dev)) := rfl

theorem exec_vaultRetest (pass : Bool) (s : State) :
    exec (.vaultRetest pass) s = .next (s.follow (vaultRetest s.dev pass)) := rfl

section
variable {d b : Ix9}

/-- SEAL reads the key from the mailbox, clears it there, and answers the blob. -/
theorem fwSeal_seals {c drk key : Nat} (hrequest : fwRequest d c 0x01 = true) (hchan : 32 ≤ c)
    (hkey : key = (List.range 8).foldl (fun a i => a + mboxWord d c (2 + i) * 2 ^ (32 * i)) 0)
    (hb : b = (List.range 8).foldl (fun d i => rset d Fld.MBOX_DATA (c * 16 + 2 + i) 0) d) (hroot : b.ciph.drk = some drk)
    (hready : vaultReady b = true) : fwSeal d c = fwReply b c (0 :: words32 (sealBlob drk (mboxWord d c 1) key)) := by
  simp only [fwSeal, hrequest, Nat.not_lt.2 hchan, ← hkey, ← hb, hroot, hready, Bool.not_true, Bool.false_eq_true, if_false]

/-- The Vault hands the slice the key it asked for, and what waited for it goes on. -/
theorem keyFetched_derives {tile root : Nat} {k : KeyId} (hasked : (tile, k) ∈ d.ciph.fetching)
    (hb : b = updCiph d (fun c => { c with fetching := c.fetching.filter (· != (tile, k)) }))
    (hroot : rootKey b (connOf b k.conn) = some root) (hready : vaultReady b = true) {v : Nat}
    (hv : v = kdf root labelWkey (workContext k.conn (connOf b k.conn) k)) : keyFetched d tile k =
      flushAnswers (runParked (updCiph (count b Fld.VAULT_DERIVES) (fun c => { c with
        keys := updD c.keys tile (fun l => ((k, v) :: l.filter (fun e => e.1 != k)).take 16384) })) k.conn) k.conn := by
  have hcontains : d.ciph.fetching.contains (tile, k) = true := by simpa using hasked
  simp only [keyFetched, hcontains, ← hb, hroot, hready, ← hv, Bool.not_true, Bool.false_eq_true, if_false]

theorem tagExpiry_clears {n : Nat} (h : (connOf d n).tagFails.1 ≠ 0) : tagExpiry d n = tagClear d n := if_neg h

theorem drbgReseed_healthy (h : rflag d Fld.VAULT_STATUS_ES_OK = true) : drbgReseed d = count d Fld.VAULT_RESEEDS := if_pos h

theorem vaultRetest_passes (hfailed : rflag d Fld.VAULT_STATUS_ES_OK = false) (hready : islandReady d 0 = true) :
    vaultRetest d true =
      count (rset (rset d Fld.VAULT_STATUS_ES_OK 0 1) Fld.VAULT_STATUS_DRBG_OK 0 1) Fld.VAULT_RESEEDS := by
  simp only [vaultRetest, hfailed, hready, Bool.not_true, Bool.or_self, Bool.false_eq_true, if_false]

end

/-- Settles O45, by the equations above. -/
theorem vaultFetchesSealsAndTestsItself : Obligations.VaultFetchesSealsAndTestsItself := by
  intro s
  refine ⟨fun chan d drk key hrequest hchan hkey hd hroot hready => ?seals, ?fetched, fun n hfails => ?cleared,
    fun hhealthy => ?reseeded, exec_healthTestFail s, fun hfailed hready => ?passed⟩
  case seals => rw [exec_sealCommand, fwSeal_seals hrequest hchan hkey hd hroot hready]
  case fetched =>
    rintro tile conn dir epoch send root d _ rfl hasked hd hroot hready v hv
    rw [exec_vaultKeyFetchDone, keyFetched_derives hasked hd hroot hready hv]
  case cleared => rw [exec_tagFailCountExpiry, tagExpiry_clears hfails]
  case reseeded => rw [exec_drbgReseed, drbgReseed_healthy hhealthy]
  case passed => rw [exec_vaultRetest, vaultRetest_passes hfailed hready]

end Sys2Proof.Machine
end

section
/-!
SUPPORT and proofs, family 17_service_and_management_cores: mailboxes (R459 to R462), the firmware's commands (R463, R464, R494,
R495), the management island (R457, R480, R495, R496) and the service cores (R450 to R456). What each command runs and one
equation for each case of an operation come first in each part, then its statement.
-/

namespace Sys2Proof.Machine

/-! ## Mailboxes (R459 to R462) -/

theorem exec_mboxGo (f c target : Nat) (irq : Bool) (s : State) : exec (.mboxGo f c target irq) s =
    .next (s.store (mboxWrite s.dev f c 16 (1 + b2n irq * 8 + target % 4 * 16))) := rfl

theorem exec_mboxRespond (who : Option Nat) (c : Nat) (s : State) :
    exec (.mboxRespond who c) s = .next (s.store (mboxRespond s.dev who c)) := rfl

theorem exec_mboxRelease (f c : Nat) (s : State) :
    exec (.mboxRelease f c) s = .next (s.store (mboxWrite s.dev f c 16 2)) := rfl

theorem exec_mboxClaim (f c w v : Nat) (s : State) :
    exec (.mboxClaim f c w v) s = .next (s.store (if w < 16 then mboxWrite s.dev f c w v else s.dev)) := rfl

theorem exec_mboxTimeout (c : Nat) (s : State) : exec (.mboxTimeout c) s = .next (s.store (mboxTimeout s.dev c)) := rfl

/-- The fields of a CTRL word that starts a request (R460). -/
theorem goWord_fields {target : Nat} (h : target < 4) (irq : Bool) (v : Nat) (hv : v = 1 + b2n irq * 8 + target % 4 * 16) :
    bit v 3 = b2n irq ∧ bits v 5 4 = target ∧ flag v 1 = false ∧ flag v 0 = true := by
  subst hv
  simp only [bit, bits, flag, Nat.shiftRight_eq_div_pow]
  cases irq <;> simp [b2n] <;> omega

section
variable {d b : Ix9} {f c : Nat} (hreach : mboxReach d f c = true) (hb : b = mboxClaim d f c)
  (hother : mboxIsTarget b f c = false) (howner : mboxOwner b c = f) (hidle : mboxBusy b c = false)
include hreach hb hother howner hidle

theorem mboxWrite_data {w : Nat} (hw : w < 16) (v : Nat) :
    mboxWrite d f c w v = rset b Fld.MBOX_DATA (c * 16 + w) v := by
  simp only [mboxWrite, hreach, ← hb, hother, howner, hidle, hw, bne_self_eq_false, Bool.not_true, Bool.or_self,
    Bool.false_eq_true, if_false, if_true]

/-- A CTRL write stores IRQ and TARGET; RELEASE comes before GO. -/
theorem mboxWrite_ctrl {v irq target : Nat} (hirq : bit v 3 = irq) (htarget : bits v 5 4 = target) {e : Ix9}
    (he : e = rset (rset b Fld.MBOX_CTRL_IRQ c irq) Fld.MBOX_CTRL_TARGET c target) :
    mboxWrite d f c 16 v = if flag v 1 then mboxFree e c else if flag v 0 then mboxStart e c else e := by
  subst hirq htarget
  simp only [mboxWrite, hreach, ← hb, hother, howner, hidle, ← he, bne_self_eq_false, Bool.not_true, Bool.or_self,
    Bool.false_eq_true, if_false, Nat.lt_irrefl]

theorem mboxWrite_go {target : Nat} (htarget : target < 4) (irq : Bool) :
    mboxWrite d f c 16 (1 + b2n irq * 8 + target % 4 * 16) =
      mboxStart (rset (rset b Fld.MBOX_CTRL_IRQ c (b2n irq)) Fld.MBOX_CTRL_TARGET c target) c := by
  obtain ⟨hirq, htgt, hrelease, hgo⟩ := goWord_fields htarget irq _ rfl
  rw [mboxWrite_ctrl hreach hb hother howner hidle hirq htgt rfl, hrelease, hgo, if_neg Bool.false_ne_true, if_pos rfl]

theorem mboxWrite_release :
    mboxWrite d f c 16 2 = mboxFree (rset (rset b Fld.MBOX_CTRL_IRQ c 0) Fld.MBOX_CTRL_TARGET c 0) c := by
  have hrelease : flag 2 1 = true := by decide
  have hirq : bit 2 3 = 0 := by decide
  have htgt : bits 2 5 4 = 0 := by decide
  rw [mboxWrite_ctrl hreach hb hother howner hidle hirq htgt rfl, hrelease, if_pos rfl]

end

section
variable {e : Ix9} {c : Nat}

/-- A request to the ready firmware waits for it, BUSY. -/
theorem mboxStart_firmware (htarget : mboxTarget e c = 0) (hready : mboxReady e 0 = true)
    (hactive : rflag (rset e Fld.MBOX_STATUS_BUSY c 1) Fld.FW_STATUS_ACTIVATING = false) :
    mboxStart e c = rset e Fld.MBOX_STATUS_BUSY c 1 := by
  simp [mboxStart, htarget, hready, hactive]

/-- The ready service cores learn of theirs by an event. -/
theorem mboxStart_service (hchan : c < 32) (htarget : mboxTarget e c = 1) (hready : mboxReady e 1 = true) :
    mboxStart e c = mboxEvent (rset e Fld.MBOX_STATUS_BUSY c 1) fIF0 c 2 := by
  simp [mboxStart, htarget, hready, Nat.not_le.2 hchan]

theorem mboxStart_down (htarget : mboxTarget e c = 0) (hready : mboxReady e 0 = false) : mboxStart e c = mboxDown e c := by
  simp [mboxStart, htarget, hready]

end

section
variable {d : Ix9} {c : Nat}

theorem mboxRespond_target {f : Nat} (hreach : mboxReach d f c = true) (htarget : mboxIsTarget d f c = true) :
    mboxRespond d (some f) c = mboxFinish d c := by simp [mboxRespond, hreach, htarget]

theorem mboxRespond_unknown (hasked : fwAsked d c = true) (hunknown : fwKnown (mboxWord d c 0) = false) :
    mboxRespond d none c = fwReply d c [0xFFFFFFFE] := by simp [mboxRespond, hasked, hunknown]

theorem mboxTimeout_busy (hchan : c < 64) (hbusy : mboxBusy d c = true) : mboxTimeout d c =
    mboxNotify (mboxClear (rset (rset d Fld.MBOX_STATUS_BUSY c 0) Fld.MBOX_STATUS_TIMEOUT c 1) c) c 8 := by
  simp [mboxTimeout, Nat.not_le.2 hchan, hbusy]

end

/-- Settles O47, by the equations above. -/
theorem mailboxRequestsRunTheirCourse : Obligations.MailboxRequestsRunTheirCourse := by
  intro s f c d hreach hd
  refine ⟨fun hother howner hidle => ?requests, fun htarget => ?responds, fun hasked hunknown => ?unknown,
    fun hchan hbusy => ?timeout⟩
  case requests =>
    have hgo {target : Nat} (htarget : target < 4) := mboxWrite_go hreach hd hother howner hidle htarget
    refine ⟨fun w v hw => ?claim, fun target irq htarget => ?start, ?firmware, ?service, ?down, ?release⟩
    case claim => rw [exec_mboxClaim, if_pos hw, mboxWrite_data hreach hd hother howner hidle hw]
    case start => rw [exec_mboxGo, hgo htarget]
    case firmware =>
      rintro irq _ rfl htarget hready hactive
      rw [exec_mboxGo, hgo (by decide), mboxStart_firmware htarget hready hactive]
    case service =>
      rintro irq _ hchan rfl htarget hready
      rw [exec_mboxGo, hgo (by decide), mboxStart_service hchan htarget hready]
    case down =>
      rintro irq _ rfl htarget hready
      rw [exec_mboxGo, hgo (by decide), mboxStart_down htarget hready, mboxDown]
    case release => rw [exec_mboxRelease, mboxWrite_release hreach hd hother howner hidle]
  case responds => rw [exec_mboxRespond, mboxRespond_target hreach htarget, mboxFinish]
  case unknown => rw [exec_mboxRespond, mboxRespond_unknown hasked hunknown]
  case timeout => rw [exec_mboxTimeout, mboxTimeout_busy hchan hbusy]

/-! ## The firmware's commands (R463, R464, R494, R495) -/

theorem exec_version (c : Nat) (s : State) : exec (.version c) s = .next (s.store (fwVersion s.dev c)) := rfl

theorem exec_logRead (c : Nat) (s : State) : exec (.logRead c) s = .next (s.store (fwLogRead s.dev c)) := rfl

theorem exec_fwStage (c : Nat) (r : ReadData) (s : State) :
    exec (.fwStage c r) s = .next (s.follow (fwStage s.cells s.dev c r)) := rfl

theorem exec_fwActivate (c : Nat) (s : State) : exec (.fwActivate c) s = .next (s.follow (fwActivate s.dev c)) := rfl

theorem exec_fwCommit (c : Nat) (s : State) : exec (.fwCommit c) s = .next (s.store (fwCommit s.dev c)) := rfl

theorem exec_if0Ctx (c : Nat) (s : State) : exec (.if0Ctx c) s = .next (s.follow (fwCtx s.cells s.dev c)) := rfl

section
variable {m : List Host.Cell} {d : Ix9} {c : Nat}

theorem fwVersion_answers (h : fwRequest d c 0x02 = true) : fwVersion d c = fwReply d c (0 :: versionWords d) := if_pos h

theorem fwLogRead_answers {w u t : Nat} (h : fwRequest d c 0x100 = true) (hchan : 32 ≤ c)
    (hrecord : d.rcv.log[mboxWord d c 1]? = some (w, u, t)) : fwLogRead d c = fwReply d c ([0, rget d Fld.LOG_COUNT] ++
      ((List.range 8).map (fun i => bits w (32 * i + 31) (32 * i)) ++ [u % 32 + t % 2 ^ 24 * 2 ^ 8])) := by
  simp only [fwLogRead, h, hrecord, Nat.not_lt.2 hchan, Bool.not_true, Bool.false_eq_true, if_false]

section
variable {r : ReadData} {b : List Byte} {p : Phys} (h : fwRequest d c 0x110 = true) (hchan : 32 ≤ c)
  (hlength : mboxWord d c 4 ≤ 2 ^ 23)
  (hp : p = Phys.mk (if flag (mboxWord d c 1) 0 then .landing else .host) (mboxWord d c 2 + mboxWord d c 3 * 2 ^ 32) 0 false false)
  (hread : memRead m d p (mboxWord d c 4) r = .ok b)
include h hchan hlength hp hread

theorem fwStage_unverified (hbad : imageOk d 1 b = false) : fwStage m d c r = fwReply d c [1] := by
  simp only [fwStage, h, Nat.not_lt.2 hchan, Nat.not_lt.2 hlength, ← hp, hread, hbad, Bool.not_true, Bool.not_false,
    Bool.false_eq_true, if_false, if_true]

section
variable (hok : imageOk d 1 b = true)
include hok

theorem fwStage_lacksLevel (hlevel : hasLevel (leNat ((b.drop 0x10).take 4)) (rget d Fld.BEHAV_LEVEL_CURRENT) = false) :
    fwStage m d c r = fwReply d c [2] := by
  simp only [fwStage, h, Nat.not_lt.2 hchan, Nat.not_lt.2 hlength, ← hp, hread, hok, hlevel, Bool.not_true, Bool.not_false,
    Bool.false_eq_true, if_false, if_true]

/-- An image that passes goes into the slot that does not run. -/
theorem fwStage_stores (hlevel : hasLevel (leNat ((b.drop 0x10).take 4)) (rget d Fld.BEHAV_LEVEL_CURRENT) = true) {img : FwImage}
    (himg : img = FwImage.mk (leNat ((b.drop 8).take 4)) (leNat ((b.drop 12).take 4)) (leNat ((b.drop 0x10).take 4) % 8)
      (Config.hash b)) : fwStage m d c r = fwReply (showStaged (if otherSlot d = 0 then
        { d with nvm := { d.nvm with slotA := some img } } else { d with nvm := { d.nvm with slotB := some img } })) c [0] := by
  simp only [fwStage, h, Nat.not_lt.2 hchan, Nat.not_lt.2 hlength, ← hp, hread, hok, hlevel, ← himg, Bool.not_true,
    Bool.false_eq_true, if_false]

end

end

theorem fwActivate_begins {b : Ix9} (h : fwRequest d c 0x111 = true) (hchan : 32 ≤ c) (hstaged : rflag d Fld.FW_STATUS_STAGED = true)
    (hb : b = fwReply d c [0]) : fwActivate d c =
      rset { b with boot := { b.boot with activate := some (otherSlot b) } } Fld.FW_STATUS_ACTIVATING 0 1 := by
  simp only [fwActivate, h, Nat.not_lt.2 hchan, hstaged, ← hb, Bool.not_true, Bool.false_eq_true, if_false]

theorem fwCommit_commits {n : Nat} (h : fwRequest d c 0x112 = true) (hchan : 32 ≤ c) (hn : n = rget d Fld.FW_STATUS_RUNNING) :
    fwCommit d c = fwReply (rset { d with nvm := { d.nvm with
      boot := n, svn := max d.nvm.svn (((slotImage d n).map (·.svn)).getD 0) } } Fld.FW_STATUS_BOOT 0 n) c [0] := by
  simp only [fwCommit, h, Nat.not_lt.2 hchan, ← hn, Bool.not_true, Bool.false_eq_true, if_false]

/-- IF0_CTX from IF0, for an entry of its own, writes the entry and asks for the invalidation of its context. -/
theorem fwCtx_writes {b : List Byte} {asid : Nat} {p : Phys} (h : fwRequest d c 0x10 = true) (hchan : c < 32)
    (howner : mboxOwner d c = fIF0) (hkind : flag (mboxWord d c 1) 0 = false) (hasid : asid = mboxWord d c 2)
    (hlo : d.nvm.asids.1 ≤ asid) (hhi : asid < d.nvm.asids.1 + d.nvm.asids.2)
    (hread : lmRead m d fIF0 (mboxWord d c 3 + mboxWord d c 4 * 2 ^ 32) 32 = .ok b) (hfunc : bits (leNat b) 25 16 = fIF0)
    (hp : p = Phys.mk (if rget d Fld.XLATE_ASID_BASE_LOC = 1 then .landing else .host)
      (rget d Fld.XLATE_ASID_BASE_ADDR * 4096 + 32 * asid) 0 false false) :
    fwCtx m d c = invSteps (askInv (memWrite d p b).1 ⟨.fw c, 2, asid, 0, 2 ^ 52, fIF0⟩) := by
  subst hasid hp
  simp only [fwCtx, h, howner, hkind, hread, hfunc, Nat.not_le.2 hchan, Nat.not_lt.2 hlo, Nat.not_le.2 hhi, bne_self_eq_false,
    Bool.not_true, Bool.or_self, Bool.and_false, decide_false, Bool.false_eq_true, if_false]

end

/-- Settles O48, by the equations above. -/
theorem firmwareAnswersItsCommands : Obligations.FirmwareAnswersItsCommands := by
  intro s c
  refine ⟨fun h => ?version, fun w u t h hchan hrecord => ?log, fun r b img p h hchan hlength hp hread himg => ?stage,
    fun d h hchan hstaged hd => ?activate, fun n h hchan hn => ?commit,
    fun b asid p h hchan howner hkind hasid hlo hhi hread hfunc hp => ?context⟩
  case version => rw [exec_version, fwVersion_answers h]
  case log => rw [exec_logRead, fwLogRead_answers h hchan hrecord]
  case stage =>
    refine ⟨fun hbad => ?unverified, fun hok hlevel => ?lacksLevel, fun hok hlevel => ?stores⟩
    case unverified => rw [exec_fwStage, fwStage_unverified h hchan hlength hp hread hbad]
    case lacksLevel => rw [exec_fwStage, fwStage_lacksLevel h hchan hlength hp hread hok hlevel]
    case stores =>
      have hrun := fwStage_stores h hchan hlength hp hread hok hlevel himg
      refine ⟨fun hslot => ?_, fun hslot => ?_⟩
      · rw [exec_fwStage, hrun, if_pos hslot]
      · rw [exec_fwStage, hrun, if_neg hslot]
  case activate => rw [exec_fwActivate, fwActivate_begins h hchan hstaged hd]
  case commit => rw [exec_fwCommit, fwCommit_commits h hchan hn]
  case context => rw [exec_if0Ctx, fwCtx_writes h hchan howner hkind hasid hlo hhi hread hfunc hp]

/-! ## The management island (R457, R480, R495, R496) -/

theorem exec_fwActivationDone (s : State) : exec .fwActivationDone s = .next (s.follow (activationDone s.dev)) := rfl

theorem exec_fwActivationRollback (s : State) :
    exec .fwActivationRollback s = .next (s.follow (activationBack s.dev)) := rfl

theorem exec_lockstepMismatch (s : State) : exec .lockstepMismatch s = .next (s.follow (lockstep s.dev)) := rfl

/-- The watchdog restarts the island. -/
theorem exec_mgmtWatchdog (s : State) : exec .mgmtWatchdog s = .next (s.follow (mgmtRestart s.dev 0x02)) := rfl

theorem exec_mgmtReloadDone (s : State) : exec .mgmtReloadDone s = .next (s.follow (mgmtReload s.dev)) := rfl

section
variable {d : Ix9}

theorem activationDone_runs {n : Nat} (hslot : d.boot.activate = some n) (hactive : rflag d Fld.FW_STATUS_ACTIVATING = true) :
    activationDone d = bootLine (showStaged (rset (rset { d with boot := { d.boot with activate := none } }
      Fld.FW_STATUS_RUNNING 0 n) Fld.FW_STATUS_ACTIVATING 0 0)) 4 := by
  simp only [activationDone, hslot, hactive, Bool.not_true, Bool.false_eq_true, if_false]

theorem activationBack_rolls (hactive : rflag d Fld.FW_STATUS_ACTIVATING = true) : activationBack d =
    errorAt (rset (rset { d with boot := { d.boot with activate := none } } Fld.FW_STATUS_ACTIVATING 0 0)
      Fld.FW_STATUS_ROLLED_BACK 0 1) { unit := uMGMT, code := 0x0B } none := by
  simp only [activationBack, hactive, Bool.not_true, Bool.false_eq_true, if_false]

theorem lockstep_active (h : rflag d Fld.FW_STATUS_ACTIVATING = true) : lockstep d = activationBack d := if_pos h

theorem lockstep_inactive (h : rflag d Fld.FW_STATUS_ACTIVATING = false) : lockstep d = mgmtRestart d 0x04 :=
  if_neg (Bool.not_eq_true _ ▸ h)

@[simp] theorem showSlots_ciph (d : Ix9) : (showSlots d).ciph = d.ciph := rfl
@[simp] theorem showSlots_ready (d : Ix9) : (showSlots d).ready = d.ready := rfl
@[simp] theorem showSlots_boot (d : Ix9) : (showSlots d).boot = d.boot := rfl

/-- A restart erases the tenant slots and leaves the island not ready, its event waiting. -/
theorem mgmtRestart_erases (hready : islandReady d 0 = true) (code : Nat) : (mgmtRestart d code).ciph.slots = [] ∧
    islandReady (mgmtRestart d code) 0 = false ∧ (mgmtRestart d code).boot.mgmtEvent = some code := by
  simp only [mgmtRestart, hready, Bool.not_true, Bool.false_eq_true, if_false]
  exact ⟨rfl, by simp [islandReady, updCiph], rfl⟩

theorem mgmtReload_readies {code : Nat} {b : Ix9} (hevent : d.boot.mgmtEvent = some code)
    (hb : b = { d with ready := insertNat d.ready 0, boot := { d.boot with mgmtEvent := none } }) : mgmtReload d =
      bootLine (pf0Event (showStaged (rset b Fld.FW_STATUS_RUNNING 0 (rget b Fld.FW_STATUS_BOOT))) EV_DEVICE uMGMT code) 0 := by
  simp only [mgmtReload, hevent, hb]

end

/-- Settles O49, by the equations above. That a restart by the watchdog is recorded with code 0x02 at level 0 is the model's
choice (log entry 42). -/
theorem managementIslandActivatesAndRestarts : Obligations.ManagementIslandActivatesAndRestarts := by
  intro s
  refine ⟨fun n hslot hactive => ?done, fun d hactive hd => ⟨?rollback, ?mismatchRollsBack⟩, fun _ hactive => ?mismatch,
    fun _ => exec_mgmtWatchdog s, fun hready => mgmtRestart_erases hready, fun code d hevent hd => ?reload⟩
  case done => rw [exec_fwActivationDone, activationDone_runs hslot hactive]
  case rollback => rw [exec_fwActivationRollback, activationBack_rolls hactive, hd]
  case mismatchRollsBack => rw [exec_lockstepMismatch, lockstep_active hactive, activationBack_rolls hactive, hd]
  case mismatch => rw [exec_lockstepMismatch, lockstep_inactive hactive]
  case reload => rw [exec_mgmtReloadDone, mgmtReload_readies hevent hd]

/-! ## Service cores (R450 to R453) -/

theorem exec_svcRestart (v : Nat) (s : State) : exec (.svcRestart v) s =
    .next (s.follow (if wrote s.dev 0 Fld.SVC_CTRL_RESTART 0 then svcRestart s.dev v else s.dev)) := rfl

theorem exec_serviceImageReadDone (image blob : List Byte) (s : State) :
    exec (.serviceImageReadDone image blob) s = .next (s.follow (svcImage s.dev image blob)) := rfl

theorem exec_hartLandingAccess (hart off n : Nat) (store : Option (List Byte)) (r : ReadData) (s : State) :
    exec (.hartLandingAccess hart off n store r) s =
      .next (s.follow (hartAccess s.cells s.dev hart off n store r)) := rfl

section
variable {d : Ix9} {v : Nat} (hready : unitReady d uSVC = true)
include hready

theorem svcRestart_some (h : v % 2 ^ tilesOf d.code ≠ svcAll d) : svcRestart d v =
    ((List.range (tilesOf d.code)).filter (flag v)).foldl (fun d n => askReset d { level := 3, tile := n, engine := 6 }) d := by
  simp only [svcRestart, hready, h, Bool.not_true, Bool.false_eq_true, if_false]

/-- A restart of every fitted island resets IF0 too. -/
theorem svcRestart_all (h : v % 2 ^ tilesOf d.code = svcAll d) {b : Ix9}
    (hb : b = rset (rset d Fld.SVC_STATUS_RUNNING 0 0) Fld.SVC_STATUS_IMAGE_OK 0 0) : svcRestart d v = funcResetBegin { b with
      ready := b.ready.filter (fun i => !((List.range 4).map iSVC).contains i), boot := { b.boot with svcWait := true } } fIF0 := by
  simp only [svcRestart, hready, h, ← hb, Bool.not_true, Bool.false_eq_true, if_false, if_true]

end

section
variable {d b : Ix9} {image blob p : List Byte} {lvl : Nat} (hwait : d.boot.svcWait = true) (hstage : 2 ≤ d.boot.stage)
  (hreset : (funcOf d fIF0).resetting = false) (hmemory : stacksOf d.code = 0 ∨ unitReady d (uHBM 0) = true)
  (hb : b = { d with boot := { d.boot with svcWait := false } })
  (hp : p = (image.drop 0x200).take (leNat ((image.drop 0x14).take 4))) (hlvl : lvl = leNat ((image.drop 0x10).take 4))
include hwait hstage hreset hmemory hb hp hlvl

/-- An image that verifies, provides the level and fits is written with its blob, and the live tiles' harts run. -/
theorem svcImage_runs (hlength : p.length + blob.length ≤ svcSpace b)
    (hplace : leNat ((image.drop 0x18).take 4) + blob.length ≤ svcSpace b) (hok : imageOk b 2 image = true)
    (hlevel : hasLevel lvl (rget b Fld.BEHAV_LEVEL_CURRENT) = true) {e g : Ix9}
    (he : e = svcWrite (svcWrite b 0 p) (leNat ((image.drop 0x18).take 4)) blob)
    (hg : g = rset (rset e Fld.SVC_STATUS_IMAGE_OK 0 1) Fld.SVC_STATUS_RUNNING 0
      ((liveTiles e).foldl (fun a n => a + 255 * 2 ^ (8 * n)) 0)) : svcImage d image blob = { g with
      ready := ((liveTiles e).map iSVC).foldl insertNat g.ready, boot := { g.boot with svcImage := Config.hash image } } := by
  have hpayload : ¬ svcSpace b < p.length := by omega
  have hnoMemory : (stacksOf d.code != 0 && !unitReady d (uHBM 0)) = false := by
    rcases hmemory with h | h <;> simp [h]
  simp only [svcImage, hwait, Nat.not_lt.2 hstage, hreset, hnoMemory, ← hb, ← hp, ← hlvl, hok, hlevel, hpayload,
    Nat.not_lt.2 hlength, Nat.not_lt.2 hplace, ← he, ← hg, Bool.not_true, Bool.or_self, decide_false, Bool.false_eq_true, if_false]

omit hp in
theorem svcImage_fails (hbad : imageOk b 2 image = false ∨ hasLevel lvl (rget b Fld.BEHAV_LEVEL_CURRENT) = false) :
    svcImage d image blob = errorAt (rset b Fld.SVC_STATUS_IMAGE_OK 0 0) { unit := uSVC, code := 0x07 } none := by
  have hrefused : (!imageOk b 2 image || !hasLevel lvl (rget b Fld.BEHAV_LEVEL_CURRENT)) = true := by
    rcases hbad with h | h <;> simp [h]
  have hnoMemory : (stacksOf d.code != 0 && !unitReady d (uHBM 0)) = false := by
    rcases hmemory with h | h <;> simp [h]
  simp only [svcImage, hwait, Nat.not_lt.2 hstage, hreset, hnoMemory, ← hb, ← hlvl, hrefused, Bool.true_or, Bool.not_true,
    Bool.or_self, decide_false, Bool.false_eq_true, if_false, if_true]

end

section
variable {m : List Host.Cell} {d : Ix9} {hart off n : Nat} {r : ReadData} (hruns : hartRuns d hart = true)
include hruns

theorem hartAccess_loads {p : Phys} {b : List Byte} (hplace : hartPlace d off n = some p) (hread : memRead m d p n r = .ok b) :
    hartAccess m d hart off n none r = emit d (.hart false b) := by
  simp only [hartAccess, hruns, hplace, hread, Bool.not_true, Bool.false_eq_true, if_false]

theorem hartAccess_stores {p : Phys} {b : List Byte} {e : Ix9} (hplace : hartPlace d off b.length = some p)
    (hwrite : memWrite d p b = (e, false)) : hartAccess m d hart off n (some b) r = emit e (.hart false []) := by
  simp only [hartAccess, hruns, hplace, hwrite, Bool.not_true, Bool.false_eq_true, if_false]

theorem hartAccess_faults (hplace : hartPlace d off n = none) :
    hartAccess m d hart off n none r = emit d (.hart true []) := by
  simp only [hartAccess, hruns, hplace, Bool.not_true, Bool.false_eq_true, if_false]

end

/-! ## The transmit ring of the exception path (R454, R456) -/

theorem exec_excTxProdWrite (v : Nat) (s : State) :
    exec (.excTxProdWrite v) s = .next (s.follow (excTxProd s.cells s.dev v)) := rfl

theorem exec_excTxRecordDone (s : State) : exec .excTxRecordDone s = .next (s.follow (excTxDone s.cells s.dev)) := rfl

theorem excTxProd_takes {d : Ix9} (h : (funcOf d fIF0).resetting = false) (m : List Host.Cell) (v : Nat) : excTxProd m d v =
    excTxTake m (excTxSize d / 64 + 1) (rset d Fld.EXC_TX_PROD 0 v) := by
  simp only [excTxProd, h, Bool.false_eq_true, if_false]

/-- A whole record before PROD is taken, and its frame handed to its port. -/
theorem excTxTake_takes {m : List Host.Cell} {n : Nat} {d : Ix9} {at_ w len : Nat} (hat : at_ = d.io.excTaken)
    (hhead : excTxHead m d at_ = some w) (hlen : len = excTxLen d at_ w)
    (hwhole : len ≤ (rget d Fld.EXC_TX_PROD + 2 ^ 32 - at_) % 2 ^ 32)
    (hsome : 0 < (rget d Fld.EXC_TX_PROD + 2 ^ 32 - at_) % 2 ^ 32) : excTxTake m (n + 1) d =
      excTxTake m n (excTxSend m { d with
        io := { d.io with excTaken := (at_ + len) % 2 ^ 32 }
        net := { d.net with txTimes := drop d.net.txTimes (at_ % excTxSize d) } } at_ w) := by
  rw [excTxTake]
  simp only [← hat, hhead, ← hlen, Nat.not_lt.2 hwhole, Nat.ne_of_gt hsome, decide_false, Bool.or_self, Bool.false_eq_true,
    if_false]

/-- With every record taken nothing is left to take. -/
theorem excTxTake_none {m : List Host.Cell} {d : Ix9} (hprod : rget d Fld.EXC_TX_PROD = d.io.excTaken) (n : Nat) :
    excTxTake m n d = d := by
  have hleft : (d.io.excTaken + 2 ^ 32 - d.io.excTaken) % 2 ^ 32 = 0 := by omega
  cases n with
  | zero => rw [excTxTake]
  | succ n =>
    rw [excTxTake]
    cases hhead : excTxHead m d d.io.excTaken with
    | none => rfl
    | some w => simp only [hprod, hleft, decide_true, Bool.or_true, if_true]

/-- The first 8 bytes of a record after its frame was sent at `t`, with the time, or was not (R456). -/
def excTxHeader (w : Nat) : Option Nat → List Byte
  | some t => leBytes 8 (setBit w 29 true) ++ (leBytes 8 (t % 10 ^ 9) ++ leBytes 8 (t / 10 ^ 9 % 2 ^ 48))
  | none => leBytes 8 (setBit w 30 true)

/-- The oldest record, its frame no longer waiting, is rewritten, and CONS advances; at PROD the ring's interrupt is sent. -/
theorem excTxDone_advances {m : List Host.Cell} {d b e : Ix9} {at_ off w next : Nat} (hat : at_ = rget d Fld.EXC_TX_CONS)
    (hoff : off = at_ % excTxSize d) (htaken : at_ ≠ d.io.excTaken) (hwaits : excTxWaits d off = false)
    (hhead : excTxHead m d at_ = some w) (hpad : flag w 31 = false)
    (hb : b = (lmWrite d fIF0 (rget d Fld.EXC_TX_BASE * 4096 + off) (excTxHeader w (look d.net.txTimes off))).1)
    (hnext : next = (at_ + excTxLen b at_ w) % 2 ^ 32)
    (he : e = rset { b with net := { b.net with txTimes := drop b.net.txTimes off } } Fld.EXC_TX_CONS 0 next) :
    excTxDone m d = if next = rget e Fld.EXC_TX_PROD then msixSend e fIF0 (rget e Fld.EXC_TX_CFG_VECTOR) else e := by
  cases hlook : look d.net.txTimes off with
  | none =>
    simp only [hlook, excTxHeader] at hb
    simp only [excTxDone, ← hat, ← hoff, htaken, hwaits, hhead, hpad, hlook, List.append_nil, ← hb, ← hnext, ← he, decide_false,
      Bool.or_self, Bool.false_eq_true, if_false]
  | some t =>
    simp only [hlook, excTxHeader] at hb
    simp only [excTxDone, ← hat, ← hoff, htaken, hwaits, hhead, hpad, hlook, ← hb, ← hnext, ← he, decide_false, Bool.or_self,
      Bool.false_eq_true, if_false]

/-- Settles O50, by the equations above. That a record's ERR rewrites its first 8 bytes alone, and the unit and code of an
image failure, are the model's choice (log entry 41), and so is that a hart's store reaches memory at once (log entry 29). -/
theorem serviceHartsRunAndTransmit : Obligations.ServiceHartsRunAndTransmit := by
  intro s
  refine ⟨fun v hwrote hready => ⟨fun h => ?some, fun d h hd => ?all⟩, ?image,
    fun hart off n r hruns => ⟨fun p b hplace hread => ?loads, fun p b d hplace hwrite => ?stores, fun hplace => ?faults⟩,
    fun v hreset => ?prod, fun n d at_ w len hat hhead hlen hwhole hsome => excTxTake_takes hat hhead hlen hwhole hsome,
    fun n d hprod _ => excTxTake_none hprod n, ?done⟩
  case some => rw [exec_svcRestart, if_pos hwrote, svcRestart_some hready h]
  case all => rw [exec_svcRestart, if_pos hwrote, svcRestart_all hready h hd]
  case image =>
    intro image blob d p lvl hwait hstage hreset hmemory hd hp hlvl hlength hplace e he g hg
    refine ⟨fun hok hlevel => ?_, fun hbad => ?_⟩
    · rw [exec_serviceImageReadDone,
        svcImage_runs hwait hstage hreset hmemory hd hp hlvl hlength hplace hok hlevel he hg]
    · rw [exec_serviceImageReadDone, svcImage_fails hwait hstage hreset hmemory hd hlvl hbad]
  case loads => rw [exec_hartLandingAccess, hartAccess_loads hruns hplace hread]
  case stores => rw [exec_hartLandingAccess, hartAccess_stores hruns hplace hwrite]
  case faults => rw [exec_hartLandingAccess, hartAccess_faults hruns hplace]
  case prod => rw [exec_excTxProdWrite, excTxProd_takes hreset]
  case done =>
    intro at_ off w d next e hat hoff htaken hwaits hhead hpad hd hnext he
    have hrun := excTxDone_advances hat hoff htaken hwaits hhead hpad (hd _ (by cases look s.dev.net.txTimes off <;> rfl)) hnext he
    refine ⟨fun hmore => ?_, fun hlast => ?_⟩
    · rw [exec_excTxRecordDone, hrun, if_neg hmore]
    · rw [exec_excTxRecordDone, hrun, if_pos hlast]

end Sys2Proof.Machine
end

section
/-!
SUPPORT and proofs, family 18_errors_and_recovery: hangs, RAM and link errors (R474 to R481) and the requests for resets and
their ends (R478, R483 to R485, R504). What each command runs and one equation for each case of an operation come first in each
part, then the statement.
-/

namespace Sys2Proof.Machine

/-! ## Hangs, RAM and link errors (R474, R477, R480) -/

theorem exec_progressWindowExpiry (u : HangUnit) (s : State) :
    exec (.progressWindowExpiry u) s = .next (s.follow (hang s.dev u)) := rfl

theorem exec_uncorrectableRamError (i e ram : Nat) (s : State) :
    exec (.uncorrectableRamError i e ram) s = .next (s.follow (ramError s.dev i e ram)) := rfl

theorem exec_d2dLinkError (i : Nat) (s : State) : exec (.d2dLinkError i) s = .next (s.follow
    (errorAt s.dev { unit := islandUnit s.dev i, code := 0x05, level := 5, island := i } (some { level := 5 }))) := rfl

section
variable {d : Ix9}

theorem hang_engine {t e : Nat} (ht : t < tilesOf d.code) (he : e < 6) (hwork : pendingWork d (.engine t e) = true) :
    hang d (.engine t e) = errorAt (count d Fld.HANG_COUNT t)
      { unit := uTILE t, code := 0x02, level := 3, engine := e, island := engineIsland t e }
      (some { level := 3, tile := t, engine := e, hang := true }) := by
  simp only [hang, hwork, Nat.not_le.2 ht, Nat.not_le.2 he, Bool.not_true, Bool.or_self, decide_false, Bool.false_eq_true,
    if_false]

theorem hang_queue {k : Nat} {q : Sq} (hq : sqAt d k = some q) (hwork : pendingWork d (.queue k) = true) :
    hang d (.queue k) = errorAt (count d Fld.HANG_COUNT q.tile)
      { unit := uTILE q.tile, code := 0x02, level := 1, func := q.func, sq := some (sqIdOf k), island := iXPORT q.tile }
      (some { level := 1, tile := q.tile, target := k, hang := true }) := by
  simp only [hang, hwork, hq, Bool.not_true, Bool.false_eq_true, if_false]

section
variable {i : Nat} (hfitted : (fittedIslands d.code).contains i = true)
include hfitted

theorem hang_island (hwork : pendingWork d (.island i) = true) : hang d (.island i) =
    errorAt (count d Fld.HANG_OTHER) { unit := islandUnit d i, code := 0x02, level := 5, island := i }
      (some { level := 5, hang := true }) := by
  simp only [hang, hwork, hfitted, Bool.not_true, Bool.false_eq_true, if_false]

/-- Islands 12 to 31 are those of the tiles, five to a tile (R15). -/
theorem ramError_tile (hlo : 12 ≤ i) (hhi : i < 32) (e ram : Nat) : ramError d i e ram =
    errorAt d { unit := uTILE ((i - 12) / 5), code := 0x01, level := if e < 7 then 3 else 4, engine := e, island := i, detail := ram }
      (some { level := if e < 7 then 3 else 4, tile := (i - 12) / 5, engine := e }) := by
  simp only [ramError, hfitted, hlo, hhi, Bool.not_true, Bool.and_self, decide_true, Bool.false_eq_true, if_false, if_true]

theorem ramError_outside (hout : i < 12) (e ram : Nat) : ramError d i e ram =
    errorAt d { unit := islandUnit d i, code := 0x01, level := 5, island := i, detail := ram } (some { level := 5 }) := by
  simp only [ramError, hfitted, Nat.not_le.2 hout, Bool.not_true, Bool.false_and, decide_false, Bool.false_eq_true, if_false]

end

end

/-! ## Requests for resets (R483, R504) -/

theorem exec_engResetGo (t e : Nat) (s : State) : exec (.engResetGo t e) s =
    .next (s.follow (if wrote s.dev 0 Fld.ENG_RESET_GO 0 then engResetGo s.dev t e else s.dev)) := rfl

theorem exec_queueResetGo (k : Nat) (s : State) : exec (.queueResetGo k) s =
    .next (s.follow (if wrote s.dev 0 Fld.QUEUE_RESET_GO 0 then queueResetGo s.dev k else s.dev)) := rfl

theorem exec_resetCtrlWarm (key : Nat) (s : State) : exec (.resetCtrlWarm key) s =
    .next (s.follow (if wrote s.dev 0 Fld.RESET_CTRL_WARM 0 then resetCtrl s.dev false key else s.dev)) := rfl

theorem exec_resetCtrlCold (key : Nat) (s : State) : exec (.resetCtrlCold key) s =
    .next (s.follow (if wrote s.dev 0 Fld.RESET_CTRL_COLD 0 then resetCtrl s.dev true key else s.dev)) := rfl

theorem resetCtrl_keyed (d : Ix9) (cold : Bool) : resetCtrl d cold 0xC0DE =
    askReset d { level := if cold then 6 else 5, last := if cold then 1 else 2 } := by
  simp only [resetCtrl, bne_self_eq_false, Bool.false_eq_true, if_false]

theorem resetCtrl_unkeyed {key : Nat} (h : key ≠ 0xC0DE) (d : Ix9) (cold : Bool) : resetCtrl d cold key = d := by
  simp [resetCtrl, h]

/-! ## Ends of resets (R478, R485) -/

theorem exec_resetDone (level tile engine target : Nat) (s : State) :
    exec (.resetDone level tile engine target) s = .next (s.follow (resetDone s.dev level tile engine target)) := rfl

theorem exec_resetBoundExpiry (level tile engine target : Nat) (s : State) :
    exec (.resetBoundExpiry level tile engine target) s =
      .next (s.follow (resetBound s.dev level tile engine target)) := rfl

section
variable {d : Ix9} {k : Nat} {r : Reset} (h : d.rcv.resets.find? (fun r => r.due.level == 1 && r.due.target == k) = some r)
  (tile engine : Nat)
include h

/-- The reset of a queue is over once no entry that it stopped still runs. -/
theorem resetDone_queue (hquiet : ∀ x ∈ r.left, stillRuns d x = false) : resetDone d 1 tile engine k =
    { d with rcv := { d.rcv with resets := d.rcv.resets.filter (fun o => o != r) } } := by
  have hnone : r.left.any (stillRuns d) = false := List.any_eq_false.2 fun x hx => by simp [hquiet x hx]
  simp only [resetDone, h, hnone, Bool.false_eq_true, if_false, if_true]

theorem resetBound_queue : resetBound d 1 tile engine k =
    escalate { d with rcv := { d.rcv with resets := d.rcv.resets.filter (fun o => o != r) } } 0x06 r.due.code r.due := by
  simp only [resetBound, h, if_true, if_false, (by decide : ¬ (1 : Nat) = 2), (by decide : ¬ (1 : Nat) = 5)]

end

/-- Settles O52, by the equations above. The unit that records a die-to-die error and the engine that a queue's hang names are
the model's choice (log entry 44). -/
theorem errorsAndResetRequestsAreTaken : Obligations.ErrorsAndResetRequestsAreTaken := by
  intro s t e
  refine ⟨fun ht he hwork => ?engine, fun k q hq hwork => ?queue, fun i hfitted hwork => ?island,
    fun i ram hfitted => ⟨fun hlo hhi he => ?ramEngine, fun hlo hhi he => ?ramTile, fun hout => ?ramOutside⟩,
    fun i => exec_d2dLinkError i s, fun hwrote => ?engReset, fun k d hwrote hd => ?queueReset,
    fun hwrote => ⟨?warm, fun key hkey => ?warmUnkeyed⟩, fun hwrote => ⟨?cold, fun key hkey => ?coldUnkeyed⟩,
    fun k r h => ⟨fun hquiet => ?resetEnds, ?resetOverruns⟩⟩
  case engine => rw [exec_progressWindowExpiry, hang_engine ht he hwork]
  case queue => rw [exec_progressWindowExpiry, hang_queue hq hwork]
  case island => rw [exec_progressWindowExpiry, hang_island hfitted hwork]
  case ramEngine => rw [exec_uncorrectableRamError, ramError_tile hfitted hlo hhi, if_pos he]
  case ramTile => rw [exec_uncorrectableRamError, ramError_tile hfitted hlo hhi, if_neg (Nat.not_lt.2 he)]
  case ramOutside => rw [exec_uncorrectableRamError, ramError_outside hfitted hout]
  case engReset =>
    rw [exec_engResetGo, if_pos hwrote]
    rfl
  case queueReset => rw [exec_queueResetGo, if_pos hwrote, queueResetGo, hd]
  case warm =>
    rw [exec_resetCtrlWarm, if_pos hwrote, resetCtrl_keyed]
    rfl
  case warmUnkeyed => rw [exec_resetCtrlWarm, if_pos hwrote, resetCtrl_unkeyed hkey]
  case cold =>
    rw [exec_resetCtrlCold, if_pos hwrote, resetCtrl_keyed]
    rfl
  case coldUnkeyed => rw [exec_resetCtrlCold, if_pos hwrote, resetCtrl_unkeyed hkey]
  case resetEnds => rw [exec_resetDone, resetDone_queue h t e hquiet]
  case resetOverruns => rw [exec_resetBoundExpiry, resetBound_queue h t e]

end Sys2Proof.Machine
end

section
/-!
SUPPORT and proofs, families 20_pcie_ports and 17_service_and_management_cores: the accelerator ports (R532 to R535, R539, R545,
R550) and the side band (R468, R546 to R548, R577, R578). What each command runs and one equation for each case of an operation
come first in each part, then the statement.
-/

namespace Sys2Proof.Machine

/-! ## Links of the accelerator ports (R539, R545, R550) -/

theorem exec_accelLinkUp (n sub speed width : Nat) (flit : Bool) (s : State) :
    exec (.accelLinkUp n sub speed width flit) s = .next (s.follow (accelUp s.dev n sub speed width flit)) := rfl

theorem exec_discoveryDone (n sub : Nat) (a b c e : Bool) (s : State) :
    exec (.discoveryDone n sub a b c e) s = .next (s.follow (discoveryDone s.dev n sub a b c e)) := rfl

theorem exec_accelLinkLoss (n sub : Nat) (s : State) :
    exec (.accelLinkLoss n sub) s = .next (s.follow (accelLoss s.dev n sub)) := rfl

theorem exec_accPortRescan (n : Nat) (s : State) : exec (.accPortRescan n) s =
    .next (s.follow (if wrote s.dev 0 Fld.ACC_PORT_CTRL_RESCAN n then rescan s.dev n else s.dev)) := rfl

theorem exec_dpcRelease (n : Nat) (s : State) : exec (.dpcRelease n) s =
    .next (s.follow (if wrote s.dev 0 Fld.ACC_PORT_CTRL_DPC_RELEASE n then dpcRelease s.dev n else s.dev)) := rfl

theorem exec_aerMessageReceived (n sub : Nat) (s : State) :
    exec (.aerMessageReceived n sub) s = .next (s.follow (aerMessage s.dev n sub)) := rfl

theorem exec_errFatalReceived (n sub : Nat) (s : State) :
    exec (.errFatalReceived n sub) s = .next (s.follow (errFatal s.dev n sub)) := rfl

/-- The status of a sublink whose link has come up. -/
def linkRisen (d : Ix9) (i speed width : Nat) (flit : Bool) : Ix9 :=
  rset (rset (rset (rset d Fld.PCIE_LINK_STATUS_DL_UP i 1) Fld.PCIE_LINK_STATUS_SPEED i speed) Fld.PCIE_LINK_STATUS_WIDTH i width)
    Fld.PCIE_LINK_STATUS_FLIT i (b2n flit)

/-- The status and the count of a sublink whose link has gone down. -/
def linkFallen (d : Ix9) (i : Nat) : Ix9 := count (rset d Fld.PCIE_LINK_STATUS_DL_UP i 0) Fld.PCIE_LINK_DOWNS i

/-- The end of a link loss: no discovery, the failure of what waits on the path, the record and the event (R550). -/
def linkLost (d : Ix9) (n sub : Nat) : Ix9 :=
  pf0Event (errorAt (pathLost { d with io := { d.io with scanning := d.io.scanning.filter (· != subKey n sub) } } (.accel n sub))
    { unit := uACCEL n, code := 0x0A, island := 8 + n } none) EV_PORT (uACCEL n) (sub + 5 * 2 ^ 8)

/-- Four ports of two sublinks each follow the host port in the registers of the sublinks. -/
theorem subKey_lt_of_accExists {d : Ix9} {n sub : Nat} (h : accExists d n sub = true) : subKey n sub < 10 := by
  simp only [accExists, Bool.and_eq_true, Bool.or_eq_true, decide_eq_true_eq] at h
  obtain ⟨⟨hn, -⟩, hsub⟩ := h
  have : sub ≤ 1 := by omega
  simp only [subKey]
  omega

/-- The fall of a link leaves the kind of its port. -/
theorem isRoot_linkFallen {i : Nat} (hi : i < 10) (d : Ix9) (n : Nat) : isRoot (linkFallen d i) n = isRoot d n := by
  have hstatus : regKey Fld.ACC_PORT_STATUS_EP n ≠ regKey Fld.PCIE_LINK_STATUS_DL_UP i := by
    simp only [regKey, Fld.ACC_PORT_STATUS_EP, Fld.PCIE_LINK_STATUS_DL_UP]
    omega
  have hdowns : regKey Fld.ACC_PORT_STATUS_EP n ≠ regKey Fld.PCIE_LINK_DOWNS i := by
    simp only [regKey, Fld.ACC_PORT_STATUS_EP, Fld.PCIE_LINK_DOWNS]
    omega
  simp only [isRoot, rflag, linkFallen, rget_count_ne _ _ _ _ _ _ hdowns, rget_rset_ne _ _ _ _ _ _ hstatus]

section
variable {d : Ix9} {n sub : Nat}

theorem discoveryDone_scanning (h : subKey n sub ∈ d.io.scanning) (a b c e : Bool) : discoveryDone d n sub a b c e =
    setUse { d with io := { d.io with scanning := d.io.scanning.filter (· != subKey n sub) } } (subKey n sub) a b c e := by
  simp only [discoveryDone, List.contains_iff_mem.2 h, Bool.not_true, Bool.false_eq_true, if_false]

section
variable (hexists : accExists d n sub = true)
include hexists

theorem accelUp_down (hready : islandReady d (8 + n) = true) (hdpc : subKey n sub ∉ d.io.dpc)
    (hdown : rflag d Fld.PCIE_LINK_STATUS_DL_UP (subKey n sub) = false) (speed width : Nat) (flit : Bool) :
    accelUp d n sub speed width flit =
      if isRoot (linkRisen d (subKey n sub) speed width flit) n then
        { setUse (linkRisen d (subKey n sub) speed width flit) (subKey n sub) false false false false with
          io := { d.io with scanning := insertNat d.io.scanning (subKey n sub) } }
      else linkRisen d (subKey n sub) speed width flit := by
  have hfree : d.io.dpc.contains (subKey n sub) = false := by simpa using hdpc
  simp only [accelUp, hexists, hready, hfree, hdown, Bool.not_true, Bool.or_self, Bool.false_eq_true, if_false]
  rfl

section
variable (hup : rflag d Fld.PCIE_LINK_STATUS_DL_UP (subKey n sub) = true)
include hup

theorem accelLoss_up : accelLoss d n sub =
    linkLost (if isRoot (linkFallen d (subKey n sub)) n then setUse (linkFallen d (subKey n sub)) (subKey n sub) false false false false
      else linkFallen d (subKey n sub)) n sub := by
  simp only [accelLoss, hexists, hup, Bool.not_true, Bool.or_self, Bool.false_eq_true, if_false]
  rfl

theorem accelLoss_root (hroot : isRoot d n = true) : accelLoss d n sub =
    linkLost (setUse (linkFallen d (subKey n sub)) (subKey n sub) false false false false) n sub := by
  have hstays : isRoot (linkFallen d (subKey n sub)) n = true := by rw [isRoot_linkFallen (subKey_lt_of_accExists hexists), hroot]
  rw [accelLoss_up hexists hup, if_pos hstays]

end

section
variable (hroot : isRoot d n = true)
include hroot

theorem aerMessage_root (hready : islandReady d (8 + n) = true) : aerMessage d n sub =
    errorAt (count d Fld.PCIE_AER_MSGS (subKey n sub)) { unit := uACCEL n, code := 0x0A, island := 8 + n } none := by
  simp only [aerMessage, hexists, hroot, hready, Bool.and_self, Bool.not_true, Bool.false_eq_true, if_false]

theorem errFatal_root (hup : rflag d Fld.PCIE_LINK_STATUS_DL_UP (subKey n sub) = true) : errFatal d n sub =
    accelLoss { aerMessage d n sub with
      io := { (aerMessage d n sub).io with dpc := insertNat (aerMessage d n sub).io.dpc (subKey n sub) } } n sub := by
  simp only [errFatal, hexists, hroot, hup, Bool.and_self, Bool.not_true, Bool.false_eq_true, if_false]

end

end

section
variable (hport : accExists d n 0 = true) (hroot : isRoot d n = true)
include hport hroot

theorem rescan_root : rescan d n = { d with io := { d.io with
    scanning := (([0, 1].map (subKey n)).filter (fun i => rflag d Fld.PCIE_LINK_STATUS_DL_UP i)).foldl insertNat d.io.scanning } } := by
  simp only [rescan, hport, hroot, Bool.and_self, Bool.not_true, Bool.false_eq_true, if_false]

theorem dpcRelease_root :
    dpcRelease d n = { d with io := { d.io with dpc := d.io.dpc.filter (fun i => i / 2 != n + 1) } } := by
  simp only [dpcRelease, hport, hroot, Bool.and_self, Bool.not_true, Bool.false_eq_true, if_false]

end

end

/-! ## Configuration accesses and inbound requests (R532 to R534) -/

theorem exec_accCfgDataAccess (n : Nat) (w answer : Option Nat) (s : State) : exec (.accCfgDataAccess n w answer) s =
    .next (s.only (if wrote s.dev 0 Fld.ACC_CFG_DATA n then accCfg s.dev n w answer else s.dev)) := rfl

theorem exec_inboundRequestDiscard (n sub : Nat) (posted : Bool) (s : State) :
    exec (.inboundRequestDiscard n sub posted) s = .next (s.only (inboundDiscard s.dev n sub posted)) := rfl

theorem exec_inboundDoorbellWrite (n sub addr : Nat) (whole dmwr : Bool) (v : Nat) (s : State) :
    exec (.inboundDoorbellWrite n sub addr whole dmwr v) s =
      .next (s.follow (inboundDoorbell s.dev n sub addr whole dmwr v)) := rfl

/-- The address in ACC_CFG_ADDR, as a configuration request carries it. -/
def cfgTarget (d : Ix9) (n : Nat) : Nat :=
  rget d Fld.ACC_CFG_ADDR_REG n * 4 + rget d Fld.ACC_CFG_ADDR_FN n * 2 ^ 12 + rget d Fld.ACC_CFG_ADDR_DEV n * 2 ^ 15
    + rget d Fld.ACC_CFG_ADDR_BUS n * 2 ^ 20

theorem doorbell_sq {d : Ix9} {f i : Nat} (h : (sqByDb d f i).isSome = true) (whole : Bool) (v : Nat) :
    doorbell d f i whole v = sqDoorbell d f i whole v := by
  simp only [doorbell, h, if_true]

section
variable {d : Ix9} {n sub : Nat}

section
variable (hport : accExists d n 0 = true) (hroot : isRoot d n = true)
include hport hroot

theorem accCfg_read_down (hdown : rflag d Fld.PCIE_LINK_STATUS_DL_UP (subKey n (rget d Fld.ACC_CFG_ADDR_SUBLINK n)) = false)
    (answer : Option Nat) :
    accCfg d n none answer = emit (rset d Fld.ACC_CFG_DATA n 0xFFFFFFFF) (.value 0xFFFFFFFF) := by
  simp only [accCfg, hport, hroot, hdown, Bool.and_self, Bool.not_true, Bool.false_eq_true, if_false]

section
variable (hup : rflag d Fld.PCIE_LINK_STATUS_DL_UP (subKey n (rget d Fld.ACC_CFG_ADDR_SUBLINK n)) = true)
include hup

theorem accCfg_read_up (v : Nat) : accCfg d n none (some v) =
    emit (rset (emit d (.config (n + 1) false (cfgTarget d n) 0)) Fld.ACC_CFG_DATA n (v % 2 ^ 32)) (.value (v % 2 ^ 32)) := by
  simp only [accCfg, hport, hroot, hup, Bool.and_self, Bool.not_true, Bool.false_eq_true, if_false, if_true]
  rfl

theorem accCfg_write_up (v : Nat) (answer : Option Nat) : accCfg d n (some v) answer =
    rset (emit d (.config (n + 1) true (cfgTarget d n) v)) Fld.ACC_CFG_DATA n v := by
  simp only [accCfg, hport, hroot, hup, Bool.and_self, Bool.not_true, Bool.false_eq_true, if_false, if_true]
  rfl

end

end

section
variable (hexists : accExists d n sub = true) (hup : rflag d Fld.PCIE_LINK_STATUS_DL_UP (subKey n sub) = true)
include hexists hup

section
variable (hroot : isRoot d n = true)
include hroot

theorem inboundDiscard_root (posted : Bool) : inboundDiscard d n sub posted =
    if posted then count d Fld.PCIE_IN_DISCARDS (subKey n sub) else emit d (.completion (n + 1) false) := by
  simp only [inboundDiscard, hexists, hroot, hup, Bool.and_self, Bool.not_true, Bool.false_eq_true, if_false]

theorem inboundDoorbell_disabled (hdis : rflag d Fld.ACC_DB_EN n = false) (addr : Nat) (whole dmwr : Bool) (v : Nat) :
    inboundDoorbell d n sub addr whole dmwr v = inboundDiscard d n sub (!dmwr) := by
  simp only [inboundDoorbell, hexists, hup, hroot, hdis, Bool.and_self, Bool.not_true, Bool.not_false, Bool.true_or,
    Bool.false_eq_true, if_false, if_true]

/-- A doorbell word inside the window of a root port: the window is 16 MiB at ACC_DB.BASE, a word is 8 bytes (R533). -/
theorem inboundDoorbell_root (hen : rflag d Fld.ACC_DB_EN n = true) (hfunc : rget d Fld.ACC_DB_FUNC n ≤ 3) {x : Nat}
    (hx : x < 65536) (dmwr : Bool) (v : Nat) :
    inboundDoorbell d n sub (rget d Fld.ACC_DB_BASE n * 2 ^ 24 + 8 * x) true dmwr v =
      if dmwr then emit (doorbell d (rget d Fld.ACC_DB_FUNC n) x true v) (.completion (n + 1) true)
      else doorbell d (rget d Fld.ACC_DB_FUNC n) x true v := by
  have hoff : (rget d Fld.ACC_DB_BASE n * 2 ^ 24 + 8 * x) % 2 ^ 24 = 8 * x := by omega
  have hbase : (rget d Fld.ACC_DB_BASE n * 2 ^ 24 + 8 * x) / 2 ^ 24 = rget d Fld.ACC_DB_BASE n := by omega
  simp only [inboundDoorbell, hexists, hup, hroot, hen, hoff, hbase, Nat.not_lt.2 hfunc, hx, Nat.mul_mod_right,
    Nat.mul_div_cancel_left x (by decide : 0 < 8), bne_self_eq_false, Bool.and_self, Bool.not_true, Bool.or_self,
    decide_true, decide_false, Bool.false_eq_true, if_false, if_true]

end

/-- A doorbell word in BAR0 of an endpoint port (R534). -/
theorem inboundDoorbell_endpoint (hroot : isRoot d n = false) (hen : rflag d Fld.ACC_DB_EN n = true)
    (hfunc : rget d Fld.ACC_DB_FUNC n ≤ 3 ∨ isVf (rget d Fld.ACC_DB_FUNC n) = true) {x : Nat} (hx : x < 65536) (v : Nat) :
    inboundDoorbell d n sub (8 * x) true false v = doorbell d (rget d Fld.ACC_DB_FUNC n) x true v := by
  have hoff : 8 * x % 2 ^ 24 = 8 * x := by omega
  have hown : (decide (rget d Fld.ACC_DB_FUNC n ≤ 3) || isVf (rget d Fld.ACC_DB_FUNC n)) = true := by simpa using hfunc
  simp only [inboundDoorbell, hexists, hup, hroot, hen, hoff, hown, hx, Nat.mul_mod_right,
    Nat.mul_div_cancel_left x (by decide : 0 < 8), Bool.and_self, Bool.not_true, decide_true, Bool.false_eq_true, if_false,
    if_true]

end

end

/-- Settles O57, by the equations above. An ERR_FATAL message that counts both as an AER message and as a loss, and a doorbell
write to a window that is not enabled, which is discarded and counted, are the model's choice (log entry 49). -/
theorem acceleratorPortsFollowTheirLinks : Obligations.AcceleratorPortsFollowTheirLinks := by
  intro s n sub i hexists hi
  subst hi
  refine ⟨fun speed width flit d hready hdpc hdown hd => ⟨fun hend => ?upEndpoint, fun hroot => ?upRoot⟩,
    fun a b c e hscan => ?discovered, fun d x e hup hd hx he => ?loss,
    fun hroot hport => ⟨fun hwrote => ?rescan, fun hwrote => ?release,
      fun d hready hd => ⟨?aer, fun b x e hup hex hr hu hb hx he => ?fatal⟩,
      fun hwrote => ⟨fun v hdown => ?cfgDown, fun t v hup ht => ⟨?cfgRead, fun a => ?cfgWrite⟩⟩,
      fun hup => ⟨fun x f v hen hf hfunc hlt => ⟨?rung, ?rungDmwr, fun k q hq hreset hnew hroom => ?submitted⟩,
        fun hdis => ⟨fun a w v => ?disabled, fun a w v => ?disabledDmwr⟩, ?posted, ?nonPosted⟩⟩,
    fun x f v hend hup hen hf hfunc hlt => ?endpoint⟩
  case upEndpoint => rw [exec_accelLinkUp, accelUp_down hexists hready hdpc hdown, linkRisen, ← hd, hend, if_neg Bool.false_ne_true]
  case upRoot =>
    rw [exec_accelLinkUp, accelUp_down hexists hready hdpc hdown, linkRisen, ← hd, if_pos hroot, hd]
    rfl
  case discovered => rw [exec_discoveryDone, discoveryDone_scanning hscan]
  case loss => rw [exec_accelLinkLoss, accelLoss_up hexists hup, linkFallen, ← hd, ← hx, he, linkLost]
  case rescan => rw [exec_accPortRescan, if_pos hwrote, rescan_root hport hroot]
  case release => rw [exec_dpcRelease, if_pos hwrote, dpcRelease_root hport hroot]
  case aer => rw [exec_aerMessageReceived, aerMessage_root hexists hroot hready, hd]
  case fatal =>
    have hloss : accelLoss b n sub = linkLost x n sub := by
      subst hb hx
      exact accelLoss_root hex hu hr
    rw [exec_errFatalReceived, errFatal_root hexists hroot hup, aerMessage_root hexists hroot hready, ← hd, ← hb, hloss, he,
      linkLost]
  case cfgDown => rw [exec_accCfgDataAccess, if_pos hwrote, accCfg_read_down hport hroot hdown]
  case cfgRead => rw [exec_accCfgDataAccess, if_pos hwrote, accCfg_read_up hport hroot hup, ht, cfgTarget]
  case cfgWrite => rw [exec_accCfgDataAccess, if_pos hwrote, accCfg_write_up hport hroot hup, ht, cfgTarget]
  case rung =>
    subst hf
    rw [exec_inboundDoorbellWrite, inboundDoorbell_root hexists hup hroot hen hfunc hlt, if_neg Bool.false_ne_true]
  case rungDmwr =>
    subst hf
    rw [exec_inboundDoorbellWrite, inboundDoorbell_root hexists hup hroot hen hfunc hlt, if_pos rfl]
  case submitted =>
    subst hf
    rw [exec_inboundDoorbellWrite, inboundDoorbell_root hexists hup hroot hen hfunc hlt, if_neg Bool.false_ne_true,
      doorbell_sq (by rw [hq]; rfl), sqDoorbell_new hq hreset hnew hroom]
  case disabled =>
    rw [exec_inboundDoorbellWrite, inboundDoorbell_disabled hexists hup hroot hdis, inboundDiscard_root hexists hup hroot]
    rfl
  case disabledDmwr =>
    rw [exec_inboundDoorbellWrite, inboundDoorbell_disabled hexists hup hroot hdis, inboundDiscard_root hexists hup hroot]
    rfl
  case posted => rw [exec_inboundRequestDiscard, inboundDiscard_root hexists hup hroot, if_pos rfl]
  case nonPosted => rw [exec_inboundRequestDiscard, inboundDiscard_root hexists hup hroot, if_neg Bool.false_ne_true]
  case endpoint =>
    subst hf
    rw [exec_inboundDoorbellWrite, inboundDoorbell_endpoint hexists hup hend hen hfunc hlt]

/-! ## Attestation (R546 to R548) -/

theorem exec_spdmGetVersion (mb : Nat) (acc : Bool) (req : List Byte) (s : State) :
    exec (.spdmGetVersion mb acc req) s = .next (s.only (spdm s.dev 0x84 mb acc req)) := rfl

theorem exec_spdmGetCapabilities (mb : Nat) (acc : Bool) (req : List Byte) (s : State) :
    exec (.spdmGetCapabilities mb acc req) s = .next (s.only (spdm s.dev 0xE1 mb acc req)) := rfl

theorem exec_spdmNegotiateAlgorithms (mb : Nat) (acc : Bool) (req : List Byte) (s : State) :
    exec (.spdmNegotiateAlgorithms mb acc req) s = .next (s.only (spdm s.dev 0xE3 mb acc req)) := rfl

theorem exec_spdmGetDigests (mb : Nat) (acc : Bool) (req : List Byte) (s : State) :
    exec (.spdmGetDigests mb acc req) s = .next (s.only (spdm s.dev 0x81 mb acc req)) := rfl

theorem exec_spdmGetCertificate (mb : Nat) (acc : Bool) (req : List Byte) (s : State) :
    exec (.spdmGetCertificate mb acc req) s = .next (s.only (spdm s.dev 0x82 mb acc req)) := rfl

theorem exec_spdmChallenge (mb : Nat) (acc : Bool) (req : List Byte) (s : State) :
    exec (.spdmChallenge mb acc req) s = .next (s.only (spdm s.dev 0x83 mb acc req)) := rfl

theorem exec_spdmGetMeasurements (mb : Nat) (acc : Bool) (req : List Byte) (s : State) :
    exec (.spdmGetMeasurements mb acc req) s = .next (s.only (spdm s.dev 0xE0 mb acc req)) := rfl

section
variable {d : Ix9} {mb : Nat} (hready : islandReady d 0 = true) (hreach : spdmReach d mb = true)
include hready hreach

/-- A request is answered at once outside an activation, and over MCTP (mailbox 8) always. -/
theorem spdm_answered (h : rflag d Fld.FW_STATUS_ACTIVATING = false ∨ mb = 8) (code : Nat) (acc : Bool) (req : List Byte) :
    spdm d code mb acc req = emit d (.message code (spdmBody d code req)) := by
  have hnow : (rflag d Fld.FW_STATUS_ACTIVATING && mb != 8) = false := by
    obtain hidle | rfl := h
    · rw [hidle, Bool.false_and]
    · rw [bne_self_eq_false, Bool.and_false]
  simp only [spdm, hready, hreach, hnow, Bool.not_true, Bool.or_self, Bool.false_eq_true, if_false]

theorem spdm_kept (hact : rflag d Fld.FW_STATUS_ACTIVATING = true) (hdoe : mb ≠ 8) (code : Nat) (req : List Byte) :
    spdm d code mb true req = { d with io := { d.io with doeWait := d.io.doeWait ++ [(mb, code, req)] } } := by
  simp only [spdm, hready, hreach, hact, bne_iff_ne.2 hdoe, Bool.not_true, Bool.or_self, Bool.and_self, Bool.false_eq_true,
    if_false, if_true]

end

/-! ## The test access port and I3C (R468, R577, R578) -/

theorem exec_jtagInstructionLoad (j : Jtag) (s : State) :
    exec (.jtagInstructionLoad j) s = .next (s.store (jtagLoad s.dev j)) := rfl

theorem exec_dynamicAddressAssignment (static_ : Option Nat) (a : Nat) (s : State) :
    exec (.dynamicAddressAssignment static_ a) s = .next (s.only (dynAddr s.dev static_ a)) := rfl

/-- The instruction `j` stands in the instruction register. -/
def withIr (d : Ix9) (j : Jtag) : Ix9 := { d with boot := { d.boot with jtagIr := jtagNumber j } }

theorem jtagLoad_scan {j : Jtag} (h : j ∈ [Jtag.extest, .extestPulse, .extestTrain, .clamp, .highz]) (d : Ix9) :
    jtagLoad d j = scanMode (allDown (withIr d j)) := by
  simp only [List.mem_cons, List.not_mem_nil, or_false] at h
  obtain rfl | rfl | rfl | rfl | rfl := h <;> rfl

theorem jtagLoad_select {j : Jtag} (h : j ∈ [Jtag.bypass, .sample]) (d : Ix9) : jtagLoad d j = withIr d j := by
  simp only [List.mem_cons, List.not_mem_nil, or_false] at h
  obtain rfl | rfl := h <;> rfl

/-- Outside the standard's instructions a code acts as BYPASS unless gated commands run (R468). -/
theorem jtagLoad_other {d : Ix9} (hmon : d.mon.unlocked = false) (hdebug : d.nvm.debug = false) (c : Nat) :
    jtagLoad d (.other c) = withIr d .bypass := by
  simp only [jtagLoad, hmon, hdebug, Bool.or_self, Bool.false_eq_true, if_false]
  rfl

/-- ENTDAA, or SETDASA with the static address of the device, gives an address where none is held (R578). -/
theorem dynAddr_free {d : Ix9} (hnone : d.io.i3c = none) {static_ : Option Nat} (h : static_ = none ∨ static_ = some 0x4E) {a : Nat}
    (ha : a < 128) : dynAddr d static_ a = { d with io := { d.io with i3c := some a } } := by
  have hours : static_.any (· != 0x4E) = false := by obtain rfl | rfl := h <;> rfl
  simp only [dynAddr, hnone, hours, Nat.mod_eq_of_lt ha, Option.isSome_none, Bool.or_self, Bool.false_eq_true, if_false]

/-- Settles O60, by the equations above. The codes of the SPDM messages (log entry 10), the numbers of the test access port's
instructions (log entry 9), the request that waits in a DOE mailbox, and the address that is taken only where none is held (log
entry 49) are the model's choice. -/
theorem sidebandAnswers : Obligations.SidebandAnswers := by
  intro s
  refine ⟨fun mb acc req hready hreach => ⟨fun hidle => ?answered, fun hmctp => ?mctp, fun hact hdoe => ?kept⟩, ?idcode,
    fun j hj => ?scan, fun j hj => ?select, fun c hmon hdebug => ?other, fun hnone a ha => ⟨?entdaa, ?setdasa⟩⟩
  case answered =>
    have hanswer := fun code => spdm_answered hready hreach (.inl hidle) code acc req
    rw [exec_spdmGetVersion, exec_spdmGetCapabilities, exec_spdmNegotiateAlgorithms, exec_spdmGetDigests,
      exec_spdmGetCertificate, exec_spdmChallenge, exec_spdmGetMeasurements]
    simp only [hanswer, and_self]
  case mctp => rw [exec_spdmGetMeasurements, spdm_answered hready hreach (.inr hmctp)]
  case kept => rw [exec_spdmGetMeasurements, spdm_kept hready hreach hact hdoe]
  case idcode =>
    rw [exec_jtagInstructionLoad]
    rfl
  case scan => rw [exec_jtagInstructionLoad, jtagLoad_scan hj, withIr]
  case select => rw [exec_jtagInstructionLoad, jtagLoad_select hj, withIr]
  case other => rw [exec_jtagInstructionLoad, jtagLoad_other hmon hdebug, withIr]
  case entdaa => rw [exec_dynamicAddressAssignment, dynAddr_free hnone (.inl rfl) ha]
  case setdasa => rw [exec_dynamicAddressAssignment, dynAddr_free hnone (.inr rfl) ha]

end Sys2Proof.Machine
end
